-- ==== Sys2Proof/Word.lean ====
section
/-! DEFINITION. The word types of the machine (spec/00_scope.md, spec/02_number_formats.md R42):
bytes, the 32-bit and 64-bit register words, and the sparse map in which large stores are held as plain data. -/

namespace Sys2Proof

/-- One byte. -/
abbrev Byte := BitVec 8

/-- A 32-bit register word. -/
abbrev Word := BitVec 32

/-- A 64-bit register word (a LO and HI pair). -/
abbrev DWord := BitVec 64

/-- A sparse store: pairs of a key and a value, keys strictly rising, no pair whose value is the default.
The default is an argument of the operations in Sys2Proof/Machine/SMap.lean. -/
abbrev SMap (α : Type) := List (Nat × α)

end Sys2Proof
end

