-- ==== Sys2Proof/Types.lean ====
section
/-! DEFINITION. The plain types that both the commands (Sys2Proof/Syntax.lean) and the state
(Sys2Proof/Machine/State.lean) use: formats, codes, identifiers, records carried by packets, rings, images and
registers. -/

namespace Sys2Proof

/-- The nine element formats (spec/02_number_formats.md R41). -/
inductive Fmt where
  | e2m1 | e2m3 | e3m2 | e4m3 | e5m2 | int8 | bf16 | fp16 | fp32
  deriving DecidableEq, Repr

/-- The rounding modes RMODE (R57); code 3 is reserved and firmware refuses it in an image. -/
inductive RMode where
  | rne | rtz | sr
  deriving DecidableEq, Repr

/-- What a set of events adds to the three number counters (R65). -/
structure NumEv where
  sat   : Nat
  flush : Nat
  nan   : Nat
  deriving DecidableEq, Repr

/-- The class field of the internal form (R54). -/
inductive NumClass where
  | finite | infinite | nan
  deriving DecidableEq, Repr

/-- An operand element in the internal form (R54): sign, class, exponent E and significand N. -/
structure Elem where
  sign : Bool
  cls  : NumClass
  e    : Int
  n    : Nat
  deriving DecidableEq, Repr

/-- The fields of the register form of the vector slot (spec/04_tile_engines.md R118). -/
structure VReg where
  vd    : Fin 16
  va    : Fin 16
  vb    : Fin 16
  vc    : Fin 16
  rmode : Fin 4
  ssel  : Fin 16
  sinc  : Bool
  deriving DecidableEq, Repr

/-- The fields of the memory form of the vector slot (R118). -/
structure VMem where
  v     : Fin 16
  ade   : Fin 32
  ads   : Fin 32
  fmt   : Fin 16
  rmode : Fin 4
  ssel  : Fin 16
  sinc  : Bool
  pinc  : Bool
  fin   : Bool
  deriving DecidableEq, Repr

/-- The operations of the control slot (R109). -/
inductive CtlOp where
  | nop
  | ldi (d : Fin 16) (mode : Fin 4) (imm : BitVec 16)
  | salu (d a b fn : Fin 16)
  | saddi (d a : Fin 16) (imm : BitVec 16)
  | adset (n : Fin 32) (a b : Fin 16)
  | loop (csrc : Bool) (cnt : BitVec 12) (stop : BitVec 13)
  | jmp (target : BitVec 13)
  | bnz (a : Fin 16) (target : BitVec 13)
  | bown (mask : BitVec 16) (port : Fin 4)
  | cclr (mask : BitVec 3)
  | rdsr (d sel : Fin 16)
  | digclr
  | event (code : BitVec 16)
  | done
  deriving DecidableEq, Repr

/-- The operations of the array slot (R113). -/
inductive ArrOp where
  | nop
  | wload (didx : BitVec 13)
  | stream (didx : BitVec 13) (prob : Fin 8) (swap asrc : Bool) (asc : Fin 16)
  | drain (didx : BitVec 13)
  | aclr (first last : Fin 128)
  | mode (hsplit : Bool) (pjoin : Fin 4)
  deriving DecidableEq, Repr

/-- The operations of the vector slot (R119). -/
inductive VecOp where
  | nop
  | vmov (f : VReg) | vbcast (f : VReg) | vadd (f : VReg) | vsub (f : VReg) | vmul (f : VReg) | vfma (f : VReg)
  | vmax (f : VReg) | vmin (f : VReg) | vrsum (f : VReg) | vrmax (f : VReg)
  | vexp2 (f : VReg) | vlog2 (f : VReg) | vrcp (f : VReg) | vrsq (f : VReg)
  | vld (f : VMem) | vst (f : VMem) | vqnt (f : VMem) | vdqt (f : VMem) | vscan (f : VMem) | vdig (f : VMem)
  deriving DecidableEq, Repr

/-- The operations of the move slot (R127). -/
inductive MovOp where
  | nop
  | put (ad : Fin 32) (didx : BitVec 13) (pinc : Bool)
  | mreq (ad : Fin 32) (didx : BitVec 13) (pinc : Bool)
  | wopen (win : Fin 16) (didx : BitVec 13)
  | wclose (win : Fin 16)
  | tfull (slot : Fin 1024)
  | tempty (slot : Fin 1024)
  | pld (ad : Fin 32) (idx : BitVec 12) (kind pinc : Bool)
  deriving DecidableEq, Repr

/-- A decoded bundle (R102). -/
structure Bundle where
  ctl : CtlOp
  arr : ArrOp
  vec : VecOp
  mov : MovOp
  deriving DecidableEq, Repr

/-- The source kinds of an inbound write (spec/05_scratchpad.md R149). -/
inductive SrcKind where
  | tile | mover | cord (num : Nat)
  deriving DecidableEq, Repr

/-- The header of an inbound write (R149, R160), with the sender it came from (a tile, or a ring transfer). -/
structure InHdr where
  trow   : Nat
  tcol   : Nat
  win    : Nat
  offset : Nat
  nwords : Nat
  src    : SrcKind
  sender : Nat
  deriving DecidableEq, Repr

/-- A mover descriptor as an MREQ sends it (spec/08_memory_tiers.md R214, R215): the 128-bit descriptor, the issuing
tile, the byte address of its slot, and the logical cycle in which the MREQ issued (R332). -/
structure MDesc where
  w    : BitVec 128
  tile : Nat
  addr : Nat
  cyc  : Nat
  deriving DecidableEq, Repr

/-- An entry of the program store (spec/04_tile_engines.md R100): the kind bit and the 128 bits. -/
structure PEntry where
  desc : Bool
  w    : BitVec 128
  deriving DecidableEq, Repr

/-- A broadcast bundle of a ganged core (R179): the issue cycle, and the entry and its index, or a bubble. -/
structure IssueSlot where
  cyc : Nat
  pc  : Nat
  ent : Option PEntry
  deriving DecidableEq, Repr

/-- What a quarter of a flit holds: a 64-byte word with its kind (R160), or in the issue quarter a bundle (R179). A delivery is a
word for the tile's own MREQ. -/
inductive MWord where
  | first (h : InHdr) (data : List Byte)
  | later (data : List Byte)
  | request (d : MDesc)
  | delivery (slotAddr word : Nat) (last : Bool) (target : Nat) (data : List Byte)
  | bundle (slot : IssueSlot)
  deriving DecidableEq, Repr

/-- A flit: the receiver's logical cycle in which it is consumed, and its four quarters. -/
structure Flit where
  cyc : Nat
  q0  : Option MWord
  q1  : Option MWord
  q2  : Option MWord
  q3  : Option MWord
  deriving DecidableEq, Repr

/-- The state of a slot tag (spec/05_scratchpad.md, Slot tags). -/
inductive TagSt where
  | empty | full | lent
  deriving DecidableEq, Repr

/-- What an environment supplies to one physical cycle of a tile: a stored word whose parity groups have been upset
(R157), a column whose residue compare fails, and an active weight register (column, row) whose parity bit has been upset (R96). -/
structure CycleEnv where
  upset   : Option (Nat × Nat)
  residue : Option Nat
  weight  : Option (Fin 128 × Fin 128)
  deriving DecidableEq, Repr

/-- Input directions of a tile (R165): N, E, S, W and the edge port X. -/
inductive Dir where
  | n | e | s | w | x
  deriving DecidableEq, Repr

/-- The Kiln barrier record (spec/11_surviving_failures.md R298). -/
structure KRec where
  step    : Word
  kind    : Fin 16
  status  : Fin 4
  sect    : Fin 16
  attempt : Fin 4
  frank   : Nat
  cause   : Byte
  digest  : DWord
  deriving DecidableEq, Repr

/-- The packet header (spec/10_fabric_and_cords.md R268); nwords is the number of data words. -/
structure PktHdr where
  dst    : BitVec 16
  src    : BitVec 16
  cord   : Nat
  srank  : Nat
  drank  : Nat
  trow   : Nat
  tcol   : Nat
  win    : Nat
  offset : Nat
  nwords : Nat
  dtr    : Bool
  edge   : Nat
  phase  : Nat
  tag    : Nat
  elem   : Nat
  kelem  : Nat
  deriving DecidableEq, Repr

/-- The bulk classes (R267): WRITE, GATHER, CONTRIB and PARTIAL. -/
inductive PClass where
  | write | gather | contrib | part
  deriving DecidableEq, Repr

/-- One completion of a COMPL packet (R269): the sender it answers (EDGE for a gateway), the module that answers, its TAG, cord
and rank, the status, and whether it is on the first hop of a detour. -/
structure Compl where
  dst    : BitVec 16
  src    : BitVec 16
  edge   : Nat
  cord   : Nat
  srank  : Nat
  tag    : Nat
  status : Nat
  dtr    : Bool
  deriving DecidableEq, Repr

/-- The IDENT record (spec/09_optical_links.md R255). -/
structure IdentRec where
  unit   : DWord
  link   : BitVec 7
  fvalid : Bool
  faddr  : BitVec 16
  rxC    : BitVec 12
  rxA    : BitVec 12
  rxB    : BitVec 12
  hold   : Bool
  deriving DecidableEq, Repr

/-- A packet by its class (R267). A bulk packet holds its header and its 64-byte data words; a barrier packet its channel,
generation and record; a line state notice its sender, dimension and mask; a time packet its stamps in ns; dtr is DTR of their headers. -/
inductive Packet where
  | bulk (cls : PClass) (h : PktHdr) (words : List (List Byte))
  | compl (cs : List Compl)
  | barrier (h : PktHdr) (ch gen : Nat) (krec : KRec)
  | lineState (dst src : BitVec 16) (dim mask : Nat) (dtr : Bool)
  | time (dst src : BitVec 16) (t1 t2 t3 : Nat) (answer dtr : Bool)
  | ident (r : IdentRec)
  | fence (secs : Nat)
  deriving DecidableEq, Repr

/-- A flit of a packet (R245, R247): its VC (0 control, 1 bulk A, 2 bulk B, 3 idle), its sequence number, its packet and its
place in the packet; an idle flit has no packet. -/
structure LFlit where
  vc  : Nat
  seq : Nat
  pkt : Option Packet
  idx : Nat
  deriving DecidableEq, Repr

/-- How a flit frame decodes (R244, R246): good with a number of corrected symbols, or bad (FEC failure or CRC mismatch)
with its header reliable or not. -/
inductive FecOut where
  | good (corrected : Nat) | bad (hdrReliable : Bool)
  deriving DecidableEq, Repr

/-- A flit frame (R245): the flit, its acknowledgement and credit fields, and its CLASS. -/
structure LFrame where
  flit    : LFlit
  ackVc   : Nat
  ackSeq  : Nat
  nak     : Bool
  crVc    : Nat
  credits : Nat
  cls     : Nat
  deriving DecidableEq, Repr

/-- What the line does to a flit frame (R244, R246): the symbols it alters, by number, each with the bits that it flips; hdrOk
says whether the receiver takes the header of a bad flit for reliable. -/
structure LineErr where
  flips : List (Fin 216 × BitVec 10)
  hdrOk : Bool
  deriving DecidableEq, Repr

/-- A flit frame on the line and what the line does to it (R244). -/
structure LineRead where
  frame : LFrame
  err   : LineErr
  deriving DecidableEq, Repr

/-- A LINKSTATE notice's bundle mask and detour bit (spec/10_fabric_and_cords.md R268, R271). -/
structure LineMask where
  mask : BitVec 31
  dtr  : Bool
  deriving DecidableEq, Repr

/-- The errors of a mesh flit as it arrives (spec/06_die_mesh_and_groupings.md R162): the mask of the quarters that fail parity, and the lane
group that carried the word (R35). -/
structure FlitErr where
  bad   : Fin 16
  group : Fin 66
  deriving DecidableEq, Repr

/-- What a REG_WRITE message carries (spec/06_die_mesh_and_groupings.md R170): the value, and BCAST. -/
structure RegVal where
  value : Word
  bcast : Bool
  deriving DecidableEq, Repr

/-- A frame of a memory tier and the corrected errors that it reports (spec/08_memory_tiers.md R224). -/
structure FrameErr where
  frame : Nat
  count : Nat
  deriving DecidableEq, Repr

/-- The fields of a cord entry (R276); gens are the generations of the four channels. -/
structure CordEntry where
  valid  : Bool
  part   : Nat
  ember  : Bool
  digest : Bool
  rx     : Nat
  ry     : Nat
  rz     : Nat
  myrank : Nat
  ifmt   : Nat
  ofmt   : Nat
  rmode  : Nat
  anchor : Int
  btiles : Nat
  mframe : Nat
  gens   : Nat
  deriving DecidableEq, Repr

/-- The part of a program image for one tile (spec/04_tile_engines.md R100, R132; spec/11_surviving_failures.md R295): the
entry of each section (A, B, RESTORE_SEND, RESTORE_RECV), the number of program store entries, the entries with their kind bit,
and the route words. -/
structure TileImg where
  tile    : Nat
  entries : List Nat
  size    : Nat
  store   : List (Nat × Bool × BitVec 128)
  routes  : List (Nat × BitVec 128)
  deriving DecidableEq, Repr

/-- A program image as LOAD presents it. edges gives the edge slot tables as (edge port, route word index, quarter, tile); cwin is
the cluster window's descriptor (R182); steprec the address STEPREC (R297); replaySet ranges of (first slot, slots, source
address); recovery ranges of (first page, pages, kind: 0 NONE, 1 RECOMPUTED, 2 HOST) (R295); barriers the (cord, channel) pairs
that its tiles use (R298); groups the micro-batch group of each rank (R312); moments the pages of
the moment buffers that it keeps for other ranks (R310): first page, pages, rank, buffer. -/
structure Image where
  digest     : Nat
  tranu4     : Bool
  replayable : Bool
  widthClass : Nat
  rper       : Nat
  owners     : BitVec 32
  tiles      : List TileImg
  edges      : List (Nat × Nat × Nat × Nat)
  cwin       : Option (BitVec 128)
  steprec    : Nat
  replaySet  : List (Nat × Nat × Nat)
  recovery   : List (Nat × Nat × Nat)
  barriers   : List (Nat × Nat)
  groups     : List Nat
  moments    : List (Nat × Nat × Nat × Nat)
  deriving DecidableEq, Repr

/-- The energies and currents of one metering interval (spec/13_power_and_thermal.md R356, R367): input energy in µJ, each field's
VDDL and VDDM energy, input current in 10 mA, VPKG current in A, each field's VDDL current in 0.1 A. -/
structure MeterRead where
  ein    : Nat
  fields : List Nat
  curr   : Nat
  ivpkg  : Nat
  ivddl  : List Nat
  deriving DecidableEq, Repr

/-- What Kiln finds of its own load over 100 ms (R397, R411): busy percentage, and busy percentage and waiting tasks of the
classes 1 to 7. -/
structure LoadRead where
  busy   : Fin 101
  cbusy  : List Nat
  queued : List Nat
  deriving DecidableEq, Repr

/-- How a Kindling stage went (R414): the report code of a failure that only the hardware can find (0 where there is none), and its duration
in ms. -/
structure StageOut where
  code : Nat
  ms   : Nat
  deriving DecidableEq, Repr

/-- A replica-path measurement of Stage 3 (spec/07_clocks_and_logical_time.md R192): region, target step, at 0.80 V rather than
0.55 V, result. -/
structure PathRead where
  region : Fin 128
  step   : Nat
  high   : Bool
  value  : Nat
  deriving DecidableEq, Repr

/-- What Stage 3 measures (spec/07_clocks_and_logical_time.md R192): the voltage table by step, and the replica paths. -/
structure Calib where
  vtab  : List (Nat × Nat)
  paths : List PathRead
  deriving DecidableEq, Repr

/-- What memory training finds (spec/16_bringup_and_reset.md R418, R419): the frames withheld, and the settings of each device. -/
structure MemTrain where
  withheld : List Nat
  trained  : List (Fin 16 × Nat)
  deriving DecidableEq, Repr

/-- What a REG_WRITE control message writes (spec/06_die_mesh_and_groupings.md R170): a register at an offset, or a slot tag. -/
inductive RegTgt where
  | reg (off : Fin 1024)
  | tag (slot : Fin 1024) (st : TagSt)
  deriving DecidableEq, Repr

/-- What meets an uncorrectable memory error (spec/08_memory_tiers.md R225): a mover, a host's BAR2 access, Kiln, a reduction
engine, the Ember tap of a stream. -/
inductive UeWho where
  | mover (m : Fin 64)
  | host (port : Fin 2)
  | kiln
  | engine (k : Fin 24)
  | tap (i : Fin 8)
  deriving DecidableEq, Repr

/-- The stamps that a TIME packet carries in ns (spec/10_fabric_and_cords.md R288): the child's sending, the parent's receipt and
sending; answer says that the packet is the parent's answer, dtr is its DTR. -/
structure TimeStamps where
  t1     : Nat
  t2     : Nat
  t3     : Nat
  answer : Bool
  dtr    : Bool
  deriving DecidableEq, Repr

/-- A PCIe configuration request (spec/14_host_interface.md R369, R371, R373, R387). -/
inductive CfgReq where
  | read (off : Fin 4096)
  | busMaster (b : Bool)
  | msixEnable (b : Bool)
  | functionMask (b : Bool)
  | d3hot
  | resize (n : Fin 11)
  deriving DecidableEq, Repr

/-- The current whose limit is exceeded (spec/13_power_and_thermal.md R343). -/
inductive LimSrc where
  | input | vpkg | field (n : Fin 8)
  deriving DecidableEq, Repr

/-- The kinds of port reset (R373). -/
inductive PortRst where
  | perst | hotReset | linkDown | flr | d3ToD0
  deriving DecidableEq, Repr

/-- Arguments of ATTACH (spec/18_command_catalogue.md R457). -/
structure AttachArgs where
  hostId  : DWord
  ev      : DWord
  log     : DWord
  trace   : DWord
  evSz    : Byte
  logSz   : Byte
  traceSz : Byte
  logWm   : Word
  traceWm : Word
  deriving DecidableEq, Repr

/-- Arguments of CTX_CREATE (R457). -/
structure CtxArgs where
  part    : Byte
  prio    : Byte
  quantum : BitVec 16
  sub     : DWord
  cpl     : DWord
  subSz   : Byte
  cplSz   : Byte
  vector  : BitVec 16
  timeout : BitVec 16
  cord    : BitVec 16
  deriving DecidableEq, Repr

/-- Arguments of CTX_RESTORE after the context (R318, R457). -/
structure RestoreArgs where
  seed     : DWord
  dataStep : Word
  dataMb   : BitVec 16
  rngStep  : Word
  rngMb    : BitVec 16
  deriving DecidableEq, Repr

/-- Arguments of FABRIC_ASSIGN (R264, R457); map holds 96 entries of 18 bits. -/
structure AssignArgs where
  addr     : BitVec 16
  sxm      : Byte
  sym      : Byte
  szm      : Byte
  root     : Byte
  explicit : Byte
  map      : BitVec 1728
  deriving DecidableEq, Repr

/-- Arguments of RANK_REPLACE (R312, R457). -/
structure ReplaceArgs where
  c      : Byte
  lost   : BitVec 16
  spare  : BitVec 16
  source : BitVec 16
  group  : BitVec 16
  gen    : Byte
  cords  : List (BitVec 16)
  deriving DecidableEq, Repr

/-- Arguments of EMBER_SETUP (R306, R457). -/
structure EmberArgs where
  str   : Byte
  valid : Byte
  cord  : BitVec 16
  ewin  : Byte
  bofs  : BitVec 16
  wspan : BitVec 16
  buf0  : Word
  buf1  : Word
  shard : Word
  deriving DecidableEq, Repr

/-- Arguments of DIGEST_SETUP (R316, R457). -/
structure DigestArgs where
  str    : Byte
  enable : Byte
  vcord  : BitVec 16
  every  : Byte
  key    : DWord
  deriving DecidableEq, Repr

/-- What a module brings to lock-step comparison (R331): its determinism class string, its firmware version, the power policy of
the partition, and the digest of the partition's image. -/
structure LockSide where
  cls     : List Byte
  version : Nat
  fixed   : Bool
  step    : Nat
  image   : Option Nat
  deriving DecidableEq, Repr

/-- Arguments of LOCKSTEP_START (R331, R457); theirs is what the partner brings, which the two modules tell each other. -/
structure LockArgs where
  part    : Byte
  link    : Byte
  partner : DWord
  key     : DWord
  logsz   : Byte
  theirs  : LockSide
  deriving DecidableEq, Repr

/-- A partner's window record (spec/12_determinism.md R333, R334) with the tile digests of its differing streams, as pairs of
(2 × tile + kind, digest). -/
structure LsRec where
  step    : Word
  sect    : Nat
  attempt : Nat
  win     : Nat
  streams : List (Nat × DWord)
  tiles   : List (Nat × DWord)
  deriving DecidableEq, Repr

/-- The units of a tile whose defect makes the tile bad (spec/01_stitched_die.md R26). -/
inductive TileUnit where
  | rowBroadcast | feeder | sequencer | programStore | vectorLane | scratchBank | windowUnit | counters | meshPort
  deriving DecidableEq, Repr

/-- A lane group of a seam (R22): group g of a mesh crossing, in the direction east or south or (back) west or north, or a group of the
I/O ring. -/
inductive SeamGroup where
  | mesh (crossing : Fin 17) (back : Bool) (g : Fin 66)
  | ring (g : Fin 512)
  deriving DecidableEq, Repr

/-- What a self-test finds in a physical tile or at a seam (R24 to R26): a defect in a unit, in a cell of an array column, in a reduction
tree stage of one, or a lane with a bit error. -/
inductive Defect where
  | unit (prow : Fin 32) (pcol : Fin 68) (u : TileUnit)
  | cell (prow : Fin 32) (pcol : Fin 68) (row acol : Fin 128)
  | tree (prow : Fin 32) (pcol : Fin 68) (stage : Nat) (acol : Fin 128)
  | lane (seam : Fin 10) (group : SeamGroup) (lane : Fin 34)
  deriving DecidableEq, Repr

/-- What the boot ROM finds of the PUF array (spec/17_identity_and_update.md R433, R434): bits corrected, whether every code block
stayed within its limit, whether the derived public key equals the identity record's. -/
structure PufRead where
  corr   : Nat
  within : Bool
  keyEq  : Bool
  deriving DecidableEq, Repr

end Sys2Proof
end

