-- ==== Sys2Proof/Syntax.lean ====
section
/-! DEFINITION. The commands of the Tranu-8 block: one constructor per row of spec/opcode_table.json, in the table's order. The
table gives the rows no fields, so the operands are the model's own reading of the rule that each row names. -/

namespace Sys2Proof

/-- A command. -/
inductive Instr where
  /-- LOGICAL_CYCLE (R104). -/
  | logicalCycle (t : Fin 2048) (up : CycleEnv)
  /-- BEAT_TOKEN (R194). -/
  | beatToken (t : Fin 2048) (d : Dir)
  /-- CYCLE_LIMIT (R112). -/
  | cycleLimit (t : Fin 2048)
  /-- NOP (R102). -/
  | nop (t : Fin 2048) (slot : Fin 4)
  /-- LDI (R109). -/
  | ldi (t : Fin 2048) (d : Fin 16) (mode : Fin 4) (imm : BitVec 16)
  /-- SALU (R109). -/
  | salu (t : Fin 2048) (d : Fin 16) (a : Fin 16) (b : Fin 16) (fn : Fin 16)
  /-- SADDI (R109). -/
  | saddi (t : Fin 2048) (d : Fin 16) (a : Fin 16) (imm : BitVec 16)
  /-- ADSET (R109). -/
  | adset (t : Fin 2048) (n : Fin 32) (a : Fin 16) (b : Fin 16)
  /-- LOOP (R110). -/
  | loop (t : Fin 2048) (csrc : Bool) (cnt : BitVec 12) (stop : BitVec 13)
  /-- JMP (R110). -/
  | jmp (t : Fin 2048) (target : BitVec 13)
  /-- BNZ (R110). -/
  | bnz (t : Fin 2048) (a : Fin 16) (target : BitVec 13)
  /-- BOWN (R138). -/
  | bown (t : Fin 2048) (mask : BitVec 16) (port : Fin 4)
  /-- CCLR (R109). -/
  | cclr (t : Fin 2048) (mask : BitVec 3)
  /-- RDSR (R109). -/
  | rdsr (t : Fin 2048) (d : Fin 16) (sel : Fin 16)
  /-- DIGCLR (R124). -/
  | digclr (t : Fin 2048)
  /-- EVENT (R109). -/
  | event (t : Fin 2048) (code : BitVec 16)
  /-- DONE (R111). -/
  | done (t : Fin 2048)
  /-- WLOAD (R74). -/
  | wload (t : Fin 2048) (didx : BitVec 13)
  /-- STREAM (R81). -/
  | stream (t : Fin 2048) (didx : BitVec 13) (prob : Fin 8) (swap : Bool) (asrc : Bool) (asc : Fin 16)
  /-- DRAIN (R92). -/
  | drain (t : Fin 2048) (didx : BitVec 13)
  /-- ACLR (R90). -/
  | aclr (t : Fin 2048) (first : Fin 128) (last : Fin 128)
  /-- MODE (R80). -/
  | mode (t : Fin 2048) (hsplit : Bool) (pjoin : Fin 4)
  /-- VMOV (R119). -/
  | vmov (t : Fin 2048) (f : VReg)
  /-- VBCAST (R119). -/
  | vbcast (t : Fin 2048) (f : VReg)
  /-- VADD (R120). -/
  | vadd (t : Fin 2048) (f : VReg)
  /-- VSUB (R120). -/
  | vsub (t : Fin 2048) (f : VReg)
  /-- VMUL (R120). -/
  | vmul (t : Fin 2048) (f : VReg)
  /-- VFMA (R120). -/
  | vfma (t : Fin 2048) (f : VReg)
  /-- VMAX (R120). -/
  | vmax (t : Fin 2048) (f : VReg)
  /-- VMIN (R120). -/
  | vmin (t : Fin 2048) (f : VReg)
  /-- VRSUM (R120). -/
  | vrsum (t : Fin 2048) (f : VReg)
  /-- VRMAX (R120). -/
  | vrmax (t : Fin 2048) (f : VReg)
  /-- VEXP2 (R121). -/
  | vexp2 (t : Fin 2048) (f : VReg)
  /-- VLOG2 (R121). -/
  | vlog2 (t : Fin 2048) (f : VReg)
  /-- VRCP (R121). -/
  | vrcp (t : Fin 2048) (f : VReg)
  /-- VRSQ (R121). -/
  | vrsq (t : Fin 2048) (f : VReg)
  /-- VLD (R119). -/
  | vld (t : Fin 2048) (f : VMem)
  /-- VST (R119). -/
  | vst (t : Fin 2048) (f : VMem)
  /-- VQNT (R122). -/
  | vqnt (t : Fin 2048) (f : VMem)
  /-- VDQT (R122). -/
  | vdqt (t : Fin 2048) (f : VMem)
  /-- VSCAN (R123). -/
  | vscan (t : Fin 2048) (f : VMem)
  /-- VDIG (R124). -/
  | vdig (t : Fin 2048) (f : VMem)
  /-- PUT (R127). -/
  | put (t : Fin 2048) (ad : Fin 32) (didx : BitVec 13) (pinc : Bool)
  /-- MREQ (R127). -/
  | mreq (t : Fin 2048) (ad : Fin 32) (didx : BitVec 13) (pinc : Bool)
  /-- WOPEN (R152). -/
  | wopen (t : Fin 2048) (win : Fin 16) (didx : BitVec 13)
  /-- WCLOSE (R152). -/
  | wclose (t : Fin 2048) (win : Fin 16)
  /-- TFULL (R146). -/
  | tfull (t : Fin 2048) (slot : Fin 1024)
  /-- TEMPTY (R146). -/
  | tempty (t : Fin 2048) (slot : Fin 1024)
  /-- PLD (R130). -/
  | pld (t : Fin 2048) (ad : Fin 32) (idx : BitVec 12) (kind : Bool) (pinc : Bool)
  /-- TAG_STALL (R148). -/
  | tagStall (t : Fin 2048)
  /-- FLIT_RECEIVE (R161). -/
  | flitReceive (t : Fin 2048) (d : Dir) (e : FlitErr)
  /-- NOTIFY (R170). -/
  | notify (t : Fin 2048)
  /-- BAR_ARRIVE (R286). -/
  | barArrive (t : Fin 2048) (cord : Fin 4096) (ch : Fin 4) (count : Fin 4096)
  /-- BAR_RELEASE (R286). -/
  | barRelease (part : Fin 8) (cord : Fin 4096) (ch : Fin 4)
  /-- REG_WRITE (R170). -/
  | regWrite (t : Fin 2048) (tgt : RegTgt) (v : RegVal)
  /-- REG_READ (R170). -/
  | regRead (t : Fin 2048) (off : Fin 1024)
  /-- REG_DATA (R170). -/
  | regData (t : Fin 2048)
  /-- INBOUND_WRITE (R153). -/
  | inboundWrite (t : Fin 2048)
  /-- INBOUND_WORD (R154). -/
  | inboundWord (t : Fin 2048)
  /-- NEGATIVE_COMPLETION (R155). -/
  | negativeCompletion (t : Fin 2048)
  /-- PULL_READ (R137). -/
  | pullRead (t : Fin 2048)
  /-- MREQ_DELIVERY_WORD (R156). -/
  | mreqDeliveryWord (t : Fin 2048)
  /-- EDGE_SLOT_FILL (R175). -/
  | edgeSlotFill (e : Fin 188) (cyc : Nat)
  /-- MOVER_REQUEST (R214). -/
  | moverRequest (e : Fin 188)
  /-- GET (R217). -/
  | get (m : Fin 64) (pos : Nat)
  /-- PUTM (R217). -/
  | putm (m : Fin 64) (pos : Nat)
  /-- GETW (R217). -/
  | getw (m : Fin 64) (pos : Nat)
  /-- CGET (R217). -/
  | cget (m : Fin 64) (pos : Nat)
  /-- CPUT (R217). -/
  | cput (m : Fin 64) (pos : Nat)
  /-- MIGRATE (R222). -/
  | migrate (m : Fin 64) (pos : Nat)
  /-- CORD_WRITE (R278). -/
  | cordWrite (m : Fin 64) (pos : Nat)
  /-- CORD_GATHER (R279). -/
  | cordGather (m : Fin 64) (pos : Nat)
  /-- CORD_CONTRIB (R281). -/
  | cordContrib (m : Fin 64) (pos : Nat)
  /-- VISIBILITY_POINT (R220). -/
  | visibilityPoint (id : Nat)
  /-- MIGRATE_COPY_DONE (R222). -/
  | migrateCopyDone (page : Nat) (err : Bool)
  /-- OLD_FRAME_RELEASE (R222). -/
  | oldFrameRelease (page : Nat)
  /-- FREE_QUEUE_REFILL (R222). -/
  | freeQueueRefill (tier : Fin 2) (frames : Nat)
  /-- MEM_UNCORRECTABLE (R225). -/
  | memUncorrectable (who : UeWho) (tier : Fin 2) (frame : Nat)
  /-- RETIREMENT_COPY (R226). -/
  | retirementCopy (page : Nat) (badBlocks : List Nat)
  /-- CORRECTED_ERROR_LIMIT (R227). -/
  | correctedErrorLimit (tier : Fin 2) (e : FrameErr)
  /-- SCRUB_ERROR (R226). -/
  | scrubError (tier : Fin 2) (frame : Nat)
  /-- TMAP_ECC_ERROR (R209). -/
  | tmapEccError (page : Nat)
  /-- LASER_FAIL (R240). -/
  | laserFail (b : Fin 6) (laser : Fin 20) (wear : Bool)
  /-- SPARE_LASER_STABLE (R240). -/
  | spareLaserStable (b : Fin 6) (w : Fin 4)
  /-- RESYNC_DONE (R240). -/
  | resyncDone (l : Fin 96)
  /-- LOSS_OF_SIGNAL (R241). -/
  | lossOfSignal (l : Fin 96)
  /-- LANE_SYNC_REGAINED (R241). -/
  | laneSyncRegained (l : Fin 96)
  /-- PAUSED_TIMEOUT (R241). -/
  | pausedTimeout (l : Fin 96)
  /-- BLADE_DRAWN (R243). -/
  | bladeDrawn (b : Fin 6)
  /-- BLADE_INSERTED (R243). -/
  | bladeInserted (b : Fin 6)
  /-- LINK_FLIT_RECEIVE (R246). -/
  | linkFlitReceive (l : Fin 96) (x : LineRead)
  /-- ACK_TIMEOUT (R250). -/
  | ackTimeout (l : Fin 96) (vc : Fin 3)
  /-- LINK_ERROR_RATE (R251). -/
  | linkErrorRate (l : Fin 96)
  /-- LINK_TRAIN (R254). -/
  | linkTrain (l : Fin 96)
  /-- TRAINING_COMPLETE (R254). -/
  | trainingComplete (l : Fin 96) (ok : Bool) (rtt : Nat)
  /-- FENCE_EXPIRY (R256). -/
  | fenceExpiry (l : Fin 96)
  /-- LINK_LEAVE_UP (R257). -/
  | linkLeaveUp (l : Fin 96)
  /-- RETRY_BUFFER_EXPIRY (R257). -/
  | retryBufferExpiry (l : Fin 96)
  /-- IDENT (R255). -/
  | ident (l : Fin 96) (rec : IdentRec)
  /-- FENCE (R256). -/
  | fence (l : Fin 96) (secs : Fin 601)
  /-- WRITE (R270). -/
  | write (l : Fin 96) (h : PktHdr) (words : List (List Byte))
  /-- GATHER (R279). -/
  | gather (l : Fin 96) (h : PktHdr) (words : List (List Byte))
  /-- CONTRIB (R282). -/
  | contrib (l : Fin 96) (h : PktHdr) (words : List (List Byte))
  /-- PARTIAL (R283). -/
  | partialSum (l : Fin 96) (h : PktHdr) (words : List (List Byte))
  /-- RED_SLOT_STALL (R284). -/
  | redSlotStall (k : Fin 24) (slot : Fin 128)
  /-- COMPL (R269). -/
  | compl (x : Compl)
  /-- PACKET_RETRY (R269). -/
  | packetRetry (n : Nat) (expired : Bool)
  /-- MODULE_ARRIVED (R286). -/
  | moduleArrived (cord : Fin 4096) (ch : Fin 4)
  /-- BARRIER (R286). -/
  | barrier (l : Fin 96) (h : PktHdr) (ch : Fin 4) (gen : Fin 256) (krec : KRec)
  /-- LINKSTATE (R271). -/
  | linkstate (l : Fin 96) (dst : BitVec 16) (src : BitVec 16) (dim : Fin 3) (m : LineMask)
  /-- LINKSTATE_TIMER (R271). -/
  | linkstateTimer
  /-- TIME_EXCHANGE (R288). -/
  | timeExchange (root : BitVec 16)
  /-- TIME (R288). -/
  | time (l : Fin 96) (dst : BitVec 16) (src : BitVec 16) (stamps : TimeStamps)
  /-- FTIME_SYNC_LOST (R289). -/
  | ftimeSyncLost
  /-- KILN_BARRIER_ARRIVE (R298). -/
  | kilnBarrierArrive (c : Fin 256) (kind : Fin 4)
  /-- KILN_BARRIER_RELEASE (R299). -/
  | kilnBarrierRelease (cord : Fin 4096)
  /-- QUIESCE_DONE (R303). -/
  | quiesceDone (c : Fin 256)
  /-- FLOOD (R301). -/
  | flood (c : Fin 256)
  /-- SECTION_TIMEOUT (R301). -/
  | sectionTimeout (c : Fin 256)
  /-- PEER_LOST (R311). -/
  | peerLost (l : Fin 96)
  /-- DROOP (R189). -/
  | droop (t : Fin 2048) (low : Bool)
  /-- REGION_MONITOR_TICK (R190). -/
  | regionMonitorTick (n : Fin 128) (warn : Bool)
  /-- OSC_RECALIBRATION (R192). -/
  | oscRecalibration (n : Fin 128)
  /-- STEP_LAUNCH (R400). -/
  | stepLaunch (part : Fin 8)
  /-- START (R199). -/
  | start (t : Fin 2048)
  /-- ABORT (R134). -/
  | abort (t : Fin 2048)
  /-- HALT (R200). -/
  | halt (t : Fin 2048)
  /-- STEP_END (R200). -/
  | stepEnd (c : Fin 256)
  /-- REGISTER_WRITE (R10). -/
  | registerWrite (port : Fin 2) (off : Fin 16777216) (v : Word)
  /-- LO_READ_LATCH (R203). -/
  | loReadLatch (port : Fin 2) (off : Fin 16777216)
  /-- BAR0_INVALID_ACCESS (R375). -/
  | bar0InvalidAccess (port : Fin 2) (off : Fin 16777216) (isWrite : Bool) (len : Fin 513)
  /-- BAR2_READ (R377). -/
  | bar2Read (port : Fin 2) (off : Fin 1099511627776) (len : Fin 4097)
  /-- BAR2_WRITE (R377). -/
  | bar2Write (port : Fin 2) (off : Fin 1099511627776) (data : List Byte)
  /-- CONFIG_REQUEST (R371). -/
  | configRequest (port : Fin 2) (q : CfgReq)
  /-- STANDBY_QUALIFIER_START (R337). -/
  | standbyQualifierStart (mv : Nat)
  /-- PWR_EN_ASSERT (R469). -/
  | pwrEnAssert
  /-- POWER_UP (R342). -/
  | powerUp (straps : Fin 4)
  /-- PWR_EN_DEASSERT (R344). -/
  | pwrEnDeassert
  /-- POWER_DOWN (R344). -/
  | powerDown
  /-- FORCE_OFF (R470). -/
  | forceOff
  /-- VIN_FAULT (R344). -/
  | vinFault (mv : Nat)
  /-- VIN_OUT_OF_RANGE (R343). -/
  | vinOutOfRange (mv : Nat)
  /-- CURRENT_LIMIT_ASSERT (R343). -/
  | currentLimitAssert (w : LimSrc)
  /-- CURRENT_LIMIT_RELEASE (R343). -/
  | currentLimitRelease (w : LimSrc)
  /-- FIELD_LIMIT_PERSIST (R362). -/
  | fieldLimitPersist (n : Fin 8)
  /-- CONVERTER_FAIL (R339). -/
  | converterFail
  /-- PHASE_FAULT (R345). -/
  | phaseFault (n : Fin 8) (bank : Fin 4)
  /-- CHARGE_INJECTOR_CONNECT (R348). -/
  | chargeInjectorConnect (n : Fin 128)
  /-- CHARGE_INJECTOR_DISCONNECT (R348). -/
  | chargeInjectorDisconnect (n : Fin 128)
  /-- SHUNT_CLAMP_ENGAGE (R349). -/
  | shuntClampEngage (n : Fin 128)
  /-- SHUNT_CLAMP_RELEASE (R349). -/
  | shuntClampRelease (n : Fin 128)
  /-- CAP_LOOP_TICK (R352). -/
  | capLoopTick (watts : Nat)
  /-- ENERGY_METER_TICK (R356). -/
  | energyMeterTick (x : MeterRead)
  /-- THERMAL_STAGE_ENTER (R359). -/
  | thermalStageEnter (kind : Fin 5) (idx : Fin 128) (temp : Int)
  /-- THERMAL_STAGE_LEAVE (R358). -/
  | thermalStageLeave (kind : Fin 5) (idx : Fin 128) (temp : Int)
  /-- THERMAL_CEILING_TICK (R359). -/
  | thermalCeilingTick (n : Fin 128)
  /-- THERMAL_TRIP (R361). -/
  | thermalTrip (kind : Fin 5) (idx : Fin 128)
  /-- HEADROOM_TEST (R364). -/
  | headroomTest (mean : Nat)
  /-- QUARTER_RATE_START (R364). -/
  | quarterRateStart
  /-- SOFT_START_DONE (R366). -/
  | softStartDone (n : Fin 8)
  /-- THROTTLE_ASSERT (R469). -/
  | throttleAssert
  /-- THROTTLE_DEASSERT (R469). -/
  | throttleDeassert
  /-- THROTTLE_HELD (R354). -/
  | throttleHeld
  /-- PORT_RESET (R373). -/
  | portReset (port : Fin 2) (how : PortRst)
  /-- PORT_TRAIN (R371). -/
  | portTrain (port : Fin 2)
  /-- RING (R379). -/
  | ring (port : Fin 2) (m : Fin 16)
  /-- ACK (R379). -/
  | ack (port : Fin 2) (m : Fin 16)
  /-- COMMAND_TAKE (R379). -/
  | commandTake (port : Fin 2) (m : Fin 16) (theirs : LockSide)
  /-- RING_DB (R385). -/
  | ringDb (port : Fin 2) (c : Fin 256)
  /-- MSIX_SEND (R387). -/
  | msixSend (port : Fin 2) (v : Fin 2048)
  /-- HEARTBEAT_SAMPLE (R390). -/
  | heartbeatSample (port : Fin 2)
  /-- HOST_HOLD_EXPIRY (R391). -/
  | hostHoldExpiry (port : Fin 2)
  /-- INFO (R457). -/
  | info (port : Fin 2)
  /-- TIME_SET (R457). -/
  | timeSet (port : Fin 2) (utc : DWord)
  /-- RESTART (R413). -/
  | restart (port : Fin 2)
  /-- FULL_START (R424). -/
  | fullStart (port : Fin 2)
  /-- DEFECT_READ (R457). -/
  | defectRead (port : Fin 2) (kind : Byte) (off : Word)
  /-- ACTIVATE (R446). -/
  | activate (port : Fin 2) (at_ : DWord) (window : BitVec 16)
  /-- ACTIVATE_CANCEL (R446). -/
  | activateCancel (port : Fin 2)
  /-- ATTACH (R390). -/
  | attach (port : Fin 2) (a : AttachArgs)
  /-- DETACH (R390). -/
  | detach (port : Fin 2)
  /-- BAR2_WINDOW (R377). -/
  | bar2Window (port : Fin 2) (page : Word)
  /-- TRACE_CONFIG (R405). -/
  | traceConfig (port : Fin 2) (mask : DWord)
  /-- PART_CONFIG (R176). -/
  | partConfig (port : Fin 2) (part : Byte) (fmask : Byte) (mode : Byte) (gang : Byte)
  /-- PART_POWER_ON (R366). -/
  | partPowerOn (port : Fin 2) (part : Byte)
  /-- PART_POWER_OFF (R183). -/
  | partPowerOff (port : Fin 2) (part : Byte)
  /-- PARTITION_OFF_DRAINED (R183). -/
  | partitionOffDrained (part : Fin 8)
  /-- POWER_POLICY (R355). -/
  | powerPolicy (port : Fin 2) (cap : BitVec 16) (part : Byte) (mode : Byte) (stp : Byte)
  /-- TILE_RESET (R429). -/
  | tileReset (port : Fin 2) (target : BitVec 16)
  /-- CLUSTER_RESET (R429). -/
  | clusterReset (port : Fin 2) (target : BitVec 16)
  /-- PARTITION_RESET (R429). -/
  | partitionReset (port : Fin 2) (target : BitVec 16)
  /-- COMPUTE_RESET (R429). -/
  | computeReset (port : Fin 2) (selftest : Byte)
  /-- DEVICE_RESET (R429). -/
  | deviceReset (port : Fin 2) (selftest : Byte)
  /-- RESET_APPLY (R429). -/
  | resetApply (found : List Defect)
  /-- RESET_MOVER_CANCEL (R428). -/
  | resetMoverCancel
  /-- CTX_CREATE (R399). -/
  | ctxCreate (port : Fin 2) (a : CtxArgs)
  /-- CTX_PAUSE (R402). -/
  | ctxPause (port : Fin 2) (c : Byte)
  /-- CTX_RESUME (R402). -/
  | ctxResume (port : Fin 2) (c : Byte)
  /-- CTX_DESTROY (R457). -/
  | ctxDestroy (port : Fin 2) (c : Byte)
  /-- CTX_RESTORE (R318). -/
  | ctxRestore (port : Fin 2) (c : Byte) (a : RestoreArgs)
  /-- TMAP_MAP (R457). -/
  | tmapMap (port : Fin 2) (first : Word) (count : Word) (part : Byte) (tier : Byte) (writable : Byte)
  /-- TMAP_UNMAP (R457). -/
  | tmapUnmap (port : Fin 2) (first : Word) (count : Word)
  /-- TMAP_READ (R209). -/
  | tmapRead (port : Fin 2) (first : Word) (count : Byte)
  /-- FABRIC_ASSIGN (R264). -/
  | fabricAssign (port : Fin 2) (a : AssignArgs)
  /-- LINK_DISABLE (R253). -/
  | linkDisable (port : Fin 2) (link : Byte)
  /-- LINK_ENABLE (R256). -/
  | linkEnable (port : Fin 2) (link : Byte)
  /-- BLADE_RELEASE (R243). -/
  | bladeRelease (port : Fin 2) (blade : Byte)
  /-- FAILURE_RATE (R309). -/
  | failureRate (port : Fin 2) (c : Byte) (mtbf : Word)
  /-- CORD_SETUP (R277). -/
  | cordSetup (port : Fin 2) (cord : BitVec 16) (ent : BitVec 256)
  /-- CORD_READ (R276). -/
  | cordRead (port : Fin 2) (cord : BitVec 16)
  /-- RANK_REPLACE (R312). -/
  | rankReplace (port : Fin 2) (a : ReplaceArgs)
  /-- EMBER_SETUP (R306). -/
  | emberSetup (port : Fin 2) (a : EmberArgs)
  /-- DIGEST_SETUP (R316). -/
  | digestSetup (port : Fin 2) (a : DigestArgs)
  /-- REFILL_DONE (R305). -/
  | refillDone (port : Fin 2) (c : Byte) (page : Word)
  /-- FORCE_COPY (R310). -/
  | forceCopy (port : Fin 2) (c : Byte)
  /-- LOCKSTEP_START (R331). -/
  | lockstepStart (port : Fin 2) (a : LockArgs)
  /-- LOCKSTEP_STOP (R335). -/
  | lockstepStop (port : Fin 2)
  /-- LOAD (R132). -/
  | load (c : Fin 256) (tag : Word) (img : Image)
  /-- STEP (R459). -/
  | step (c : Fin 256) (tag : Word) (n : Word) (mb : BitVec 16) (seed : DWord)
  /-- COMPARISON_WINDOW_COMPLETE (R333). -/
  | comparisonWindowComplete (win : Nat)
  /-- LOCKSTEP_RECORD (R334). -/
  | lockstepRecord (x : LsRec)
  /-- LOCKSTEP_LAG_EXCEEDED (R335). -/
  | lockstepLagExceeded
  /-- LOCKSTEP_RECORD_TIMEOUT (R335). -/
  | lockstepRecordTimeout
  /-- WATCHDOG_RESTART (R406). -/
  | watchdogRestart (core : Fin 4) (cause : Fin 3)
  /-- KILN_RESTART_RECOVERY (R409). -/
  | kilnRestartRecovery (keepOk : Bool)
  /-- TELEMETRY_SAMPLE (R397). -/
  | telemetrySample
  /-- DECIMATION_UPDATE (R397). -/
  | decimationUpdate (x : LoadRead)
  /-- STAGE_0 (R412). -/
  | stage0 (x : StageOut)
  /-- STAGE_1 (R412). -/
  | stage1 (x : StageOut) (puf : PufRead) (serials : List Nat)
  /-- STAGE_2 (R347). -/
  | stage2 (x : StageOut) (bad : List (Nat × Nat × Nat)) (mtemp : Int)
  /-- STAGE_3 (R416). -/
  | stage3 (x : StageOut) (c : Calib)
  /-- STAGE_3_TIME_WAIT (R423). -/
  | stage3TimeWait
  /-- NTP_ANSWER (R423). -/
  | ntpAnswer (utc : Nat)
  /-- STAGE_4 (R417). -/
  | stage4 (x : StageOut) (found : List (List Defect))
  /-- STAGE_5 (R418). -/
  | stage5 (x : StageOut) (r : MemTrain)
  /-- STAGE_6 (R419). -/
  | stage6 (x : StageOut) (r : MemTrain)
  /-- STAGE_7 (R420). -/
  | stage7 (x : StageOut)
  /-- STAGE_7_TIMEOUT (R420). -/
  | stage7Timeout (ms : Nat)
  /-- STAGE_8 (R421). -/
  | stage8 (x : StageOut)
  /-- ROM_SELFTEST_TIMEOUT (R415). -/
  | romSelftestTimeout
  /-- SERVICE_BANK_TIMEOUT (R415). -/
  | serviceBankTimeout
  /-- IMAGE_COPY_DONE (R450). -/
  | imageCopyDone
  /-- TRANSFER_CONNECT (R443). -/
  | transferConnect
  /-- HELLO (R443). -/
  | hello (version : Word)
  /-- HEADER (R444). -/
  | header (bytes : List Byte) (sigOk : Bool)
  /-- CHUNK (R445). -/
  | chunk (off : DWord) (bytes : List Byte)
  /-- FINISH (R445). -/
  | finish
  /-- TRANSFER_ABORT (R445). -/
  | transferAbort
  /-- TRANSFER_TIMEOUT (R445). -/
  | transferTimeout
  /-- ACTIVATION_TIME (R447). -/
  | activationTime
  /-- ACTIVATION_STARTED (R447). -/
  | activationStarted
  /-- ACTIVATION_CANCELLED (R448). -/
  | activationCancelled
  /-- GET_VERSION (R437). -/
  | getVersion (port : Fin 2)
  /-- GET_CAPABILITIES (R437). -/
  | getCapabilities (port : Fin 2)
  /-- NEGOTIATE_ALGORITHMS (R437). -/
  | negotiateAlgorithms (port : Fin 2) (p384 : Bool) (sha384 : Bool)
  /-- GET_DIGESTS (R437). -/
  | getDigests (port : Fin 2)
  /-- GET_CERTIFICATE (R437). -/
  | getCertificate (port : Fin 2) (slot : Nat) (off : Nat) (len : Nat)
  /-- CHALLENGE (R437). -/
  | challenge (port : Fin 2) (slot : Nat) (nonce : List Byte)
  /-- GET_MEASUREMENTS (R438). -/
  | getMeasurements (port : Fin 2) (idx : Nat) (sign : Bool) (nonce : List Byte)
  /-- SPDM_UNSUPPORTED (R437). -/
  | spdmUnsupported (port : Fin 2) (code : Byte)
  /-- FRU_READ (R472). -/
  | fruRead (off : BitVec 16) (pec : Bool)
  /-- TELEMETRY (R472). -/
  | telemetry (pec : Bool)
  /-- CAP_SET (R472). -/
  | capSet (w : BitVec 16) (pec : Bool)
  /-- CAP_STATUS (R472). -/
  | capStatus (pec : Bool)
  /-- FLIT_BOUNDARY (R248). -/
  | flitBoundary (l : Fin 96)
  /-- LANE_SYNC_LOST (R251). -/
  | laneSyncLost (l : Fin 96)
  /-- IDENT_RECORD_SEND (R264). -/
  | identRecordSend (l : Fin 96)
  /-- LOCKSTEP_PARTNER_TIMEOUT (R331). -/
  | lockstepPartnerTimeout
  /-- FORCE_OFF_DEASSERT (R470). -/
  | forceOffDeassert
  /-- VIN_IN_RANGE (R343). -/
  | vinInRange (mv : Nat)
  /-- BLADE_SEAT_TIMEOUT (R474). -/
  | bladeSeatTimeout (b : Fin 6)
  deriving DecidableEq, Repr

end Sys2Proof
end

