-- ==== Sys2Proof/Machine/Rng.lean ====
section
/-! DEFINITION. The counter RNG (spec/12_determinism.md R328): a stateless function of a 64-bit seed and the 128-bit
counter of R61. -/

namespace Sys2Proof.Machine

/-- The four words of the generator's state inside one evaluation. -/
structure RngWords where
  a : Word
  b : Word
  c : Word
  d : Word
  deriving DecidableEq, Repr

/-- R328, quarter. -/
def rngQuarter (x : RngWords) : RngWords :=
  let a1 := x.a + x.b
  let d1 := (x.d ^^^ a1).rotateLeft 16
  let c1 := x.c + d1
  let b1 := (x.b ^^^ c1).rotateLeft 12
  let a2 := a1 + b1
  let d2 := (d1 ^^^ a2).rotateLeft 8
  let c2 := c1 + d2
  let b2 := (b1 ^^^ c2).rotateLeft 4
  ⟨a2, b2, c2, d2⟩

/-- R328, one round: the key words are added, the round number to x3, then quarter. -/
def rngRound (k : RngWords) (i : Nat) (x : RngWords) : RngWords :=
  rngQuarter ⟨x.a + k.a, x.b + k.b, x.c + k.c, x.d + k.d + BitVec.ofNat 32 i⟩

/-- R328, the key words of a seed. -/
def rngKey (seed : DWord) : RngWords :=
  let k0 : Word := seed.extractLsb' 0 32
  let k1 : Word := seed.extractLsb' 32 32
  ⟨k0, k1, k0 ^^^ 0x9E3779B9#32, k1 ^^^ 0x7F4A7C15#32⟩

/-- R328, the counter RNG. elem is the 48-bit element index, mb the 16-bit micro-batch. -/
def rng (seed : DWord) (stream step : Word) (mb : BitVec 16) (elem : Nat) : DWord :=
  let k := rngKey seed
  let e := BitVec.ofNat 48 elem
  let x0 : RngWords := ⟨e.extractLsb' 0 32, mb ++ (e.extractLsb' 32 16 : BitVec 16), step, stream⟩
  let x := rngRound k 3 (rngRound k 2 (rngRound k 1 (rngRound k 0 x0)))
  (x.b ^^^ x.d) ++ (x.a ^^^ x.c)

/-- The 32-bit draw of stochastic rounding (R61): bits [31:0]. -/
def rngDraw (seed : DWord) (stream step : Word) (mb : BitVec 16) (elem : Nat) : Nat :=
  ((rng seed stream step mb elem).extractLsb' 0 32).toNat

end Sys2Proof.Machine
end

