-- ==== Sys2Proof/Config.lean ====
section
/-! DEFINITION. What an implementation fixes and the spec leaves open: constants without a body, so that no proof can
rest on a value of them. -/

namespace Sys2Proof

/-- R121: which of the two neighbouring FP32 values inside the 1 ulp bound a vector function gives (operation number,
operand bits). -/
opaque Config.fnPick : Nat → Nat → Bool

/-- R121: where inside its absolute error bound VLOG2 lies for an operand in [0.5, 2). -/
opaque Config.fnOffset : Nat → Nat

/-- R481: whether a byte of a loose slot keeps what it held when another is written to it (tile, count of such writes of the tile). -/
opaque Config.keepByte : Nat → Nat → Bool

/-- A fresh free value: applied to the counter State.freeCtr. -/
opaque Config.freeValue : Nat → Nat

/-- SHA-384 (named, not given, by spec/17_identity_and_update.md): 48 bytes of a message. -/
opaque Config.sha384 : List Byte → List Byte

/-- ECDSA P-384 signing with the device identity key (R433, R437): 96 bytes, from the key's number and a message. -/
opaque Config.ecdsaSign : Nat → List Byte → List Byte

/-- R438, R439: the bytes of the identity record (UNIT_ID, stepping, public key), by UNIT_ID and stepping code. -/
opaque Config.identRecord : DWord → Nat → List Byte

/-- R438, R439: the bytes of the grade record, by grade. -/
opaque Config.gradeRecord : Nat → List Byte

/-- R472: the bytes of the FRU area, whose contents are a unit's own. -/
opaque Config.fruArea : Nat → Byte

/-- R369, PCIe: the configuration space of a port, by dword offset, where the spec gives no value (its vendor IDs, capabilities and bases). -/
opaque Config.cfgSpace : Nat → Nat

/-- R437: bytes of the certificate chain, by position (spec/17_identity_and_update.md R436 names the three certificates only). -/
opaque Config.chain : List Byte

/-- R433, R439: the bytes of the helper data record, which differ from die to die. -/
opaque Config.helperData : List Byte

/-- R5: modules of both grades take part in the job of a cord. -/
opaque Config.mixedGrades : Nat → Bool

/-- R192: the warning level of a region that its replica-path results give (region; results by step and voltage). -/
opaque Config.warnLevel : Nat → List (Nat × Nat) → Nat

/-- R245, R267: the 256 payload bytes of a control flit whose packet the spec gives no layout (COMPL, BARRIER, LINKSTATE, TIME, FENCE). -/
opaque Config.ctlPayload : Packet → BitVec 2048

/-- R244, R246: the frame that a receiver reads where the symbols it decodes are those of another codeword with a matching CRC. -/
opaque Config.misread : List Nat → Option LFrame

/-- R438: the 256 KiB boot ROM, of which the spec gives no contents. -/
opaque Config.bootRom : List Byte

end Sys2Proof
end

