-- ==== Sys2Proof/Machine/Bits.lean ====
section
/-! DEFINITION. Bit-field, sign-extension and byte-order helpers shared by every family. -/

namespace Sys2Proof.Machine

/-- Bits [lo + n − 1 : lo] of a number. -/
def bits (x lo n : Nat) : Nat := (x / 2 ^ lo) % 2 ^ n

/-- One bit of a number. -/
def bitAt (x i : Nat) : Bool := x.testBit i

/-- The number of a Bool. -/
def b2n (b : Bool) : Nat := if b then 1 else 0

/-- The signed value of the low n bits of x. -/
def signedOf (n x : Nat) : Int :=
  let y := x % 2 ^ n
  if 2 * y < 2 ^ n then (y : Int) else (y : Int) - (2 ^ n : Nat)

/-- The two's-complement code of an integer in n bits. -/
def wrapInt (n : Nat) (i : Int) : Nat := (i % ((2 ^ n : Nat) : Int)).toNat

/-- Adding with a hold at the largest 32-bit value (R66 and the error counters). -/
def satAdd32 (x : Word) (n : Nat) : Word :=
  if x.toNat + n < 2 ^ 32 then BitVec.ofNat 32 (x.toNat + n) else BitVec.ofNat 32 (2 ^ 32 - 1)

/-- Little-endian bytes to a number (R42). -/
def leNat : List Byte → Nat
  | [] => 0
  | b :: bs => b.toNat + 256 * leNat bs

/-- A number to n little-endian bytes (R42). -/
def leBytes : Nat → Nat → List Byte
  | 0, _ => []
  | n + 1, x => BitVec.ofNat 8 x :: leBytes n (x / 256)

/-- The n-th element of a list of numbers, 0 past its end. -/
def nth0 (l : List Nat) (i : Nat) : Nat := l.getD i 0

/-- The numbers below n whose bit is set in x, rising. -/
def setBits (n x : Nat) : List Nat := (List.range n).filter (fun i => x.testBit i)

/-- The number of set bits among the low n bits. -/
def popCount (n x : Nat) : Nat := (setBits n x).length

/-- Inserting into a list of numbers kept sorted without repeats. -/
def setInsert (l : List Nat) (a : Nat) : List Nat :=
  match l with
  | [] => [a]
  | b :: bs => if a < b then a :: b :: bs else if a = b then b :: bs else b :: setInsert bs a

/-- Folding a function over the numbers 0 .. n − 1. -/
def foldRange {σ : Type} (n : Nat) (f : σ → Nat → σ) (s : σ) : σ := (List.range n).foldl f s

/-- Replacing the element of a list at a position. -/
def listSet {α : Type} (l : List α) (i : Nat) (v : α) : List α := l.set i v

end Sys2Proof.Machine
end

