-- ==== Sys2Proof/Machine/NumFmt.lean ====
section
/-! DEFINITION. Number formats (spec/02_number_formats.md R41 to R64): decoding to the internal form, rounding,
encoding, quantisation and dequantisation of a block, the special values, the counters' events. -/

namespace Sys2Proof.Machine

/-- No event. -/
def evNone : NumEv := ⟨0, 0, 0⟩

/-- The sum of two sets of events (R68). -/
def evAdd (a b : NumEv) : NumEv := ⟨a.sat + b.sat, a.flush + b.flush, a.nan + b.nan⟩

/-- R41: the format of a 4-bit code; none for a reserved code. -/
def fmtOfCode (c : Nat) : Option Fmt :=
  match c with
  | 0 => some .e2m1
  | 1 => some .e2m3
  | 2 => some .e3m2
  | 3 => some .e4m3
  | 4 => some .e5m2
  | 5 => some .int8
  | 8 => some .bf16
  | 9 => some .fp16
  | 10 => some .fp32
  | _ => none

/-- R41: the 4-bit code of a format. -/
def fmtCode (f : Fmt) : Nat :=
  match f with
  | .e2m1 => 0 | .e2m3 => 1 | .e3m2 => 2 | .e4m3 => 3 | .e5m2 => 4 | .int8 => 5
  | .bf16 => 8 | .fp16 => 9 | .fp32 => 10

/-- R41: an MX format. -/
def fmtIsMx (f : Fmt) : Bool :=
  match f with
  | .bf16 => false | .fp16 => false | .fp32 => false | _ => true

/-- R41: element width in bits. -/
def fmtWidth (f : Fmt) : Nat :=
  match f with
  | .e2m1 => 4 | .e2m3 => 6 | .e3m2 => 6 | .e4m3 => 8 | .e5m2 => 8 | .int8 => 8
  | .bf16 => 16 | .fp16 => 16 | .fp32 => 32

/-- R43, R47: stored fraction (mantissa) bits; INT8 has none. -/
def fmtFrac (f : Fmt) : Nat :=
  match f with
  | .e2m1 => 1 | .e2m3 => 3 | .e3m2 => 2 | .e4m3 => 3 | .e5m2 => 2 | .int8 => 0
  | .bf16 => 7 | .fp16 => 10 | .fp32 => 23

/-- R43, R47: exponent field bits; INT8 has none. -/
def fmtExpBits (f : Fmt) : Nat :=
  match f with
  | .e2m1 => 2 | .e2m3 => 2 | .e3m2 => 3 | .e4m3 => 4 | .e5m2 => 5 | .int8 => 0
  | .bf16 => 8 | .fp16 => 5 | .fp32 => 8

/-- R43, R47: the exponent bias; for INT8 the value is code × 2^−6. -/
def fmtBias (f : Fmt) : Int :=
  match f with
  | .e2m1 => 1 | .e2m3 => 1 | .e3m2 => 3 | .e4m3 => 7 | .e5m2 => 15 | .int8 => 0
  | .bf16 => 127 | .fp16 => 15 | .fp32 => 127

/-- R47: emax of an MX element type (and, for the long formats, the largest unbiased exponent). -/
def fmtEmax (f : Fmt) : Int :=
  match f with
  | .e2m1 => 2 | .e2m3 => 2 | .e3m2 => 4 | .e4m3 => 8 | .e5m2 => 15 | .int8 => 0
  | .bf16 => 127 | .fp16 => 15 | .fp32 => 127

/-- R55: digits streamed per element. -/
def fmtDigits (f : Fmt) : Nat :=
  match f with
  | .e2m1 => 1
  | .e2m3 => 2 | .e3m2 => 2 | .e4m3 => 2 | .e5m2 => 2
  | .int8 => 4 | .bf16 => 4
  | .fp16 => 6
  | .fp32 => 12

/-- R55: passes of a stationary operand. -/
def fmtPasses (f : Fmt) : Nat :=
  match f with
  | .fp16 => 2 | .fp32 => 3 | _ => 1

/-- R42: bytes of n elements of a format. -/
def fmtBytes (f : Fmt) (n : Nat) : Nat := (n * fmtWidth f + 7) / 8

/-- R42: the code of element i in the bytes of a tensor, little-endian and packed. -/
def elemCode (f : Fmt) (bs : List Byte) (i : Nat) : Nat :=
  let lo := i * fmtWidth f
  bits (leNat ((bs.drop (lo / 8)).take 5)) (lo % 8) (fmtWidth f)

/-- R42: packing codes to bytes, little-endian. -/
def packCodes (f : Fmt) (cs : List Nat) : List Byte :=
  let total := cs.foldr (fun c acc => c % 2 ^ fmtWidth f + acc * 2 ^ fmtWidth f) 0
  leBytes (fmtBytes f cs.length) total

/-- A zero element of the internal form (R54). -/
def elemZero (sign : Bool) : Elem := ⟨sign, .finite, 0, 0⟩

/-- R54 with R43, R44, R48, R49, R50: decoding an element code under a scale byte (ignored by the long formats).
The Bool says that a subnormal long operand was replaced by zero. -/
def decodeElem (f : Fmt) (code scale : Nat) : Elem × Bool :=
  let m := fmtFrac f
  let eb := fmtExpBits f
  let s : Int := if fmtIsMx f then (scale : Int) - 127 else 0
  if fmtIsMx f && scale == 255 then (⟨false, .nan, 0, 0⟩, false)
  else match f with
  | .int8 =>
    let v := signedOf 8 code
    if v = 0 then (elemZero false, false)
    else (⟨decide (v < 0), .finite, -6 + s, v.natAbs⟩, false)
  | _ =>
    let frac := bits code 0 m
    let e := bits code m eb
    let sign := bitAt code (m + eb)
    let allOnes := e == 2 ^ eb - 1
    if !fmtIsMx f && allOnes then
      (⟨sign, if frac = 0 then .infinite else .nan, 0, 0⟩, false)
    else if f == .e5m2 && allOnes then (⟨sign, .nan, 0, 0⟩, false)
    else if f == .e4m3 && allOnes && frac == 7 then (⟨sign, .nan, 0, 0⟩, false)
    else if !fmtIsMx f && e == 0 then (elemZero sign, decide (frac ≠ 0))
    else
      let n := if e = 0 then frac else 2 ^ m + frac
      if n = 0 then (elemZero sign, false)
      else (⟨sign, .finite, max (e : Int) 1 - fmtBias f - m + s, n⟩, false)

/-- An exact value of a vector operation: finite (sign, magnitude × 2^exp), infinity or NaN. -/
inductive XVal where
  | fin (sign : Bool) (mag : Nat) (exp : Int)
  | inf (sign : Bool)
  | nan
  deriving DecidableEq, Repr

/-- The exact value of an element. -/
def xOfElem (e : Elem) : XVal :=
  match e.cls with
  | .finite => .fin e.sign e.n e.e
  | .infinite => .inf e.sign
  | .nan => .nan

/-- Reading a long-format operand (R43, R44): its value and the flush count. -/
def readLong (f : Fmt) (code : Nat) : XVal × Nat :=
  let d := decodeElem f code 127
  (xOfElem d.1, b2n d.2)

/-- Reading an FP32 operand. -/
def readF32 (w : Word) : XVal × Nat := readLong .fp32 w.toNat

/-- floor(log2) of mag × 2^exp, for mag > 0. -/
def floorLog2 (mag : Nat) (exp : Int) : Int := (Nat.log2 mag : Int) + exp

/-- Rounding mag × 2^exp to a multiple of 2^ue (R58, R60): the multiple. r is the 32-bit draw. -/
def roundAt (rm : RMode) (r mag : Nat) (exp ue : Int) : Nat :=
  if ue ≤ exp then mag * 2 ^ (exp - ue).toNat
  else
    let k := (ue - exp).toNat
    let q := mag / 2 ^ k
    let rem := mag % 2 ^ k
    match rm with
    | .rne => if 2 * rem > 2 ^ k ∨ (2 * rem = 2 ^ k ∧ q % 2 = 1) then q + 1 else q
    | .rtz => q
    | .sr => if rem * 2 ^ 32 / 2 ^ k + r ≥ 2 ^ 32 then q + 1 else q

/-- The code of an infinity of a long format (R43). -/
def infCode (f : Fmt) (sign : Bool) : Nat :=
  (b2n sign * 2 ^ fmtExpBits f + (2 ^ fmtExpBits f - 1)) * 2 ^ fmtFrac f

/-- The canonical NaN of a long format (R46). -/
def nanCode (f : Fmt) : Nat := infCode f false + 2 ^ (fmtFrac f - 1)

/-- The code of a zero of a long format. -/
def zeroCode (f : Fmt) (sign : Bool) : Nat := b2n sign * 2 ^ (fmtExpBits f + fmtFrac f)

/-- R45, R58 to R60: rounding a finite exact value to a long format: the code and the counter events. -/
def roundFin (f : Fmt) (rm : RMode) (r : Nat) (sign : Bool) (mag : Nat) (exp : Int) : Nat × NumEv :=
  if mag = 0 then (zeroCode f sign, evNone)
  else
    let m := fmtFrac f
    let ue := floorLog2 mag exp - m
    let n := roundAt rm r mag exp ue
    let carry := n == 2 ^ (m + 1)
    let e : Int := ue + m + (if carry then 1 else 0)
    let sig := if carry then 2 ^ m else n
    if e > fmtEmax f then (infCode f sign, ⟨1, 0, 0⟩)
    else if e < 1 - fmtBias f then (zeroCode f sign, ⟨0, 1, 0⟩)
    else ((b2n sign * 2 ^ fmtExpBits f + (e + fmtBias f).toNat) * 2 ^ m + (sig - 2 ^ m), evNone)

/-- Writing an exact value to a long format. -/
def writeLong (f : Fmt) (rm : RMode) (r : Nat) (x : XVal) : Nat × NumEv :=
  match x with
  | .fin s mag e => roundFin f rm r s mag e
  | .inf s => (infCode f s, evNone)
  | .nan => (nanCode f, evNone)

/-- Negation of an exact value. -/
def xNeg (x : XVal) : XVal :=
  match x with
  | .fin s m e => .fin (!s) m e
  | .inf s => .inf (!s)
  | .nan => .nan

/-- The signed integer of a finite value in units of 2^e, for e at most its exponent. -/
def xInt (s : Bool) (mag : Nat) (exp e : Int) : Int :=
  let v : Int := ((mag * 2 ^ (exp - e).toNat : Nat) : Int)
  if s then -v else v

/-- R62: the exact sum; the Nat is the number of NaNs created. -/
def xAdd (a b : XVal) : XVal × Nat :=
  match a, b with
  | .nan, _ => (.nan, 0)
  | _, .nan => (.nan, 0)
  | .inf s, .inf t => if s = t then (.inf s, 0) else (.nan, 1)
  | .inf s, .fin _ _ _ => (.inf s, 0)
  | .fin _ _ _, .inf t => (.inf t, 0)
  | .fin s m e, .fin t n f =>
    let lo := min e f
    let v := xInt s m e lo + xInt t n f lo
    if v = 0 then (.fin (m == 0 && n == 0 && s && t) 0 0, 0)
    else (.fin (decide (v < 0)) v.natAbs lo, 0)

/-- R62: the exact product; the Nat is the number of NaNs created. -/
def xMul (a b : XVal) : XVal × Nat :=
  match a, b with
  | .nan, _ => (.nan, 0)
  | _, .nan => (.nan, 0)
  | .inf s, .inf t => (.inf (s != t), 0)
  | .inf s, .fin t n _ => if n = 0 then (.nan, 1) else (.inf (s != t), 0)
  | .fin s m _, .inf t => if m = 0 then (.nan, 1) else (.inf (s != t), 0)
  | .fin s m e, .fin t n f => (.fin (s != t) (m * n) (e + f), 0)

/-- The order of two finite or infinite exact values: less than. -/
def xLt (a b : XVal) : Bool :=
  match a, b with
  | .nan, _ => false
  | _, .nan => false
  | .inf s, .inf t => s && !t
  | .inf s, .fin _ _ _ => s
  | .fin _ _ _, .inf t => !t
  | .fin s m e, .fin t n f =>
    let lo := min e f
    decide (xInt s m e lo < xInt t n f lo)

/-- R48: the largest magnitude of an MX element type as n × 2^e. -/
def mxLargest (f : Fmt) : Nat × Int :=
  match f with
  | .e4m3 => (14, 5)
  | .e5m2 => (7, 13)
  | .e3m2 => (7, 2)
  | .e2m3 => (15, -1)
  | .e2m1 => (3, 1)
  | .int8 => (127, -6)
  | _ => (0, 0)

/-- R51: one element of a quantised block: the code, and whether it was flushed. The value is mag × 2^exp, already
divided by the scale. -/
def quantElem (f : Fmt) (rm : RMode) (r : Nat) (sign : Bool) (mag : Nat) (exp : Int) : Nat × Bool :=
  let signBit := 2 ^ (fmtWidth f - 1)
  if mag = 0 then (if f = .int8 then 0 else b2n sign * signBit, false)
  else match f with
  | .int8 =>
    let n := min (roundAt rm r mag exp (-6)) 127
    (wrapInt 8 (if sign then -(n : Int) else (n : Int)), n == 0)
  | _ =>
    let m := fmtFrac f
    let emin : Int := 1 - fmtBias f
    let ue : Int := max (floorLog2 mag exp - m) (emin - m)
    let n := roundAt rm r mag exp ue
    if n = 0 then (b2n sign * signBit, true)
    else
      let carry := n == 2 ^ (m + 1)
      let n1 := if carry then 2 ^ m else n
      let e1 : Int := if carry then ue + 1 else ue
      let lg := mxLargest f
      let lo := min e1 lg.2
      let above : Bool := decide (n1 * 2 ^ (e1 - lo).toNat > lg.1 * 2 ^ (lg.2 - lo).toNat)
      let n2 := if above then lg.1 else n1
      let e2 : Int := if above then fmtEmax f - m else e1
      if n2 < 2 ^ m then (b2n sign * signBit + n2, false)
      else (b2n sign * signBit + (e2 + m + fmtBias f).toNat * 2 ^ m + (n2 - 2 ^ m), false)

/-- A quantised block: the scale byte, the 32 element codes and the counter events. -/
structure QBlock where
  scale : Nat
  codes : List Nat
  ev    : NumEv
  deriving DecidableEq, Repr

/-- R51, R52: quantising a block of values after the input flush of R44. draw i is the draw of element i. -/
def quantBlock (f : Fmt) (rm : RMode) (draw : Nat → Nat) (vs : List XVal) : QBlock :=
  let special := vs.any (fun v => match v with | .fin _ _ _ => false | _ => true)
  let isNan := vs.any (fun v => v == .nan)
  if special then ⟨255, vs.map (fun _ => 0), ⟨0, 0, b2n (!isNan)⟩⟩
  else
    let lg := vs.filterMap (fun v =>
      match v with
      | .fin _ mag e => if mag = 0 then none else some (floorLog2 mag e)
      | _ => none)
    match lg with
    | [] =>
      ⟨127, vs.map (fun v => match v with | .fin s _ _ => (quantElem f rm 0 s 0 0).1 | _ => 0), evNone⟩
    | l :: ls =>
      let e : Int := max (ls.foldl max l - fmtEmax f) (-127)
      let qs := vs.zipIdx.map (fun p =>
        match p.1 with
        | .fin s mag x => quantElem f rm (draw p.2) s mag (x - e)
        | _ => (0, false))
      ⟨(e + 127).toNat, qs.map (·.1), ⟨0, (qs.filter (·.2)).length, 0⟩⟩

end Sys2Proof.Machine
end

