-- ==== Sys2Proof/Machine/SMap.lean ====
section
/-! DEFINITION. The named operations over a sparse map: read with a default, write in canonical form, and the
canonical form itself. -/

namespace Sys2Proof.Machine

/-- Reading a key: the listed value, or the default where the key is not listed. -/
def smGet {α : Type} (d : α) : SMap α → Nat → α
  | [], _ => d
  | (k, v) :: m, a => if k = a then v else smGet d m a

/-- The map without the key. -/
def smErase {α : Type} (m : SMap α) (a : Nat) : SMap α := m.filter (fun p => p.1 != a)

/-- Inserting a pair before the first larger key. -/
def smInsert {α : Type} : SMap α → Nat → α → SMap α
  | [], a, v => [(a, v)]
  | (k, w) :: m, a, v => if a < k then (a, v) :: (k, w) :: m else (k, w) :: smInsert m a v

/-- Writing a key: writing the default removes the pair, so equal contents are equal data. -/
def smSet {α : Type} [DecidableEq α] (d : α) (m : SMap α) (a : Nat) (v : α) : SMap α :=
  if v = d then smErase m a else smInsert (smErase m a) a v

/-- Changing the value of one key. -/
def smUpd {α : Type} [DecidableEq α] (d : α) (m : SMap α) (a : Nat) (f : α → α) : SMap α :=
  smSet d m a (f (smGet d m a))

/-- The keys rise strictly, from above a lower bound. -/
def smSorted {α : Type} : Nat → SMap α → Bool
  | _, [] => true
  | lo, (k, _) :: m => decide (lo ≤ k) && smSorted (k + 1) m

/-- The canonical form of a sparse map: keys strictly rising, no pair holding the default. -/
def smWf {α : Type} [DecidableEq α] (d : α) (m : SMap α) : Bool :=
  smSorted 0 m && m.all (fun p => decide (p.2 ≠ d))

/-- Writing a list of values at consecutive keys. -/
def smSetList {α : Type} [DecidableEq α] (d : α) (m : SMap α) (a : Nat) : List α → SMap α
  | [] => m
  | v :: vs => smSetList d (smSet d m a v) (a + 1) vs

/-- Reading n consecutive keys. -/
def smGetList {α : Type} (d : α) (m : SMap α) (a n : Nat) : List α :=
  (List.range n).map (fun i => smGet d m (a + i))

end Sys2Proof.Machine
end

