-- ==== Sys2Proof/Machine/TileState.lean ====
section
/-! DEFINITION. The state of one tile (spec/03_array_arithmetic.md to spec/07_clocks_and_logical_time.md): sequencer,
array, vector unit, scratchpad, windows, mesh buffers, clocks. Plain data. -/

namespace Sys2Proof.Machine

/-- NANF of a long accumulator (R63, R82). -/
inductive NanFlag where
  | none | propagated | created
  deriving DecidableEq, Repr

/-- A long accumulator (R82). -/
structure LAcc where
  sum    : BitVec 160
  pinf   : Bool
  ninf   : Bool
  nanf   : NanFlag
  anchor : Int
  aset   : Bool
  count  : Nat
  deriving DecidableEq, Repr

/-- The cells of one problem (R78): first row, rows, first column, columns, and whether it adds into accumulators
64 to 127 (the south half of a split array); feeders is the mask of the feeders that drive it. -/
structure Problem where
  row0    : Nat
  rows    : Nat
  col0    : Nat
  cols    : Nat
  south   : Bool
  feeders : Nat
  deriving DecidableEq, Repr

/-- A STREAM in progress (R81, R115): issue cycle, geometry, cycles per product and digits, the vectors read so far
(m, elements) and the weights it uses from its first digit on. -/
structure StreamOp where
  t      : Nat
  prob   : Problem
  fmt    : Fmt
  anchor : Int
  acc    : Nat
  count  : Nat
  passes : Nat
  ebase  : Nat
  sbase  : Nat
  swap   : Bool
  bytes  : SMap (List Byte)
  vecs   : SMap (List Elem)
  wts    : Option (SMap Elem)
  deriving DecidableEq, Repr

/-- A WLOAD in progress (R74, R114), with the bytes read so far. -/
structure LoadOp where
  t      : Nat
  fmt    : Fmt
  col0   : Nat
  ncol   : Nat
  ebase  : Nat
  sbase  : Nat
  ebytes : List Byte
  sbytes : List Byte
  deriving DecidableEq, Repr

/-- A DRAIN in progress (R92, R116); next is the next long accumulator of the range to be read. -/
structure DrainOp where
  t      : Nat
  fmt    : Fmt
  acc0   : Nat
  nacc   : Nat
  col0   : Nat
  ncol   : Nat
  rmode  : RMode
  stream : Word
  clr    : Bool
  dbase  : Nat
  ebase  : Nat
  q      : Nat
  next   : Nat
  deriving DecidableEq, Repr

/-- The array of a tile: weight registers by 128 × column + row, the active
registers whose parity bit does not match (R96), pass counts by half and column as issued (R73), ARR_TWMAX,
ARR_CFG, the long accumulators by 128 × column + accumulator, ARR_FAULT, and the operations in progress. -/
structure ArrState where
  wAct    : SMap Elem
  wShadow : SMap Elem
  wBad    : List Nat
  pAct    : SMap Nat
  pShadow : SMap Nat
  twNone  : Bool
  twMax   : Int
  wclass  : Nat
  hsplit  : Bool
  pjoin   : Nat
  modeAt  : Option Nat
  acc     : SMap LAcc
  fResid  : Bool
  fAnchor : Bool
  fLimit  : Bool
  fMode   : Bool
  facc    : Nat
  rcol    : Nat
  streams : List StreamOp
  loads   : List LoadOp
  drains  : List DrainOp
  deriving DecidableEq, Repr

/-- One level of the loop stack (R105). -/
structure LoopLv where
  start : Nat
  stop  : Nat
  left  : Nat
  deriving DecidableEq, Repr

/-- An address register (R105). -/
structure AdReg where
  addr : BitVec 22
  inc  : BitVec 16
  deriving DecidableEq, Repr

/-- A register that an operation writes in a later cycle (R103). -/
inductive RegName where
  | sc (n : Nat) | ad (n : Nat) | v (n : Nat)
  deriving DecidableEq, Repr

/-- A slot tag: state and fill count (R144). -/
structure SlotTag where
  st   : TagSt
  fill : BitVec 7
  deriving DecidableEq, Repr

/-- A tag change that the inbound path or a mover causes (R146, R218): a slot filled, an outbound transfer sent, one refused. -/
inductive TagEv where
  | filled | sent | refused
  deriving DecidableEq, Repr

/-- A window (R150): open, and its descriptor. -/
structure Window where
  isOpen : Bool
  basew  : Nat
  lastw  : Nat
  tagged : Bool
  fillw  : Nat
  tile   : Bool
  mover  : Bool
  cord   : Bool
  cordNo : Nat
  cmask  : Nat
  deriving DecidableEq, Repr

/-- A change that takes effect at the start of a known logical cycle. -/
inductive Due where
  | sc (n : Nat) (v : Word)
  | ad (n : Nat) (r : AdReg)
  | v (n : Nat) (lanes : Vector Word 64)
  | digClr
  | digAdd (x : DWord)
  | mode (hsplit : Bool) (pjoin : Nat)
  | own (mask port : Nat)
  | tag (slot : Nat) (st : TagSt)
  | mtag (slot : Nat) (st : TagSt)
  | wopen (win : Nat) (w : Window)
  | wclose (win : Nat)
  deriving DecidableEq, Repr

/-- A transfer on the vector port, due in a known cycle (R126). -/
inductive VPort where
  | load (v : Nat) (fmt : Fmt) (addr : Nat)
  | dequant (v : Nat) (fmt : Fmt) (ea sa : Nat)
  | scan (v : Nat) (fmt : Fmt) (ea sa : Nat) (fin : Bool)
  | store (addr : Nat) (data : List Byte)
  | store2 (addr : Nat) (data : List Byte) (sa : Nat) (scales : List Byte)
  deriving DecidableEq, Repr

/-- A transfer on the outbound path, due in a known cycle (R127, R128). -/
inductive OutOp where
  | word (addr : Nat) (hdr : Option InHdr)
  | request (d : MDesc)
  | pld (addr entry : Nat) (kind : Bool) (fpc : Nat)
  deriving DecidableEq, Repr

/-- An inbound write in progress (R154): the header's word count left, the next byte address, the accepting
descriptor's TAGGED and FILLW, the port it comes from, and whether it was refused. -/
structure InWrite where
  left    : Nat
  addr    : Nat
  tagged  : Bool
  fillw   : Nat
  port    : Nat
  refused : Bool
  src     : SrcKind
  sender  : Nat
  deriving DecidableEq, Repr

/-- What a tile tells Kiln (R170). -/
inductive Notice where
  | done | event (code count : Nat) | fault (code slot fpc : Nat) | stall | parity (path bits word : Nat) | meshParity (port : Nat) (lg : Nat) | residue (col : Nat) | nack (status : Nat)
  deriving DecidableEq, Repr

/-- The running state of a tile (R134 TILE_STATUS.STATE; DONE is computed from doneIss). -/
inductive TileSt where
  | idle | run | fault
  deriving DecidableEq, Repr

/-- A beat token (R194, R200): the beat plus one (0 is beat −1) and the HALTED mark. -/
structure BeatTok where
  beat1  : Nat
  halted : Bool
  deriving DecidableEq, Repr

/-- R481: the slots of the outstanding outbound MREQs; the slots whose tag the program changed before their own MREQ completed; and,
the model's own, the count and the tile number of the free choices among the bytes written to these. -/
structure Loose where
  sent  : List Nat
  slots : List Nat
  count : Nat
  tile  : Nat
  deriving DecidableEq, Repr

set_option maxRecDepth 4096 in
/-- The state of one tile. -/
structure Tile where
  -- placement (R40, R184, R80)
  width    : Nat
  shifted  : Bool
  pcol     : Nat
  bypass   : List Nat
  physOk   : Bool
  meshMode : Nat
  part     : Nat
  head     : Bool
  gdly     : Nat
  rper     : Nat
  -- sequencer (R100 to R112, R134)
  st       : TileSt
  doneIss  : Bool
  held     : Bool
  fValid   : Bool
  fCode    : Nat
  fSlot    : Nat
  fPc      : Nat
  entry    : Nat
  step     : Word
  mb       : BitVec 16
  seed     : DWord
  bundles  : Word
  evCount  : Nat
  evCode   : BitVec 16
  pc       : Nat
  fetchAt  : Nat
  loops    : List LoopLv
  iq       : List IssueSlot
  sc       : Vector Word 16
  ad       : Vector AdReg 32
  v        : Vector (Vector Word 64) 16
  store    : SMap PEntry
  due      : List (Nat × Due)
  rclaim   : List (Nat × RegName)
  vclaim   : List Nat
  vport    : List (Nat × VPort)
  oclaim   : List Nat
  outq     : List (Nat × OutOp)
  evq      : List (Nat × NumEv)
  clr      : Nat
  pldAt    : List (Nat × Nat × Bool × Nat × List (BitVec 128))
  -- vector unit (R134)
  digKey   : DWord
  digAcc   : DWord
  scanNone : Bool
  scanMax  : Int
  -- counters (R66)
  numSat   : Word
  numFlush : Word
  numNan   : Word
  -- array
  arr      : ArrState
  -- scratchpad (R135 to R159, R233)
  spad     : SMap Byte
  badPar   : SMap Nat
  own      : BitVec 32
  tags     : SMap SlotTag
  wins     : SMap Window
  inw      : Option InWrite
  inUsed   : Bool
  banks    : Nat
  inTried  : Bool
  confQ    : List Nat
  soon     : List (Nat × TagEv)
  mreqOut  : Nat
  mreqIn   : List Nat
  loose    : Loose
  holdOn   : Bool
  holdStall : Bool
  holdCause : Nat
  holdSlot : Nat
  tagHold  : Nat
  inHold   : Nat
  inWait   : Bool
  inSlot   : Nat
  conflict : Word
  foreign  : Word
  perrOn   : Bool
  perrPath : Nat
  perrBits : Nat
  perrWord : Nat
  winMiss  : Word
  winDeny  : Word
  winRange : Word
  nackOn   : Bool
  nackSt   : Nat
  nackCnt  : Nat
  nackWin  : Nat
  slackMiss : Word
  nackIn   : List (Nat × Nat)
  -- mesh (R160 to R168, R184)
  routes   : SMap (BitVec 128)
  wire     : SMap (List Flit)
  inbuf    : SMap (List Flit)
  dq       : SMap (List MWord)
  rfOn     : Bool
  rfCause  : Nat
  rfPort   : Nat
  rfQ      : Nat
  rfIdx    : Nat
  mperrOn  : Bool
  mperrPort : Nat
  mperrCnt : Nat
  stopNext : Bool
  early    : List (Nat × Nat)
  notices  : List Notice
  regReads : List (Nat × Word)
  barOut   : SMap (List (Nat × Nat))
  barRel   : List (Nat × Nat)
  -- clocks (R189, R194, R202, R203)
  tokWire  : SMap (List BeatTok)
  tokLast  : SMap Nat
  tokHalt  : Nat
  noTok    : Bool
  haltReq  : Bool
  cyc      : Nat
  clkOn    : Bool
  phys     : DWord
  logical  : DWord
  hold     : DWord
  hBeat    : Word
  hLate    : Word
  hTag     : Word
  hConf    : Word
  sDroop   : Word
  sLimit   : Word
  doneAt   : Option Nat
  halted   : Bool
  beat     : Nat
  droopLow : Bool
  stretch  : Bool
  oscOn    : Bool
  hiLatch  : SMap Word
  deriving DecidableEq, Repr

end Sys2Proof.Machine
end

