-- ==== Sys2Proof/Machine/TileCore.lean ====
section
/-! DEFINITION. The tile's registers, stores and their named operations: defaults, scratchpad bytes and parity, slot
tags, ownership, register claims, and the changes that fall due at the start of a logical cycle
(spec/04_tile_engines.md R103, spec/05_scratchpad.md R146). -/

namespace Sys2Proof.Machine

/-- A cleared long accumulator (R90). -/
def laccZero : LAcc := ⟨0, false, false, .none, 0, false, 0⟩

/-- The default element of a weight register (R98: cleared). -/
def elem0 : Elem := elemZero false

/-- A zero entry of the program store: a bundle of NOPs (R102). -/
def pentry0 : PEntry := ⟨false, 0⟩

/-- The default tag (R144). -/
def tag0 : SlotTag := ⟨.full, 0⟩

/-- A closed window. -/
def window0 : Window := ⟨false, 0, 0, false, 0, false, false, false, 0, 0⟩

/-- The array after a reset (R98, R80, R77). -/
def arrInit : ArrState :=
  ⟨[], [], [], [], [], true, 0, 0, false, 0, none, [], false, false, false, false, 0, 0, [], [], []⟩

/-- A tile after a compute reset, before Stage 4 loads its placement: every field at the reset value of R134, R105, R139,
R144, R152, R159, R184, R202. -/
def tileInit : Tile where
  width := 128
  shifted := false
  pcol := 0
  bypass := []
  physOk := false
  meshMode := 0
  part := 0
  head := false
  gdly := 0
  rper := 0
  st := .idle
  doneIss := false
  held := false
  fValid := false
  fCode := 0
  fSlot := 0
  fPc := 0
  entry := 0
  step := 0
  mb := 0
  seed := 0
  bundles := 0
  evCount := 0
  evCode := 0
  pc := 0
  fetchAt := 0
  loops := []
  iq := []
  sc := Vector.replicate 16 0
  ad := Vector.replicate 32 ⟨0, 0⟩
  v := Vector.replicate 16 (Vector.replicate 64 0)
  store := []
  due := []
  rclaim := []
  vclaim := []
  vport := []
  oclaim := []
  outq := []
  evq := []
  clr := 0
  pldAt := []
  digKey := 0
  digAcc := 0
  scanNone := true
  scanMax := 0
  numSat := 0
  numFlush := 0
  numNan := 0
  arr := arrInit
  spad := []
  badPar := []
  own := 0xFFAA5500#32
  tags := []
  wins := []
  inw := none
  inUsed := false
  banks := 0
  inTried := false
  confQ := []
  soon := []
  mreqOut := 0
  mreqIn := []
  loose := ⟨[], [], 0, 0⟩
  holdOn := false
  holdStall := false
  holdCause := 0
  holdSlot := 0
  tagHold := 0
  inHold := 0
  inWait := false
  inSlot := 0
  conflict := 0
  foreign := 0
  perrOn := false
  perrPath := 0
  perrBits := 0
  perrWord := 0
  winMiss := 0
  winDeny := 0
  winRange := 0
  nackOn := false
  nackSt := 0
  nackCnt := 0
  nackWin := 0
  slackMiss := 0
  nackIn := []
  routes := []
  wire := []
  inbuf := []
  dq := []
  rfOn := false
  rfCause := 0
  rfPort := 0
  rfQ := 0
  rfIdx := 0
  mperrOn := false
  mperrPort := 0
  mperrCnt := 0
  stopNext := false
  early := []
  notices := []
  regReads := []
  barOut := []
  barRel := []
  tokWire := []
  tokLast := []
  tokHalt := 0
  noTok := false
  haltReq := false
  cyc := 0
  clkOn := false
  phys := 0
  logical := 0
  hold := 0
  hBeat := 0
  hLate := 0
  hTag := 0
  hConf := 0
  sDroop := 0
  sLimit := 0
  doneAt := none
  halted := false
  beat := 0
  droopLow := false
  stretch := false
  oscOn := false
  hiLatch := []

/-- Bytes of the scratchpad: 4 MiB (R135). -/
def spadSize : Nat := 2 ^ 22

/-- Reading n bytes of the scratchpad; addresses are modulo 2^22. -/
def spadRead (t : Tile) (a n : Nat) : List Byte :=
  (List.range n).map (fun i => smGet 0 t.spad ((a + i) % spadSize))

/-- R481: the byte lies in a slot whose tag the program has changed before the slot's own MREQ completed. -/
def isLoose (t : Tile) (a : Nat) : Bool := t.loose.slots.contains (a % spadSize / 4096)

/-- R481: what a byte holds once b has been written to it: b, or in a loose slot b or what it held before, a free choice. -/
def mixByte (t : Tile) (a : Nat) (b : Byte) : Byte :=
  if isLoose t a && Config.keepByte t.loose.tile t.loose.count then smGet 0 t.spad (a % spadSize) else b

/-- Writing bytes to the scratchpad: the data, and fresh parity in every word written (R157, R481). -/
def spadWrite (t : Tile) (a : Nat) : List Byte → Tile
  | [] => t
  | b :: bs =>
    spadWrite { t with spad := smSet 0 t.spad (a % spadSize) (mixByte t a b)
                       badPar := smErase t.badPar (a % spadSize / 64)
                       loose := if isLoose t a then { t.loose with count := t.loose.count + 1 } else t.loose } (a + 1) bs

/-- The slot tag of a slot. -/
def tagOf (t : Tile) (slot : Nat) : SlotTag := smGet tag0 t.tags slot

/-- Setting a slot tag. -/
def setTag (t : Tile) (slot : Nat) (g : SlotTag) : Tile := { t with tags := smSet tag0 t.tags slot g }

/-- The owner of a bank (R138, SPAD_OWN). -/
def bankOwner (t : Tile) (bank : Nat) : Nat := bits t.own.toNat (2 * bank) 2

/-- BOWN's change (R138): PORT becomes the owner of every bank in MASK. -/
def setOwners (own : BitVec 32) (mask port : Nat) : BitVec 32 :=
  (List.range 16).foldl (fun o b =>
    if mask.testBit b then (o &&& ~~~(3#32 <<< (2 * b))) ||| (BitVec.ofNat 32 port <<< (2 * b)) else o) own

/-- A window of the tile. -/
def winOf (t : Tile) (w : Nat) : Window := smGet window0 t.wins w

/-- The slots of a tagged window (R151: it covers whole slots). -/
def winSlots (w : Window) : List Nat :=
  (List.range (w.lastw / 64 + 1 - w.basew / 64)).map (fun i => w.basew / 64 + i)

/-- Emptying the slots of a list, as a tagged WOPEN does (R146, R481): a LENT slot is left alone. -/
def emptySlots (t : Tile) : List Nat → Tile
  | [] => t
  | s :: ss =>
    emptySlots (if (tagOf t s).st = .lent then t else setTag t s ⟨.empty, 0⟩) ss

/-- A tag change caused by the program (R146, R481): it applies in the states EMPTY and FULL only; LENT, the
effect of an outbound MREQ, applies from FULL. -/
def progTag (t : Tile) (slot : Nat) (st : TagSt) : Tile :=
  let g := tagOf t slot
  match st with
  | .lent => if g.st = .full then setTag t slot ⟨.lent, 0⟩ else t
  | .empty => if g.st = .lent then t else setTag t slot ⟨.empty, 0⟩
  | .full => if g.st = .lent then t else setTag t slot ⟨.full, 0⟩

/-- R481: among the slots listed, those with more than the named number of own MREQs outstanding whose tag differs between the two
tiles become loose. -/
def loosen (own : Nat) (before after : Tile) : List Nat → Tile
  | [] => after
  | s :: ss =>
    loosen own before (if own < before.mreqIn.count s + before.loose.sent.count s ∧ (tagOf before s).st ≠ (tagOf after s).st
      then { after with loose := { after.loose with slots := s :: after.loose.slots.filter (· != s) } } else after) ss

/-- R221, R481: one own MREQ of a slot retires; the slot is no longer loose once none is outstanding. -/
def mreqDone (t : Tile) (slot : Nat) (ins outs : List Nat) : Tile :=
  { t with
    mreqOut := t.mreqOut - 1
    mreqIn := ins
    loose := { t.loose with
      sent := outs
      slots := if ins.contains slot || outs.contains slot then t.loose.slots else t.loose.slots.filter (· != slot) } }

/-- Applying one due change (R103, R107, R124, R80, R138, R146, R152). -/
def applyDue (t : Tile) (d : Due) : Tile :=
  match d with
  | .sc n w => if n = 0 then t else { t with sc := t.sc.setIfInBounds n w }
  | .ad n r => { t with ad := t.ad.setIfInBounds n r }
  | .v n l => { t with v := t.v.setIfInBounds n l }
  | .digClr => { t with digAcc := 0 }
  | .digAdd x => { t with digAcc := t.digAcc + x }
  | .mode h p => { t with arr := { t.arr with hsplit := h, pjoin := p } }
  | .own m p => { t with own := setOwners t.own m p }
  | .tag s st => loosen 0 t (progTag t s st) [s]
  | .mtag s st => loosen 1 t (progTag t s st) [s]
  | .wopen w d =>
    let t1 := { t with wins := smSet window0 t.wins w { d with isOpen := true } }
    if d.tagged then loosen 0 t (emptySlots t1 (winSlots d)) (winSlots d) else t1
  | .wclose w => { t with wins := smSet window0 t.wins w { winOf t w with isOpen := false } }

/-- A clear of VEC_DIG_ACC applies before a sum of the same cycle (R124). -/
def dueFirst (d : Due) : Bool :=
  match d with
  | .digClr => true
  | _ => false

/-- Applying every change due at or before the cycle in progress. -/
def settleDue (t : Tile) : Tile :=
  let now := t.due.filter (fun p => decide (p.1 ≤ t.cyc))
  let t0 := { t with due := t.due.filter (fun p => decide (t.cyc < p.1)) }
  let t1 := (now.filter (fun p => dueFirst p.2)).foldl (fun t p => applyDue t p.2) t0
  (now.filter (fun p => !dueFirst p.2)).foldl (fun t p => applyDue t p.2) t1

/-- A tag change caused by the mover or the inbound path (R146, R218, R481), tested against the state it finds: FULL from EMPTY,
EMPTY from LENT, and for a refused transfer FULL from LENT. -/
def moverTag (t : Tile) (slot : Nat) (e : TagEv) : Tile :=
  let g := (tagOf t slot).st
  match e with
  | .filled => if g = .empty then setTag t slot ⟨.full, 0⟩ else t
  | .sent => if g = .lent then setTag t slot ⟨.empty, 0⟩ else t
  | .refused => if g = .lent then setTag t slot ⟨.full, 0⟩ else t

/-- Applying the mover's and the inbound path's tag changes, after the program's of the same cycle (R481). -/
def settleSoon (t : Tile) : Tile :=
  t.soon.foldl (fun t p => moverTag t p.1 p.2) { t with soon := [] }

/-- A scalar register (R105: SC0 reads 0). -/
def scGet (t : Tile) (n : Nat) : Word := if n = 0 then 0 else t.sc.getD n 0

/-- An address register. -/
def adGet (t : Tile) (n : Nat) : AdReg := t.ad.getD n ⟨0, 0⟩

/-- A vector register, lane by lane. -/
def vGet (t : Tile) (n : Nat) : Vector Word 64 := t.v.getD n (Vector.replicate 64 0)

/-- The lanes of a vector register as a list. -/
def vLanes (t : Tile) (n : Nat) : List Word := (vGet t n).toList

/-- A vector register from a list of lanes. -/
def lanesOf (l : List Word) : Vector Word 64 := Vector.ofFn (fun i => l.getD i.val 0)

/-- Why an operation is refused (R131): a code of the table Program fault codes, or one of the array faults of
code 0x01 with the long accumulator it names. -/
inductive TFault where
  | code (c : Nat)
  | anchor (acc : Nat)
  | limit (acc : Nat)
  | mode
  deriving DecidableEq, Repr

/-- TILE_FAULT.CODE of a refusal. -/
def tfaultCode (f : TFault) : Nat :=
  match f with
  | .code c => c
  | _ => 1

/-- R97: what an array fault records in ARR_FAULT. FACC is the accumulator of the first anchor or limit fault since all
four bits were last clear. -/
def arrFault (a : ArrState) (f : TFault) : ArrState :=
  let clear := !a.fResid && !a.fAnchor && !a.fLimit && !a.fMode
  let named := a.fAnchor || a.fLimit
  match f with
  | .code _ => a
  | .anchor n => { a with fAnchor := true, facc := if clear || !named then n else a.facc }
  | .limit n => { a with fLimit := true, facc := if clear || !named then n else a.facc }
  | .mode => { a with fMode := true }

/-- R131: recording a program fault and entering FAULT. A tile already in FAULT keeps its first record. -/
def tileFault (t : Tile) (f : TFault) (slot fpc : Nat) : Tile :=
  let t1 := { t with arr := arrFault t.arr f }
  if t.st = .fault then t1
  else { t1 with
    st := .fault
    clkOn := false
    fValid := true
    fCode := tfaultCode f
    fSlot := slot
    fPc := fpc
    notices := t.notices ++ [.fault (tfaultCode f) slot fpc] }

/-- R103: a register result is claimed for a cycle already. SC0 takes part in no conflict. -/
def claimed (t : Tile) (c : Nat) (r : RegName) : Bool :=
  r != .sc 0 && t.rclaim.any (fun p => p.1 == c && p.2 == r)

/-- Claiming register results. -/
def addClaims (t : Tile) (l : List (Nat × RegName)) : Tile := { t with rclaim := l ++ t.rclaim }

/-- R103: every write of an operation is known at its issue; a conflict with an earlier writer, or inside the list,
refuses it. -/
def claimAll (t : Tile) (l : List (Nat × RegName)) : Except TFault Tile :=
  if l.any (fun p => claimed t p.1 p.2) then .error (.code 0x08)
  else if decide ((l.filter (fun p => p.2 != .sc 0)).Nodup) then .ok (addClaims t l)
  else .error (.code 0x08)

/-- Scheduling a change. -/
def addDue (t : Tile) (c : Nat) (d : Due) : Tile := { t with due := t.due ++ [(c, d)] }

/-- The post-incremented address register (R107): ADDR + INC modulo 2^22. -/
def adStep (r : AdReg) : AdReg := { r with addr := r.addr + r.inc.signExtend 22 }

/-- The due post-increment of an address register at t + 1. -/
def addPinc (t : Tile) (n : Nat) (on : Bool) : Tile :=
  if on then addDue t (t.cyc + 1) (.ad n (adStep (adGet t n))) else t

/-- Scheduling counter events for the end of a cycle (R68). -/
def addEv (t : Tile) (c : Nat) (e : NumEv) : Tile :=
  if e = evNone then t else { t with evq := t.evq ++ [(c, e)] }

/-- R68: at the end of a cycle the clears apply, then that cycle's events; the counters hold at their top (R66). -/
def applyCounts (t : Tile) : Tile :=
  let now := (t.evq.filter (fun p => decide (p.1 ≤ t.cyc))).foldl (fun e p => evAdd e p.2) evNone
  { t with
    evq := t.evq.filter (fun p => decide (t.cyc < p.1))
    clr := 0
    numSat := satAdd32 (if t.clr.testBit 0 then 0 else t.numSat) now.sat
    numFlush := satAdd32 (if t.clr.testBit 1 then 0 else t.numFlush) now.flush
    numNan := satAdd32 (if t.clr.testBit 2 then 0 else t.numNan) now.nan }

/-- The slots that n bytes from a touch. -/
def slotsOf (a n : Nat) : List Nat :=
  if n = 0 then [] else (List.range ((a % 4096 + n - 1) / 4096 + 1)).map (fun i => (a / 4096 + i) % 1024)

/-- The banks that n bytes from a touch (R136). -/
def banksOf (a n : Nat) : List Nat :=
  if n = 0 then [] else (List.range ((a % 262144 + n - 1) / 262144 + 1)).map (fun i => (a / 262144 + i) % 16)

/-- The words that n bytes from a touch. -/
def wordsOf (a n : Nat) : List Nat :=
  if n = 0 then [] else (List.range ((a % 64 + n - 1) / 64 + 1)).map (fun i => (a / 64 + i) % 65536)

end Sys2Proof.Machine
end

