-- ==== Sys2Proof/Machine/ArrayUnit.lean ====
section
/-! DEFINITION. The array (spec/03_array_arithmetic.md): problems, weight loads and swaps, streams and their terms, long
accumulators, drains, modes, and the array slot's operations (spec/04_tile_engines.md R113 to R117). -/

namespace Sys2Proof.Machine

/-- R57: the rounding mode of a code; 3 is reserved. -/
def rmodeOf (c : Nat) : Option RMode :=
  match c with
  | 0 => some .rne
  | 1 => some .rtz
  | 2 => some .sr
  | _ => none

/-- R78: the columns of pane group i of PJOIN, for presented width w: first column and number of columns. -/
def paneCols (pjoin i w : Nat) : Option (Nat × Nat) :=
  match pjoin, i with
  | 0, 0 => some (0, w)
  | 1, 0 => some (0, 64)
  | 1, 1 => some (64, w - 64)
  | 2, 0 => some (0, 32)
  | 2, 1 => some (32, 32)
  | 2, 2 => some (64, 32)
  | 2, 3 => some (96, w - 96)
  | _, _ => none

/-- R78: pane groups of PJOIN. -/
def paneCount (pjoin : Nat) : Nat :=
  match pjoin with
  | 0 => 1
  | 1 => 2
  | 2 => 4
  | _ => 0

/-- R78: the first pane (and north feeder) of pane group i. -/
def paneFirst (pjoin i : Nat) : Nat :=
  match pjoin with
  | 1 => 2 * i
  | _ => i

/-- R78, R113: the problem PROB of a mode, numbered in the order of the feeder lists; none where it does not exist. -/
def problemOf (hsplit : Bool) (pjoin prob w : Nat) : Option Problem :=
  let n := paneCount pjoin
  if hsplit then
    let h := if prob < n then 0 else 1
    let i := if prob < n then prob else prob - n
    (paneCols pjoin i w).map (fun c =>
      ⟨64 * h, 64, c.1, c.2, h == 1, 2 ^ (4 * h + paneFirst pjoin i)⟩)
  else
    (paneCols pjoin prob w).map (fun c =>
      ⟨0, 128, c.1, c.2, false, 2 ^ paneFirst pjoin prob + 2 ^ (4 + paneFirst pjoin prob)⟩)

/-- The key of a cell: 128 × column + row. -/
def cellKey (col row : Nat) : Nat := 128 * col + row

/-- The key of a long accumulator: 128 × column + index. -/
def accKey (col a : Nat) : Nat := 128 * col + a

/-- A long accumulator of a column. -/
def accGet (a : ArrState) (col n : Nat) : LAcc := smGet laccZero a.acc (accKey col n)

/-- The bit length of a significand: the position of its highest set bit plus one. -/
def bitLen (n : Nat) : Nat := if n = 0 then 0 else Nat.log2 n + 1

/-- The bound T of a finite nonzero element (Window edges). -/
def elemT (e : Elem) : Int := e.e + bitLen e.n

/-- R74: element cycles of a WLOAD. -/
def loadECycles (fmt : Fmt) (ncol : Nat) : Nat := (128 * ncol * fmtWidth fmt + 2047) / 2048

/-- R74: scale cycles of a WLOAD. -/
def loadSCycles (fmt : Fmt) (ncol : Nat) : Nat := if fmtIsMx fmt then (4 * ncol + 255) / 256 else 0

/-- R74: the length L of a WLOAD. -/
def loadLen (l : LoadOp) : Nat := loadECycles l.fmt l.ncol + loadSCycles l.fmt l.ncol

/-- R73: cycles per product of a STREAM. -/
def streamCpp (s : StreamOp) : Nat := fmtDigits s.fmt * s.passes

/-- R81: feeder cycles of a STREAM. -/
def streamSpan (s : StreamOp) : Nat := s.count * streamCpp s

/-- R115: the bytes of one vector. -/
def streamVecBytes (s : StreamOp) : Nat := s.prob.rows * fmtWidth s.fmt / 8

/-- The long accumulator that vector m of a STREAM adds to (The long accumulator). -/
def streamAcc (s : StreamOp) (m : Nat) : Nat := (if s.prob.south then 64 else 0) + s.acc + m

/-- R27, R78: the columns in use, W: the program's width class; the presented width while no program is loaded (DEDUCED). -/
def arrayWidth (t : Tile) : Nat := if t.arr.wclass = 0 then t.width else min t.arr.wclass t.width

/-- The key of a column's half: 128 × half + column. -/
def halfKey (half col : Nat) : Nat := 128 * half + col

/-- The halves that a problem covers. -/
def probHalves (p : Problem) : List Nat := if p.rows = 128 then [0, 1] else [p.row0 / 64]

/-- R73: the pass counts of a problem's cells. -/
def probPasses (p : Problem) (m : SMap Nat) : Nat :=
  (probHalves p).foldl (fun n h => (List.range p.cols).foldl (fun n i => max n (smGet 1 m (halfKey h (p.col0 + i)))) n) 1

/-- R73, R76: the pass counts of a problem's cells, copied from the shadow. -/
def swapPasses (p : Problem) (shadow act : SMap Nat) : SMap Nat :=
  (probHalves p).foldl (fun m h => (List.range p.cols).foldl (fun m i =>
    smSet 1 m (halfKey h (p.col0 + i)) (smGet 1 shadow (halfKey h (p.col0 + i)))) m) act

/-- R74: the pass counts of the columns that a WLOAD writes, in both halves. -/
def loadPasses (l : LoadOp) (m : SMap Nat) : SMap Nat :=
  (List.range l.ncol).foldl (fun m i =>
    smSet 1 (smSet 1 m (halfKey 0 (l.col0 + i)) (fmtPasses l.fmt)) (halfKey 1 (l.col0 + i)) (fmtPasses l.fmt)) m

/-- The columns of a problem. -/
def probCols (p : Problem) : List Nat := (List.range p.cols).map (fun i => p.col0 + i)

/-- Two column ranges share a column. -/
def colsMeet (a n b m : Nat) : Bool := decide (a < b + m) && decide (b < a + n)

/-- What the operations issued before leave in a long accumulator at cycle x (R86): the adds of earlier streams and the
clears of earlier drains that fall in cycles from now to x, a clear before an add of its cycle. -/
def accEvents (t : Tile) (col n x : Nat) : List (Nat × Nat × Int × Nat) :=
  let adds := t.arr.streams.flatMap (fun s =>
    if s.prob.col0 ≤ col ∧ col < s.prob.col0 + s.prob.cols then
      (List.range s.count).filterMap (fun m =>
        let y := s.t + 7 + m * streamCpp s
        if streamAcc s m = n ∧ t.cyc ≤ y ∧ y ≤ x then some (2 * y + 1, 1, s.anchor, s.prob.rows) else none)
    else [])
  let clrs := t.arr.drains.flatMap (fun d =>
    if d.clr ∧ d.col0 ≤ col ∧ col < d.col0 + d.ncol ∧ d.acc0 + d.next ≤ n ∧ n < d.acc0 + d.nacc then
      let z := d.t + d.q * (n - d.acc0)
      if t.cyc ≤ z ∧ z ≤ x then [(2 * z, 0, (0 : Int), 0)] else []
    else [])
  (adds ++ clrs).mergeSort (fun a b => a.1 ≤ b.1)

/-- The projected ASET, ANCHOR and COUNT of a long accumulator when a first term reaches it at cycle x (R86, R89). -/
def accProject (t : Tile) (col n x : Nat) : LAcc :=
  (accEvents t col n x).foldl (fun a e =>
    if e.2.1 = 0 then laccZero
    else { a with
      aset := true
      anchor := if a.aset then a.anchor else e.2.2.1
      count := a.count + e.2.2.2 }) (accGet t.arr col n)

/-- R86, R89: the anchor and limit tests of a STREAM, column by column. -/
def streamTest (t : Tile) (s : StreamOp) : Option TFault :=
  (List.range s.count).findSome? (fun m =>
    let n := streamAcc s m
    let x := s.t + 7 + m * streamCpp s
    (probCols s.prob).findSome? (fun col =>
      let p := accProject t col n x
      if p.aset && p.anchor != s.anchor then some (.anchor n)
      else if p.count + s.prob.rows > 2 ^ 20 then some (.limit n)
      else none))

/-- Reading a descriptor entry (R130): its KIND must be the one the operation needs. -/
def descOf (t : Tile) (didx : BitVec 13) (kind : Nat) : Except TFault Nat :=
  let e := smGet pentry0 t.store didx.toNat
  if e.desc && bits e.w.toNat 124 4 == kind then .ok e.w.toNat else .error (.code 0x0B)

/-- R74, R114, R117: issuing a WLOAD. -/
def issueWload (t : Tile) (didx : BitVec 13) : Except TFault Tile := do
  let w ← descOf t didx 1
  match fmtOfCode (bits w 120 4) with
  | none => .error (.code 0x0B)
  | some fmt =>
    let l : LoadOp := ⟨t.cyc, fmt, bits w 113 7, bits w 105 8, bits w 83 22, bits w 61 22, [], []⟩
    if t.arr.loads.any (fun o => decide (t.cyc < o.t + loadLen o)) then .error (.code 0x03)
    else if t.arr.streams.any (fun s =>
        s.swap && decide (t.cyc < s.t + 2) && decide (s.t + 2 < t.cyc + loadLen l)
          && colsMeet l.col0 l.ncol s.prob.col0 s.prob.cols) then .error (.code 0x04)
    else .ok { t with arr := { t.arr with
      loads := t.arr.loads ++ [l]
      pShadow := loadPasses l t.arr.pShadow } }

/-- R73, R76, R80, R81, R86, R89, R115, R117: issuing a STREAM. -/
def issueStream (t : Tile) (didx : BitVec 13) (prob : Fin 8) (swap asrc : Bool) (asc : Fin 16) : Except TFault Tile := do
  let w ← descOf t didx 2
  match fmtOfCode (bits w 120 4), problemOf t.arr.hsplit t.arr.pjoin prob.val (arrayWidth t) with
  | none, _ => .error (.code 0x0B)
  | _, none => .error (.code 0x06)
  | some fmt, some p =>
    let pm := if swap then t.arr.pShadow else t.arr.pAct
    let anchor := if asrc then signedOf 10 (scGet t asc.val).toNat else signedOf 10 (bits w 110 10)
    let s : StreamOp := {
      t := t.cyc, prob := p, fmt := fmt, anchor := anchor, acc := bits w 103 7, count := bits w 96 7 + 1
      passes := probPasses p pm
      ebase := bits w 74 22, sbase := bits w 52 22, swap := swap, bytes := [], vecs := [], wts := none }
    if bitAt w 51 != t.arr.hsplit then .error (.code 0x06)
    else if t.arr.streams.any (fun o =>
        decide (o.prob.feeders &&& p.feeders ≠ 0) && decide (t.cyc < o.t + streamSpan o)) then .error (.code 0x02)
    else if (match t.arr.modeAt with
        | some x => decide (x < t.cyc) && decide (t.cyc + 2 < x + 6)
        | none => false) then .error .mode
    else if swap && t.arr.loads.any (fun l =>
        decide (l.t ≠ t.cyc + 2) && decide (t.cyc + 2 < l.t + loadLen l)
          && colsMeet l.col0 l.ncol p.col0 p.cols) then .error (.code 0x04)
    else
      match streamTest t s with
      | some f => .error f
      | none => .ok { t with arr := { t.arr with
          streams := t.arr.streams ++ [s]
          pAct := if swap then swapPasses p t.arr.pShadow t.arr.pAct else t.arr.pAct } }

/-- R92: cycles per long accumulator of a DRAIN. -/
def drainQ (fmt : Fmt) (ncol : Nat) : Nat := (ncol * (fmtWidth fmt / 8) + 255) / 256

/-- R92: the vector port cycles of a DRAIN. -/
def drainCycles (t nacc q : Nat) : List Nat := (List.range (nacc * q)).map (fun i => t + 3 + i)

/-- R90: clearing long accumulators FIRST to LAST of every column. -/
def clearAccs (a : ArrState) (first last : Nat) : ArrState :=
  { a with acc := a.acc.filter (fun p => decide (p.1 % 128 < first) || decide (last < p.1 % 128)) }

/-- R90, R113: ACLR clears in its issue cycle. -/
def issueAclr (t : Tile) (first last : Fin 128) : Except TFault Tile :=
  .ok { t with arr := clearAccs t.arr first.val last.val }

/-- R80: MODE takes effect at x + 6, and is refused while a digit would enter in cycles x to x + 5. -/
def issueMode (t : Tile) (hsplit : Bool) (pjoin : Fin 4) : Except TFault Tile :=
  if t.arr.streams.any (fun s => decide (t.cyc ≤ s.t + 1 + streamSpan s)) then .error .mode
  else .ok (addDue { t with arr := { t.arr with modeAt := some t.cyc } } (t.cyc + 6) (.mode hsplit pjoin.val))

/-- R63: the effect of a special or zero product on the flags (first pass only): none where the product is finite. -/
def specialProduct (a : LAcc) (s w : Elem) : Option LAcc :=
  let neg := s.sign != w.sign
  match s.cls, w.cls with
  | .nan, _ => some { a with nanf := if a.nanf = .created then .created else .propagated }
  | _, .nan => some { a with nanf := if a.nanf = .created then .created else .propagated }
  | .infinite, .finite =>
    some (if w.n = 0 then { a with nanf := .created } else if neg then { a with ninf := true } else { a with pinf := true })
  | .finite, .infinite =>
    some (if s.n = 0 then { a with nanf := .created } else if neg then { a with ninf := true } else { a with pinf := true })
  | .infinite, .infinite => some (if neg then { a with ninf := true } else { a with pinf := true })
  | .finite, .finite => none

/-- R84: x × 2^sh truncated toward zero to an integer. -/
def shiftTrunc (x : Nat) (sh : Int) : Nat :=
  if 0 ≤ sh then x * 2 ^ sh.toNat else x / 2 ^ (-sh).toNat

/-- R84: x × 2^sh has a set bit below bit 0. -/
def dropsBits (x : Nat) (sh : Int) : Bool :=
  if 0 ≤ sh then false else decide (x % 2 ^ (-sh).toNat ≠ 0)

/-- R71, R83 to R85: one product's part of the digit k of pass p, under anchor A: the new accumulator and its counter
events. A term is one product in one pass (R84): its digits add the growing truncated prefix of the term, so the sum
over the pass is the truncated term, and its flush counts once, at its last digit. -/
def addTerm (anchor : Int) (digits p k : Nat) (s w : Elem) (a : LAcc) (e : NumEv) : LAcc × NumEv :=
  let first := p == 0 && k == 0
  match specialProduct a s w with
  | some b => (if first then b else a, e)
  | none =>
    if s.n = 0 || w.n = 0 then (a, e)
    else
      let neg := s.sign != w.sign
      if elemT s + elemT w > anchor + 1 then
        if first then
          (if neg then { a with ninf := true } else { a with pinf := true }, { e with sat := e.sat + 1 })
        else (a, e)
      else
        let slice := bits w.n (8 * p) 8
        let sh : Int := s.e + w.e + 8 * p - (anchor - 138)
        let cur := shiftTrunc (s.n % 4 ^ (k + 1) * slice) sh
        let prev := shiftTrunc (s.n % 4 ^ k * slice) sh
        let d : Int := (cur : Int) - prev
        let drop := k + 1 == digits && dropsBits (s.n * slice) sh
        ({ a with sum := a.sum + BitVec.ofInt 160 (if neg then -d else d) },
         { e with flush := e.flush + b2n drop })

/-- The terms of one column for one digit: latching the anchor (R86), counting the products at their first digit (R89). -/
def addColumn (s : StreamOp) (wts : SMap Elem) (vec : List Elem) (p k col : Nat) (a : LAcc) : LAcc × NumEv :=
  let a1 := { a with
    anchor := if a.aset then a.anchor else s.anchor
    aset := true
    count := if p == 0 && k == 0 then a.count + s.prob.rows else a.count }
  vec.zipIdx.foldl (fun acc x =>
    addTerm a1.anchor (fmtDigits s.fmt) p k x.1 (smGet elem0 wts (cellKey col (s.prob.row0 + x.2))) acc.1 acc.2)
    (a1, evNone)

/-- R81: the terms of one STREAM that reach their long accumulators at the end of cycle c. -/
def streamTerms (c : Nat) (s : StreamOp) (a : ArrState) (e : NumEv) : ArrState × NumEv :=
  if c < s.t + 7 ∨ s.t + 7 + streamSpan s ≤ c then (a, e)
  else
    let i := c - (s.t + 7)
    let m := i / streamCpp s
    let r := i % streamCpp s
    let vec := smGet [] s.vecs m
    (probCols s.prob).foldl (fun acc col =>
      let n := accKey col (streamAcc s m)
      let x := addColumn s (s.wts.getD []) vec (r / fmtDigits s.fmt) (r % fmtDigits s.fmt) col
        (smGet laccZero acc.1.acc n)
      ({ acc.1 with acc := smSet laccZero acc.1.acc n x.1 }, evAdd acc.2 x.2)) (a, e)

/-- The end of cycle c in the array: every STREAM's terms are added, and STREAMs whose last term is in are dropped. -/
def arrayTerms (t : Tile) : Tile :=
  let x := t.arr.streams.foldl (fun acc s => streamTerms t.cyc s acc.1 acc.2) (t.arr, evNone)
  addEv { t with arr := { x.1 with
    streams := x.1.streams.filter (fun s => decide (t.cyc + 1 < s.t + 7 + streamSpan s)) } } t.cyc x.2

/-- The cells of a problem. -/
def inProblem (p : Problem) (k : Nat) : Bool :=
  decide (p.col0 ≤ k / 128) && decide (k / 128 < p.col0 + p.cols) && decide (p.row0 ≤ k % 128) && decide (k % 128 < p.row0 + p.rows)

/-- R76: copying the shadow registers of a problem's cells into the active registers. -/
def swapCells (p : Problem) (shadow act : SMap Elem) : SMap Elem :=
  (shadow.filter (fun x => inProblem p x.1)).foldl (fun m x => smSet elem0 m x.1 x.2)
    (act.filter (fun x => !inProblem p x.1))

/-- R96: the weight parity check of a swap: the lowest column with a cell whose active register fails, and the registers' parity fresh. -/
def swapParity (p : Problem) (a : ArrState) : ArrState × Option Nat :=
  let bad := (a.wBad.filter (inProblem p)).map (· / 128)
  ({ a with wBad := a.wBad.filter (fun k => !inProblem p k) },
   match bad with
   | [] => none
   | c :: cs => some (cs.foldl min c))

/-- R96: a residue or weight parity error in a presented column: RESIDUE is set, the first failing column kept. -/
def arrayError (a : ArrState) (col : Nat) : ArrState :=
  { a with fResid := true, rcol := if a.fResid then a.rcol else col }

/-- R76, R96: at the start of the cycle in which a STREAM's first digit enters, the swap happens, the parity of the weights that it
replaces is checked, and the weights it will use are fixed; a failing column joins the list. -/
def enterStream (c : Nat) (x : ArrState × List Nat) (s : StreamOp) : ArrState × List Nat :=
  let a0 := x.1
  if s.t + 2 = c ∧ s.wts = none then
    let r := if s.swap then swapParity s.prob a0 else (a0, none)
    let a := r.1
    let act := if s.swap then swapCells s.prob a.wShadow a.wAct else a.wAct
    ({ a with
      wAct := act
      streams := a.streams.map (fun o =>
        if o = s then { o with wts := some (act.filter (fun x =>
          decide (s.prob.col0 ≤ x.1 / 128) && decide (x.1 / 128 < s.prob.col0 + s.prob.cols))) } else o) },
     match r.2 with
     | some k => x.2 ++ [k]
     | none => x.2)
  else x

/-- R63, R64, R93, R94: the drained result of one long accumulator in presented column col. -/
def drainValue (t : Tile) (d : DrainOp) (i col : Nat) (a : LAcc) : Nat × NumEv :=
  if !a.aset then (zeroCode d.fmt false, evNone)
  else if a.nanf = .created ∨ (a.nanf = .none ∧ a.pinf ∧ a.ninf) then (nanCode d.fmt, ⟨0, 0, 1⟩)
  else if a.nanf = .propagated then
    (nanCode d.fmt, if a.pinf && a.ninf then ⟨0, 0, 1⟩ else evNone)
  else if a.pinf then (infCode d.fmt false, evNone)
  else if a.ninf then (infCode d.fmt true, evNone)
  else
    let v := a.sum.toInt
    roundFin d.fmt d.rmode (rngDraw t.seed d.stream t.step t.mb (d.ebase + 256 * i + col))
      (decide (v < 0)) v.natAbs (a.anchor - 138)

/-- Cutting a byte string into pieces of 256. -/
def chunks256 (n : Nat) (l : List Byte) : List (List Byte) :=
  (List.range n).map (fun j => (l.drop (256 * j)).take 256)

/-- R92: the read of the next long accumulator of a DRAIN at cycle c: results scheduled for the vector port, counts in
this cycle, and the clear. -/
def drainRead (t : Tile) (d : DrainOp) : Tile :=
  if t.cyc = d.t + d.q * d.next ∧ d.next < d.nacc then
    let n := d.acc0 + d.next
    let cols := (List.range d.ncol).map (fun i => d.col0 + i)
    let rs := cols.map (fun c => drainValue t d d.next c (accGet t.arr c n))
    let bytes := rs.flatMap (fun r => leBytes (fmtWidth d.fmt / 8) r.1)
    let ev := rs.foldl (fun e r => evAdd e r.2) evNone
    let base := d.dbase + d.next * d.ncol * (fmtWidth d.fmt / 8)
    let writes := (chunks256 d.q bytes).zipIdx.map (fun x =>
      (t.cyc + 3 + x.2, VPort.store ((base + 256 * x.2) % spadSize) x.1))
    let acc := if d.clr then
        t.arr.acc.filter (fun p => !(p.1 % 128 == n && decide (d.col0 ≤ p.1 / 128) && decide (p.1 / 128 < d.col0 + d.ncol)))
      else t.arr.acc
    addEv { t with
      vport := t.vport ++ writes
      arr := { t.arr with
        acc := acc
        drains := t.arr.drains.map (fun o => if o = d then { o with next := o.next + 1 } else o) } } t.cyc ev
  else t

/-- R116, R117, R126: issuing a DRAIN; its first long accumulator is read in the issue cycle (R92). -/
def issueDrain (t : Tile) (didx : BitVec 13) : Except TFault Tile := do
  let w ← descOf t didx 3
  match fmtOfCode (bits w 120 4), rmodeOf (bits w 88 2) with
  | some fmt, some rm =>
    let d : DrainOp := {
      t := t.cyc, fmt := fmt, acc0 := bits w 113 7, nacc := bits w 105 8, col0 := bits w 98 7, ncol := bits w 90 8
      rmode := rm, stream := scGet t (bits w 84 4), clr := bitAt w 83, dbase := bits w 61 22
      ebase := bits w 13 48, q := drainQ fmt (bits w 90 8), next := 0 }
    if fmtIsMx fmt then .error (.code 0x0B)
    else if t.arr.drains.any (fun o => decide (t.cyc < o.t + o.q * o.nacc)) then .error (.code 0x05)
    else if (drainCycles t.cyc d.nacc d.q).any (fun c => t.vclaim.contains c) then .error (.code 0x07)
    else .ok (drainRead { t with
      vclaim := drainCycles t.cyc d.nacc d.q ++ t.vclaim
      arr := { t.arr with drains := t.arr.drains ++ [d] } } d)
  | _, _ => .error (.code 0x0B)

/-- One operation of the array slot. -/
def issueArr (t : Tile) (o : ArrOp) : Except TFault Tile :=
  match o with
  | .nop => .ok t
  | .wload d => issueWload t d
  | .stream d p s a c => issueStream t d p s a c
  | .drain d => issueDrain t d
  | .aclr f l => issueAclr t f l
  | .mode h p => issueMode t h p

/-- R96: a residue error in a tile's array: it is recorded, and Kiln is notified. -/
def residueError (t : Tile) (col : Nat) : Tile :=
  { t with arr := arrayError t.arr col, notices := t.notices ++ [.residue col] }

/-- The start of a cycle in the array (R76, R90, R92, R96): drains read and clear, then swaps. -/
def settleArray (t : Tile) : Tile :=
  let t1 := t.arr.drains.foldl drainRead t
  let r := t1.arr.streams.foldl (enterStream t1.cyc) (t1.arr, [])
  r.2.foldl residueError { t1 with arr := r.1 }

/-- An access of a static port: port index, byte address, length, write. -/
structure Access where
  port  : Nat
  addr  : Nat
  len   : Nat
  write : Bool
  deriving DecidableEq, Repr

/-- R81, R115: what a STREAM reads in a cycle, element bytes and scale bytes. -/
def streamAccess (c : Nat) (s : StreamOp) : List Access :=
  if c < s.t ∨ s.t + streamSpan s ≤ c then []
  else
    let i := c - s.t
    let m := i / streamCpp s
    let k := i % streamCpp s
    let vb := streamVecBytes s
    if 256 * k < vb then
      ⟨0, (s.ebase + m * vb + 256 * k) % spadSize, min 256 (vb - 256 * k), false⟩ ::
        (if k = 0 ∧ fmtIsMx s.fmt then
          [⟨0, (s.sbase + m * (s.prob.rows / 32)) % spadSize, s.prob.rows / 32, false⟩] else [])
    else []

/-- R74, R114: what a WLOAD reads in a cycle. -/
def loadAccess (c : Nat) (l : LoadOp) : List Access :=
  if c < l.t ∨ l.t + loadLen l ≤ c then []
  else
    let j := c - l.t
    let ec := loadECycles l.fmt l.ncol
    if j < ec then
      [⟨1, (l.ebase + 256 * j) % spadSize, min 256 (fmtBytes l.fmt (128 * l.ncol) - 256 * j), false⟩]
    else
      [⟨1, (l.sbase + 256 * (j - ec)) % spadSize, min 256 (4 * l.ncol - 256 * (j - ec)), false⟩]

/-- R44: the subnormal elements among the bytes that one cycle reads, in a long format. -/
def chunkFlushes (fmt : Fmt) (bs : List Byte) : Nat :=
  if fmtIsMx fmt then 0
  else ((List.range (bs.length * 8 / fmtWidth fmt)).filter (fun j => (decodeElem fmt (elemCode fmt bs j) 127).2)).length

/-- A STREAM's read of a cycle taken in: the vector is decoded once its last bytes are in. The flushes of the bytes read are
counted in the next cycle, in which they are decoded (R44, R81). -/
def streamRead (t : Tile) (s : StreamOp) : StreamOp × NumEv :=
  match streamAccess t.cyc s with
  | [] => (s, evNone)
  | a :: rest =>
    let i := t.cyc - s.t
    let m := i / streamCpp s
    let k := i % streamCpp s
    let got := spadRead t a.addr a.len
    let bs := smGet [] s.bytes (2 * m) ++ got
    let sc := match rest with
      | b :: _ => spadRead t b.addr b.len
      | [] => smGet [] s.bytes (2 * m + 1)
    if 256 * (k + 1) < streamVecBytes s then
      ({ s with bytes := smSet [] (smSet [] s.bytes (2 * m) bs) (2 * m + 1) sc }, ⟨0, chunkFlushes s.fmt got, 0⟩)
    else
      let es := (List.range s.prob.rows).map (fun j =>
        (decodeElem s.fmt (elemCode s.fmt bs j) (sc.getD (j / 32) 127#8).toNat).1)
      ({ s with
        bytes := smErase (smErase s.bytes (2 * m)) (2 * m + 1)
        vecs := smSet [] (s.vecs.filter (fun p => decide (s.t + 7 + p.1 * streamCpp s + streamCpp s > t.cyc))) m es },
       ⟨0, chunkFlushes s.fmt got, 0⟩)

/-- A WLOAD's read of a cycle taken in; its elements are decoded, and their flushes counted, on entry (R44, R74). -/
def loadRead (t : Tile) (l : LoadOp) : LoadOp × NumEv :=
  match loadAccess t.cyc l with
  | [] => (l, evNone)
  | a :: _ =>
    let got := spadRead t a.addr a.len
    if t.cyc - l.t < loadECycles l.fmt l.ncol then
      ({ l with ebytes := l.ebytes ++ got }, ⟨0, chunkFlushes l.fmt got, 0⟩)
    else ({ l with sbytes := l.sbytes ++ got }, evNone)

/-- The elements of a finished WLOAD, column by column (R75, R114). -/
def loadElems (l : LoadOp) : List (Nat × Elem) :=
  (List.range (128 * l.ncol)).map (fun i =>
    (cellKey (l.col0 + i / 128) (i % 128),
     (decodeElem l.fmt (elemCode l.fmt l.ebytes i) (l.sbytes.getD (i / 32) 127#8).toNat).1))

/-- R74, R77: the end of a WLOAD's last cycle: the shadow registers and ARR_TWMAX. -/
def loadFinish (t : Tile) (l : LoadOp) : Tile :=
  if t.cyc + 1 = l.t + loadLen l then
    let es := loadElems l
    let ts := es.filterMap (fun x =>
      if x.2.cls = .finite ∧ x.2.n ≠ 0 then some (elemT x.2) else none)
    { t with arr := { t.arr with
      wShadow := es.foldl (fun m x => smSet elem0 m x.1 x.2) t.arr.wShadow
      twNone := ts.isEmpty
      twMax := match ts with
        | [] => 0
        | x :: xs => xs.foldl max x } }
  else t

/-- The array's reads of the cycle in progress, in service order (R142): feeders, then weights. -/
def arrayReads (t : Tile) : Tile :=
  let rs := t.arr.streams.map (streamRead t)
  let ls := t.arr.loads.map (loadRead t)
  let t1 := { t with arr := { t.arr with streams := rs.map (·.1), loads := ls.map (·.1) } }
  let t2 := addEv t1 (t.cyc + 1) (rs.foldl (fun e r => evAdd e r.2) evNone)
  let t3 := addEv t2 t.cyc (ls.foldl (fun e r => evAdd e r.2) evNone)
  let t4 := (ls.map (·.1)).foldl loadFinish t3
  { t4 with arr := { t4.arr with
    loads := t4.arr.loads.filter (fun l => decide (t.cyc + 1 < l.t + loadLen l))
    drains := t4.arr.drains.filter (fun d => decide (t.cyc + 1 < d.t + d.q * d.nacc)) } }

/-- ARR_CFG (R80). -/
def arrCfgWord (a : ArrState) : Word :=
  BitVec.ofNat 32 (a.wclass * 2 ^ 16 + b2n a.hsplit * 2 ^ 4 + a.pjoin * 2 ^ 2)

/-- ARR_TWMAX (R77). -/
def twmaxWord (a : ArrState) : Word := BitVec.ofNat 32 (b2n a.twNone * 2 ^ 10 + wrapInt 10 a.twMax)

/-- ARR_TWMAX in scan form (R123). -/
def twmaxScan (a : ArrState) : Word :=
  if a.twNone then 0x80000000#32 else BitVec.ofInt 32 a.twMax

/-- ARR_FAULT (R97). -/
def arrFaultWord (a : ArrState) : Word :=
  BitVec.ofNat 32 (b2n a.fResid * 2 ^ 31 + b2n a.fAnchor * 2 ^ 30 + b2n a.fLimit * 2 ^ 29 + b2n a.fMode * 2 ^ 28
    + a.facc * 2 ^ 8 + a.rcol)

end Sys2Proof.Machine
end

