-- ==== Sys2Proof/Machine/VecFn.lean ====
section
/-! DEFINITION. The vector functions VEXP2, VLOG2, VRCP and VRSQ (spec/04_tile_engines.md R121, spec/02_number_formats.md
R62). The spec fixes each up to an error bound; inside the bound the value is free (Config.fnPick, Config.fnOffset). -/

namespace Sys2Proof.Machine

/-- Integer square root, rounded down: one bit at a time. -/
def isqrtGo (n : Nat) : Nat → Nat → Nat
  | 0, r => r
  | k + 1, r =>
    let c := r + 2 ^ k
    isqrtGo n k (if c * c ≤ n then c else r)

/-- Integer square root, rounded down. -/
def isqrt (n : Nat) : Nat := isqrtGo n (Nat.log2 n / 2 + 1) 0

/-- One of the two FP32 neighbours of a value that lies strictly between them: n units of 2^e rounded down to 24 bits, or
that plus one unit in the last place, as the implementation's function has it (R121). -/
def pickNeighbour (op bitsIn : Nat) (sign : Bool) (n : Nat) (e : Int) : Nat × NumEv :=
  let ue := floorLog2 n e - 23
  let t := roundAt .rtz 0 n e ue
  roundFin .fp32 .rtz 0 sign (if Config.fnPick op bitsIn then t + 1 else t) ue

/-- R121, R62: VRCP of FP32 bits. -/
def fnRcp (w : Nat) : Nat × NumEv :=
  match (readLong .fp32 w).1 with
  | .nan => (nanCode .fp32, evNone)
  | .inf s => (zeroCode .fp32 s, evNone)
  | .fin s m e =>
    if m = 0 then (infCode .fp32 s, ⟨1, 0, 0⟩)
    else if m = 2 ^ Nat.log2 m then roundFin .fp32 .rne 0 s 1 (-(floorLog2 m e))
    else if floorLog2 m e ≥ 126 then (zeroCode .fp32 s, ⟨0, 1, 0⟩)
    else pickNeighbour 0 w s (2 ^ 80 / m) (-80 - e)

/-- R121, R62: VRSQ of FP32 bits. -/
def fnRsq (w : Nat) : Nat × NumEv :=
  match (readLong .fp32 w).1 with
  | .nan => (nanCode .fp32, evNone)
  | .inf s => if s then (nanCode .fp32, ⟨0, 0, 1⟩) else (zeroCode .fp32 false, evNone)
  | .fin s m e =>
    if m = 0 then (infCode .fp32 s, ⟨1, 0, 0⟩)
    else if s then (nanCode .fp32, ⟨0, 0, 1⟩)
    else if m = 2 ^ Nat.log2 m ∧ floorLog2 m e % 2 = 0 then
      roundFin .fp32 .rne 0 false 1 (-(floorLog2 m e / 2))
    else
      let odd := e % 2 = 1
      let m1 := if odd then 2 * m else m
      let e1 := if odd then e - 1 else e
      pickNeighbour 1 w false (isqrt (2 ^ 200 / m1)) (-100 - e1 / 2)

/-- 2^(f / 2^64) in units of 2^−96, rounded down: a product of repeated square roots of 2. -/
def exp2Go : Nat → Nat → Nat → Nat → Nat
  | 0, _, _, acc => acc
  | k + 1, f, c, acc =>
    let c1 := isqrt (c * 2 ^ 96)
    exp2Go k f c1 (if f.testBit k then acc * c1 / 2 ^ 96 else acc)

/-- R121, R62: VEXP2 of FP32 bits. -/
def fnExp2 (w : Nat) : Nat × NumEv :=
  match (readLong .fp32 w).1 with
  | .nan => (nanCode .fp32, evNone)
  | .inf s => if s then (zeroCode .fp32 false, evNone) else (infCode .fp32 false, evNone)
  | .fin s m e =>
    if m = 0 then (0x3F800000, evNone)
    else if floorLog2 m e ≥ 8 then
      if s then (zeroCode .fp32 false, ⟨0, 1, 0⟩) else (infCode .fp32 false, ⟨1, 0, 0⟩)
    else
      let x : Int := if s then -(m : Int) else (m : Int)
      -- x in units of 2^e; its floor, and its fraction in units of 2^-64
      let fl : Int := if 0 ≤ e then x * (2 ^ e.toNat : Nat) else x / (2 ^ (-e).toNat : Nat)
      let fr : Nat := if 0 ≤ e then 0 else (x % (2 ^ (-e).toNat : Nat)).toNat * 2 ^ 64 / 2 ^ (-e).toNat
      let exact : Bool := if 0 ≤ e then true else decide (x % (2 ^ (-e).toNat : Nat) = 0)
      if fl ≥ 128 then (infCode .fp32 false, ⟨1, 0, 0⟩)
      else if exact then roundFin .fp32 .rne 0 false 1 fl
      else pickNeighbour 2 w false (exp2Go 64 fr (2 ^ 97) (2 ^ 96)) (fl - 96)

/-- The fraction bits of log2 y, most significant first, for y in [1, 2) in units of 2^−192. -/
def log2Go : Nat → Nat → Nat → Nat
  | 0, _, acc => acc
  | k + 1, y, acc =>
    let z := y * y / 2 ^ 192
    if z ≥ 2 ^ 193 then log2Go k (z / 2) (2 * acc + 1) else log2Go k z (2 * acc)

/-- R121, R62: VLOG2 of FP32 bits. Outside [0.5, 2) one of the two neighbours; inside it, a value within 2^−24. -/
def fnLog2 (w : Nat) : Nat × NumEv :=
  match (readLong .fp32 w).1 with
  | .nan => (nanCode .fp32, evNone)
  | .inf s => if s then (nanCode .fp32, ⟨0, 0, 1⟩) else (infCode .fp32 false, evNone)
  | .fin s m e =>
    if m = 0 then (infCode .fp32 true, ⟨1, 0, 0⟩)
    else if s then (nanCode .fp32, ⟨0, 0, 1⟩)
    else
      let n := floorLog2 m e
      if m = 2 ^ Nat.log2 m then
        roundFin .fp32 .rne 0 (decide (n < 0)) n.natAbs 0
      else
        -- log2 in units of 2^-80
        let r : Int := n * (2 ^ 80 : Nat) + log2Go 80 (m * 2 ^ 192 / 2 ^ Nat.log2 m) 0
        if n = 0 ∨ n = -1 then
          let o : Int := (Config.fnOffset w % (2 ^ 57 + 1) : Nat)
          let v : Int := r - (2 ^ 56 : Nat) + o
          let mag := v.natAbs
          if mag = 0 then (zeroCode .fp32 false, evNone)
          else
            let ue := floorLog2 mag (-80) - 23
            let t := roundAt .rtz 0 mag (-80) ue
            let up : Bool := decide (v.natAbs ≤ r.natAbs) && decide (mag % 2 ^ (ue + 80).toNat ≠ 0)
            roundFin .fp32 .rtz 0 (decide (v < 0)) (if up then t + 1 else t) ue
        else pickNeighbour 3 w (decide (r < 0)) r.natAbs (-80)

end Sys2Proof.Machine
end

