-- ==== Sys2Proof/Machine/VectorUnit.lean ====
section
/-! DEFINITION. The vector slot (spec/04_tile_engines.md R118 to R126): register forms, memory forms, the vector port,
prescan and digest. -/

namespace Sys2Proof.Machine

/-- The draw of an operation's element (R60, R61): stream from SC[SSEL] at issue (R108), step and micro-batch of the
tile. -/
def tileDraw (t : Tile) (ssel elem : Nat) : Nat := rngDraw t.seed (scGet t ssel) t.step t.mb elem

/-- The claims and changes of SINC (R108) and of PINC on two address registers (R107, R118). -/
def sincClaims (t : Tile) (ssel : Nat) (on : Bool) : List (Nat × RegName) :=
  if on then [(t.cyc + 1, .sc ssel)] else []

/-- R108: SC[SSEL] is increased by 1 in cycle t + 1. -/
def addSinc (t : Tile) (ssel : Nat) (on : Bool) : Tile :=
  if on then addDue t (t.cyc + 1) (.sc ssel (scGet t ssel + 1)) else t

/-- R118: the post-increment of ADE and ADS, once where they name one register. -/
def pincRegs (f : VMem) : List Nat :=
  if f.pinc then (if f.ade = f.ads then [f.ade.val] else [f.ade.val, f.ads.val]) else []

/-- The claims of a memory form's increments. -/
def memClaims (t : Tile) (f : VMem) : List (Nat × RegName) :=
  (pincRegs f).map (fun n => (t.cyc + 1, .ad n)) ++ sincClaims t f.ssel.val f.sinc

/-- The changes of a memory form's increments. -/
def memIncs (t : Tile) (f : VMem) : Tile :=
  addSinc ((pincRegs f).foldl (fun t n => addPinc t n true) t) f.ssel.val f.sinc

/-- Writing a lane list to VD with latency L, its counts in the same cycle (R119). -/
def regResult (t : Tile) (f : VReg) (lat : Nat) (lanes : List Nat) (ev : NumEv) : Except TFault Tile := do
  let t1 ← claimAll t ((t.cyc + lat, .v f.vd.val) :: sincClaims t f.ssel.val f.sinc)
  .ok (addEv (addSinc (addDue t1 (t.cyc + lat) (.v f.vd.val (lanesOf (lanes.map (BitVec.ofNat 32))))) f.ssel.val f.sinc)
    (t.cyc + lat) ev)

/-- An operation of two exact values: sum. -/
def opAdd (a b _c : XVal) : XVal × Nat := xAdd a b

/-- An operation of two exact values: difference. -/
def opSub (a b _c : XVal) : XVal × Nat := xAdd a (xNeg b)

/-- An operation of two exact values: product. -/
def opMul (a b _c : XVal) : XVal × Nat := xMul a b

/-- The fused multiply-add: the exact product, then the exact sum (R120). -/
def opFma (a b c : XVal) : XVal × Nat :=
  let p := xMul a b
  if a = .nan ∨ b = .nan ∨ c = .nan then (.nan, 0)
  else if p.1 = .nan then p
  else xAdd p.1 c

/-- R120: one lane of VADD, VSUB, VMUL or VFMA. uses says how many operands the operation reads (R44). -/
def arithLane (op : XVal → XVal → XVal → XVal × Nat) (uses : Nat) (rm : RMode) (r : Nat) (a b c : Word) : Nat × NumEv :=
  let x := readF32 a
  let y := readF32 b
  let z := readF32 c
  let v := op x.1 y.1 z.1
  let w := writeLong .fp32 rm r v.1
  let fl := x.2 + y.2 + (if uses = 3 then z.2 else 0)
  (w.1, evAdd w.2 ⟨0, fl, v.2⟩)

/-- R120: issuing a lane-wise arithmetic operation. -/
def issueArith (op : XVal → XVal → XVal → XVal × Nat) (uses : Nat) (t : Tile) (f : VReg) : Except TFault Tile :=
  match rmodeOf f.rmode.val with
  | none => .ok t
  | some rm =>
    let a := vLanes t f.va.val
    let b := vLanes t f.vb.val
    let c := vLanes t f.vc.val
    let rs := (List.range 64).map (fun i =>
      arithLane op uses rm (tileDraw t f.ssel.val i) (a.getD i 0) (b.getD i 0) (c.getD i 0))
    regResult t f 4 (rs.map (·.1)) (rs.foldl (fun e x => evAdd e x.2) evNone)

/-- R120: the larger (or smaller) of two FP32 words; NaN if either is, +0 above −0. -/
def pickLane (wantMax : Bool) (a b : Word) : Nat :=
  let x := (readF32 a).1
  let y := (readF32 b).1
  match x, y with
  | .nan, _ => nanCode .fp32
  | _, .nan => nanCode .fp32
  | _, _ =>
    let less := xLt x y || (!xLt y x && a.msb && !b.msb)
    (writeLong .fp32 .rne 0 (if less == wantMax then y else x)).1

/-- R120: issuing VMAX or VMIN. -/
def issuePick (wantMax : Bool) (t : Tile) (f : VReg) : Except TFault Tile :=
  let a := vLanes t f.va.val
  let b := vLanes t f.vb.val
  regResult t f 4 ((List.range 64).map (fun i => pickLane wantMax (a.getD i 0) (b.getD i 0))) evNone

/-- R119: VMOV. -/
def issueVmov (t : Tile) (f : VReg) : Except TFault Tile :=
  regResult t f 1 ((vLanes t f.va.val).map BitVec.toNat) evNone

/-- R119, R44, R46: VBCAST; one flush for a subnormal pattern, and a NaN becomes the canonical one. -/
def issueVbcast (t : Tile) (f : VReg) : Except TFault Tile :=
  let w := scGet t f.va.val
  let x := readF32 w
  let v := if x.1 = .nan then nanCode .fp32 else if x.2 = 0 then w.toNat else zeroCode .fp32 w.msb
  regResult t f 1 (List.replicate 64 v) ⟨0, x.2, 0⟩

/-- The flags and exact sum of a lane list (R120, R63). -/
def sumLanes (xs : List XVal) : XVal × Nat :=
  if xs.any (fun x => x == .nan) then
    (.nan, b2n (xs.any (fun x => x == .inf false) && xs.any (fun x => x == .inf true)))
  else if xs.any (fun x => x == .inf false) && xs.any (fun x => x == .inf true) then (.nan, 1)
  else if xs.any (fun x => x == .inf false) then (.inf false, 0)
  else if xs.any (fun x => x == .inf true) then (.inf true, 0)
  else
    let s := xs.foldl (fun acc x => (xAdd acc x).1) (.fin true 0 0)
    match s with
    | .fin _ 0 _ => (.fin false 0 0, 0)
    | _ => (s, 0)

/-- R120: VRSUM; exact sum of the lanes, rounded once, element index 0. -/
def issueVrsum (t : Tile) (f : VReg) : Except TFault Tile :=
  match rmodeOf f.rmode.val with
  | none => .ok t
  | some rm =>
    let xs := (vLanes t f.va.val).map readF32
    let s := sumLanes (xs.map (·.1))
    let w := writeLong .fp32 rm (tileDraw t f.ssel.val 0) s.1
    regResult t f 8 (List.replicate 64 w.1) (evAdd w.2 ⟨0, xs.foldl (fun n x => n + x.2) 0, s.2⟩)

/-- R120: VRMAX; the maximum of the lanes in every lane. -/
def issueVrmax (t : Tile) (f : VReg) : Except TFault Tile :=
  let l := vLanes t f.va.val
  let m := l.foldl (fun acc x => pickLane true (BitVec.ofNat 32 acc) x) (l.getD 0 0).toNat
  regResult t f 6 (List.replicate 64 m) evNone

/-- R121: issuing a function operation; RMODE must be 0. -/
def issueFn (fn : Nat → Nat × NumEv) (t : Tile) (f : VReg) : Except TFault Tile :=
  if f.rmode.val ≠ 0 then .ok t
  else
    let rs := (vLanes t f.va.val).map (fun w =>
      let r := fn w.toNat
      (r.1, evAdd r.2 ⟨0, (readF32 w).2, 0⟩))
    regResult t f 10 (rs.map (·.1)) (rs.foldl (fun e x => evAdd e x.2) evNone)

/-- R126: claiming a vector port cycle and scheduling its transfer. -/
def portClaim (t : Tile) (c : Nat) (p : VPort) : Except TFault Tile :=
  if t.vclaim.contains c then .error (.code 0x07)
  else .ok { t with vclaim := c :: t.vclaim, vport := t.vport ++ [(c, p)] }

/-- R119, R125: VLD; aligned to 64, a long format, the result at t + 3. -/
def issueVld (t : Tile) (f : VMem) : Except TFault Tile :=
  match fmtOfCode f.fmt.val with
  | none => .ok t
  | some fmt =>
    let a := (adGet t f.ade.val).addr.toNat
    if fmtIsMx fmt then .ok t
    else if a % 64 ≠ 0 then .error (.code 0x09)
    else do
      let t1 ← claimAll t ((t.cyc + 3, .v f.v.val) :: memClaims t f)
      let t2 ← portClaim t1 t.cyc (.load f.v.val fmt a)
      .ok (memIncs t2 f)

/-- R119, R125: VST; rounded under RMODE, the write at t + 2, counted there. -/
def issueVst (t : Tile) (f : VMem) : Except TFault Tile :=
  match fmtOfCode f.fmt.val, rmodeOf f.rmode.val with
  | some fmt, some rm =>
    let a := (adGet t f.ade.val).addr.toNat
    if fmtIsMx fmt then .ok t
    else if a % 64 ≠ 0 then .error (.code 0x09)
    else do
      let rs := (vLanes t f.v.val).zipIdx.map (fun x =>
        let y := readF32 x.1
        let w := writeLong fmt rm (tileDraw t f.ssel.val x.2) y.1
        (w.1, evAdd w.2 ⟨0, y.2, 0⟩))
      let t1 ← claimAll t (memClaims t f)
      let t2 ← portClaim t1 (t.cyc + 2) (.store a (rs.flatMap (fun r => leBytes (fmtWidth fmt / 8) r.1)))
      .ok (addEv (memIncs t2 f) (t.cyc + 2) (rs.foldl (fun e x => evAdd e x.2) evNone))
  | _, _ => .ok t

/-- R122: VQNT; two blocks, elements at ADE and scales at ADS, written at t + 3 and counted there. -/
def issueVqnt (t : Tile) (f : VMem) : Except TFault Tile :=
  match fmtOfCode f.fmt.val, rmodeOf f.rmode.val with
  | some fmt, some rm =>
    let a := (adGet t f.ade.val).addr.toNat
    if !fmtIsMx fmt then .ok t
    else if a % 16 ≠ 0 then .error (.code 0x09)
    else do
      let xs := (vLanes t f.v.val).map readF32
      let blk := fun b => quantBlock fmt rm (fun i => tileDraw t f.ssel.val (32 * b + i))
        (((xs.drop (32 * b)).take 32).map (·.1))
      let q0 := blk 0
      let q1 := blk 1
      let t1 ← claimAll t (memClaims t f)
      let t2 ← portClaim t1 (t.cyc + 3)
        (.store2 a (packCodes fmt (q0.codes ++ q1.codes)) (adGet t f.ads.val).addr.toNat
          [BitVec.ofNat 8 q0.scale, BitVec.ofNat 8 q1.scale])
      .ok (addEv (memIncs t2 f) (t.cyc + 3)
        (evAdd (evAdd q0.ev q1.ev) ⟨0, xs.foldl (fun n x => n + x.2) 0, 0⟩))
  | _, _ => .ok t

/-- R122: VDQT; reads at t, the result and its counts at t + 4. -/
def issueVdqt (t : Tile) (f : VMem) : Except TFault Tile :=
  match fmtOfCode f.fmt.val with
  | none => .ok t
  | some fmt =>
    let a := (adGet t f.ade.val).addr.toNat
    if !fmtIsMx fmt then .ok t
    else if a % 16 ≠ 0 then .error (.code 0x09)
    else do
      let t1 ← claimAll t ((t.cyc + 4, .v f.v.val) :: memClaims t f)
      let t2 ← portClaim t1 t.cyc (.dequant f.v.val fmt a (adGet t f.ads.val).addr.toNat)
      .ok (memIncs t2 f)

/-- R123: VSCAN; reads at t; with FIN the result is written to SC[V] at t + 4. -/
def issueVscan (t : Tile) (f : VMem) : Except TFault Tile :=
  match fmtOfCode f.fmt.val with
  | none => .ok t
  | some fmt => do
    let t1 ← claimAll t ((if f.fin then [(t.cyc + 4, RegName.sc f.v.val)] else []) ++ memClaims t f)
    let t2 ← portClaim t1 t.cyc
      (.scan f.v.val fmt (adGet t f.ade.val).addr.toNat (adGet t f.ads.val).addr.toNat f.fin)
    .ok (memIncs t2 f)

/-- R124: the sum of the 64 contributions of a VDIG. -/
def digSum (t : Tile) (f : VMem) : DWord :=
  (vLanes t f.v.val).zipIdx.foldl (fun acc x =>
    acc + rng t.digKey x.1 0 0 (64 * (scGet t f.ssel.val).toNat + x.2)) 0

/-- R124: VDIG adds its sum in cycle t + 6. -/
def issueVdig (t : Tile) (f : VMem) : Except TFault Tile := do
  let t1 ← claimAll t (memClaims t f)
  .ok (memIncs (addDue t1 (t.cyc + 6) (.digAdd (digSum t f))) f)

/-- One operation of the vector slot. -/
def issueVec (t : Tile) (o : VecOp) : Except TFault Tile :=
  match o with
  | .nop => .ok t
  | .vmov f => issueVmov t f
  | .vbcast f => issueVbcast t f
  | .vadd f => issueArith opAdd 2 t f
  | .vsub f => issueArith opSub 2 t f
  | .vmul f => issueArith opMul 2 t f
  | .vfma f => issueArith opFma 3 t f
  | .vmax f => issuePick true t f
  | .vmin f => issuePick false t f
  | .vrsum f => issueVrsum t f
  | .vrmax f => issueVrmax t f
  | .vexp2 f => issueFn fnExp2 t f
  | .vlog2 f => issueFn fnLog2 t f
  | .vrcp f => issueFn fnRcp t f
  | .vrsq f => issueFn fnRsq t f
  | .vld f => issueVld t f
  | .vst f => issueVst t f
  | .vqnt f => issueVqnt t f
  | .vdqt f => issueVdqt t f
  | .vscan f => issueVscan t f
  | .vdig f => issueVdig t f

/-- R123: the elements a VSCAN reads. -/
def scanCount (f : Fmt) : Nat :=
  if fmtIsMx f then 256 else if f = .fp32 then 64 else 128

/-- The accesses of a vector port transfer (R119, R126): element bytes, then scale bytes. -/
def vportAccess (p : VPort) : List Access :=
  match p with
  | .load _ f a => [⟨2, a, fmtBytes f 64, false⟩]
  | .dequant _ f ea sa => [⟨2, ea, fmtBytes f 64, false⟩, ⟨2, sa, 2, false⟩]
  | .scan _ f ea sa _ =>
    ⟨2, ea, fmtBytes f (scanCount f), false⟩ :: (if fmtIsMx f then [⟨2, sa, 8, false⟩] else [])
  | .store a d => [⟨2, a, d.length, true⟩]
  | .store2 a d sa sc => [⟨2, a, d.length, true⟩, ⟨2, sa, sc.length, true⟩]

/-- R123: the largest bound T of the finite nonzero elements a VSCAN reads; long subnormals are skipped. -/
def scanT (t : Tile) (f : Fmt) (ea sa : Nat) : List Int :=
  let n := scanCount f
  let bs := spadRead t ea (fmtBytes f n)
  let sc := spadRead t sa 8
  (List.range n).filterMap (fun i =>
    let e := (decodeElem f (elemCode f bs i) (sc.getD (i / 32) 127#8).toNat).1
    if e.cls = .finite ∧ e.n ≠ 0 then some (elemT e) else none)

/-- The effect of a vector port transfer in its cycle. -/
def vportDo (t : Tile) (p : VPort) : Tile :=
  match p with
  | .load v f a =>
    let bs := spadRead t a (fmtBytes f 64)
    let rs := (List.range 64).map (fun i =>
      let x := readLong f (elemCode f bs i)
      ((writeLong .fp32 .rne 0 x.1).1, x.2))
    addEv (addDue t (t.cyc + 3) (.v v (lanesOf (rs.map (fun r => BitVec.ofNat 32 r.1))))) (t.cyc + 3)
      ⟨0, rs.foldl (fun n r => n + r.2) 0, 0⟩
  | .dequant v f ea sa =>
    let bs := spadRead t ea (fmtBytes f 64)
    let sc := spadRead t sa 2
    let rs := (List.range 64).map (fun i =>
      writeLong .fp32 .rne 0 (xOfElem (decodeElem f (elemCode f bs i) (sc.getD (i / 32) 127#8).toNat).1))
    addEv (addDue t (t.cyc + 4) (.v v (lanesOf (rs.map (fun r => BitVec.ofNat 32 r.1))))) (t.cyc + 4)
      (rs.foldl (fun e r => evAdd e r.2) evNone)
  | .scan v f ea sa fin =>
    let ts := scanT t f ea sa
    let t1 := match ts with
      | [] => t
      | x :: xs =>
        let m := xs.foldl max x
        { t with scanNone := false, scanMax := if t.scanNone then m else max t.scanMax m }
    if fin then
      addDue { t1 with scanNone := true, scanMax := 0 } (t.cyc + 4)
        (.sc v (if t1.scanNone then 0x80000000#32 else BitVec.ofInt 32 t1.scanMax))
    else t1
  | .store a d => spadWrite t a d
  | .store2 a d sa sc => spadWrite (spadWrite t a d) sa sc

/-- VEC_SCAN (R134). -/
def vecScanWord (t : Tile) : Word := BitVec.ofNat 32 (b2n t.scanNone * 2 ^ 31 + wrapInt 10 t.scanMax)

end Sys2Proof.Machine
end

