-- ==== Sys2Proof/Machine/Decode128.lean ====
section
/-! DEFINITION. The 128-bit words of the program store (spec/04_tile_engines.md R102, R109, R113, R118, R127): decoding a
bundle, and the checks of R130 and R132 that concern one entry on its own. -/

namespace Sys2Proof.Machine

/-- The control slot of a bundle (R109); none for a reserved opcode or field. -/
def decCtl (w : Nat) : Option CtlOp :=
  let f4 := fun lo => Fin.ofNat 16 (bits w lo 4)
  match bits w 26 6 with
  | 0 => some .nop
  | 1 => if bits w 20 2 = 3 then none else
    some (.ldi (f4 22) (Fin.ofNat 4 (bits w 20 2)) (BitVec.ofNat 16 w))
  | 2 => if bits w 10 4 > 10 then none else some (.salu (f4 22) (f4 18) (f4 14) (f4 10))
  | 3 => some (.saddi (f4 22) (f4 18) (BitVec.ofNat 16 w))
  | 4 => some (.adset (Fin.ofNat 32 (bits w 21 5)) (f4 17) (f4 13))
  | 5 => some (.loop (bitAt w 25) (BitVec.ofNat 12 (bits w 13 12)) (BitVec.ofNat 13 w))
  | 6 => some (.jmp (BitVec.ofNat 13 w))
  | 7 => some (.bnz (f4 22) (BitVec.ofNat 13 w))
  | 8 => some (.bown (BitVec.ofNat 16 (bits w 10 16)) (Fin.ofNat 4 (bits w 8 2)))
  | 9 => some (.cclr (BitVec.ofNat 3 w))
  | 10 => if bits w 0 4 > 5 then none else some (.rdsr (f4 22) (f4 0))
  | 11 => some .digclr
  | 12 => some (.event (BitVec.ofNat 16 w))
  | 13 => some .done
  | _ => none

/-- The array slot of a bundle (R113). -/
def decArr (w : Nat) : Option ArrOp :=
  let didx := BitVec.ofNat 13 (bits w 15 13)
  match bits w 28 4 with
  | 0 => some .nop
  | 1 => some (.wload didx)
  | 2 => some (.stream didx (Fin.ofNat 8 (bits w 12 3)) (bitAt w 11) (bitAt w 10) (Fin.ofNat 16 (bits w 6 4)))
  | 3 => some (.drain didx)
  | 4 => if bits w 21 7 > bits w 14 7 then none else
    some (.aclr (Fin.ofNat 128 (bits w 21 7)) (Fin.ofNat 128 (bits w 14 7)))
  | 5 => if bits w 25 2 = 3 then none else some (.mode (bitAt w 27) (Fin.ofNat 4 (bits w 25 2)))
  | _ => none

/-- The register form of the vector slot (R118). -/
def decVReg (w : Nat) : VReg :=
  let f4 := fun lo => Fin.ofNat 16 (bits w lo 4)
  ⟨f4 30, f4 26, f4 22, f4 18, Fin.ofNat 4 (bits w 16 2), f4 12, bitAt w 11⟩

/-- The memory form of the vector slot (R118). -/
def decVMem (w : Nat) : VMem :=
  let f4 := fun lo => Fin.ofNat 16 (bits w lo 4)
  ⟨f4 30, Fin.ofNat 32 (bits w 25 5), Fin.ofNat 32 (bits w 20 5), f4 16, Fin.ofNat 4 (bits w 14 2), f4 10, bitAt w 9,
   bitAt w 8, bitAt w 7⟩

/-- R132: a vector memory operation's FMT must be one it takes. -/
def fmtLong (f : VMem) : Bool :=
  match fmtOfCode f.fmt.val with
  | some x => !fmtIsMx x
  | none => false

/-- R132: an MX format. -/
def fmtMx (f : VMem) : Bool :=
  match fmtOfCode f.fmt.val with
  | some x => fmtIsMx x
  | none => false

/-- The vector slot of a bundle (R119); none for a reserved opcode, format, or RMODE. -/
def decVec (w : Nat) : Option VecOp :=
  let r := decVReg w
  let m := decVMem w
  let arith := fun (o : VecOp) => if r.rmode.val = 3 then none else some o
  let fn := fun (o : VecOp) => if r.rmode.val ≠ 0 then none else some o
  let mem := fun (ok : Bool) (o : VecOp) => if ok && decide (m.rmode.val ≠ 3) then some o else none
  match bits w 34 6 with
  | 0x00 => some .nop
  | 0x01 => arith (.vmov r)
  | 0x02 => arith (.vbcast r)
  | 0x04 => arith (.vadd r)
  | 0x05 => arith (.vsub r)
  | 0x06 => arith (.vmul r)
  | 0x07 => arith (.vfma r)
  | 0x08 => arith (.vmax r)
  | 0x09 => arith (.vmin r)
  | 0x0C => arith (.vrsum r)
  | 0x0D => arith (.vrmax r)
  | 0x10 => fn (.vexp2 r)
  | 0x11 => fn (.vlog2 r)
  | 0x12 => fn (.vrcp r)
  | 0x13 => fn (.vrsq r)
  | 0x20 => mem (fmtLong m) (.vld m)
  | 0x21 => mem (fmtLong m) (.vst m)
  | 0x22 => mem (fmtMx m) (.vqnt m)
  | 0x23 => mem (fmtMx m) (.vdqt m)
  | 0x24 => mem (fmtLong m || fmtMx m) (.vscan m)
  | 0x25 => mem (fmtLong m || fmtMx m) (.vdig m)
  | _ => none

/-- The move slot of a bundle (R127). -/
def decMov (w : Nat) : Option MovOp :=
  let ad := Fin.ofNat 32 (bits w 14 5)
  let didx := BitVec.ofNat 13 (bits w 1 13)
  match bits w 19 5 with
  | 0 => some .nop
  | 1 => some (.put ad didx (bitAt w 0))
  | 2 => some (.mreq ad didx (bitAt w 0))
  | 3 => some (.wopen (Fin.ofNat 16 (bits w 15 4)) (BitVec.ofNat 13 (bits w 2 13)))
  | 4 => some (.wclose (Fin.ofNat 16 (bits w 15 4)))
  | 5 => some (.tfull (Fin.ofNat 1024 (bits w 9 10)))
  | 6 => some (.tempty (Fin.ofNat 1024 (bits w 9 10)))
  | 7 => if bits w 2 12 > 2047 then none else some (.pld ad (BitVec.ofNat 12 (bits w 2 12)) (bitAt w 1) (bitAt w 0))
  | _ => none

/-- R102: decoding a bundle; none where a slot holds a reserved opcode or field. -/
def decBundle (w : BitVec 128) : Option Bundle :=
  let n := w.toNat
  match decCtl (bits n 96 32), decArr (bits n 64 32), decVec (bits n 24 40), decMov (bits n 0 24) with
  | some c, some a, some v, some m => some ⟨c, a, v, m⟩
  | _, _, _, _ => none

/-- R130, R132: a bundle for entry i passes the checks that concern one entry: its codes, and LOOP END after it. -/
def bundleOk (i : Nat) (w : BitVec 128) : Bool :=
  match decBundle w with
  | none => false
  | some b =>
    match b.ctl with
    | .loop _ _ stop => decide (i < stop.toNat)
    | _ => true

/-- A window descriptor's fields (R150). -/
def decWindow (w : Nat) : Window :=
  ⟨false, bits w 108 16, bits w 92 16, bitAt w 91, bits w 85 6, bitAt w 84, bitAt w 83, bitAt w 82, bits w 70 12, bits w 58 12⟩

/-- R151: a window descriptor passes its checks. -/
def windowOk (d : Window) : Bool :=
  decide (d.basew ≤ d.lastw) &&
    (if d.tagged then d.basew % 64 == 0 && (d.lastw + 1) % 64 == 0 else d.fillw == 0)

/-- R130, R132, R216: a descriptor passes the checks that concern one entry, for width class wclass, in a partition
that is clustered or not, its target apart. -/
def descOk (wclass : Nat) (clustered : Bool) (w : BitVec 128) : Bool :=
  let n := w.toNat
  let fmt := fmtOfCode (bits n 120 4)
  match bits n 124 4 with
  | 1 => fmt.isSome && decide (bits n 113 7 + bits n 105 8 ≤ wclass)
  | 2 => fmt.isSome && decide (bits n 103 7 + bits n 96 7 ≤ (if bitAt n 51 then 63 else 127))
  | 3 => (match fmt with | some f => !fmtIsMx f | none => false) && decide (bits n 113 7 + bits n 105 8 ≤ 128)
      && decide (bits n 98 7 + bits n 90 8 ≤ wclass) && decide (bits n 88 2 ≠ 3)
  | 4 => true
  | 5 =>
    (match bits n 121 3 with
     | 7 => false
     | 3 => clustered
     | 4 => clustered
     | 6 => decide (bits n 112 3 ≤ 2)
     | _ => true)
  | 6 => windowOk (decWindow n)
  | _ => false

/-- The tile at a logical row and column lies in a field of the mask (R7). -/
def targetIn (fmask row col : Nat) : Bool := fmask.testBit (4 * (row / 16) + col / 16)

/-- R132, R216: the target of a PUT or GETW descriptor lies in a partition of the fields fmask. -/
def descTargetOk (fmask : Nat) (w : BitVec 128) : Bool :=
  let n := w.toNat
  match bits n 124 4 with
  | 4 => targetIn fmask (bits n 119 5) (bits n 113 6)
  | 5 => bits n 121 3 != 2 || targetIn fmask (bits n 67 5) (bits n 61 6)
  | _ => true

end Sys2Proof.Machine
end

