-- ==== Sys2Proof/Machine/MoveSlot.lean ====
section
/-! DEFINITION. The move slot (spec/04_tile_engines.md R127 to R130, spec/05_scratchpad.md R146, R152,
spec/08_memory_tiers.md R216): PUT, MREQ, WOPEN, WCLOSE, TFULL, TEMPTY, PLD. -/

namespace Sys2Proof.Machine

/-- R128: the outbound cycles of an operation are free. -/
def outClaim (t : Tile) (cs : List Nat) : Except TFault Tile :=
  if cs.any (fun c => t.oclaim.contains c) then .error (.code 0x0E) else .ok { t with oclaim := cs ++ t.oclaim }

/-- The claim of a post-increment on AD. -/
def adClaim (t : Tile) (ad : Fin 32) (pinc : Bool) : List (Nat × RegName) :=
  if pinc then [(t.cyc + 1, .ad ad.val)] else []

/-- R127, R129: PUT; words leave in cycles t + 1 to t + NWORDS, the header with the first (R160). me is the tile's own
number. -/
def issuePut (me : Nat) (t : Tile) (ad : Fin 32) (didx : BitVec 13) (pinc : Bool) : Except TFault Tile := do
  let w ← descOf t didx 4
  let n := bits w 81 6 + 1
  let a := (adGet t ad.val).addr.toNat
  let h : InHdr := ⟨bits w 119 5, bits w 113 6, bits w 109 4, bits w 87 22, n, .tile, me⟩
  let t1 ← claimAll t (adClaim t ad pinc)
  let t2 ← outClaim t1 ((List.range n).map (fun i => t.cyc + 1 + i))
  .ok (addPinc { t2 with outq := t2.outq ++ (List.range n).map (fun i =>
      (t.cyc + 1 + i, OutOp.word ((a + 64 * i) % spadSize) (if i = 0 then some h else none))) } ad.val pinc)

/-- R217: the slot direction of a mover operation: in (GET, CGET, MIGRATE), out (PUTM, CPUT, CORD), none (GETW). -/
def mreqDir (op : Nat) : Option Bool :=
  match op with
  | 0 => some true
  | 3 => some true
  | 5 => some true
  | 1 => some false
  | 4 => some false
  | 6 => some false
  | _ => none

/-- R127, R146, R214, R216, R221: MREQ; the descriptor leaves in outbound cycle t + 1, the slot's tag changes at t + 1. -/
def issueMreq (me : Nat) (t : Tile) (ad : Fin 32) (didx : BitVec 13) (pinc : Bool) : Except TFault Tile := do
  let w ← descOf t didx 5
  let a := (adGet t ad.val).addr.toNat
  let n := bits w 115 6 + 1
  if a % 64 ≠ 0 ∨ a % 4096 + 64 * n > 4096 then .error (.code 0x10)
  else do
    let t1 ← claimAll t (adClaim t ad pinc)
    let t2 ← outClaim t1 [t.cyc + 1]
    let slot := a / 4096
    let t3 := { t2 with
      outq := t2.outq ++ [(t.cyc + 1, .request ⟨BitVec.ofNat 128 w, me, a, t.cyc⟩)]
      mreqOut := t2.mreqOut + 1
      loose := { t2.loose with tile := me } }
    let t4 := match mreqDir (bits w 121 3) with
      | some true => addDue { t3 with mreqIn := t3.mreqIn ++ [slot] } (t.cyc + 1) (.mtag slot .empty)
      | some false => addDue { t3 with loose := { t3.loose with sent := t3.loose.sent ++ [slot] } } (t.cyc + 1) (.mtag slot .lent)
      | none => t3
    .ok (addPinc t4 ad.val pinc)

/-- R152: WOPEN installs its descriptor at t + 1. -/
def issueWopen (t : Tile) (win : Fin 16) (didx : BitVec 13) : Except TFault Tile := do
  let w ← descOf t didx 6
  .ok (addDue t (t.cyc + 1) (.wopen win.val (decWindow w)))

/-- R152: WCLOSE closes its window at t + 1. -/
def issueWclose (t : Tile) (win : Fin 16) : Except TFault Tile := .ok (addDue t (t.cyc + 1) (.wclose win.val))

/-- R127: TFULL and TEMPTY change the tag at t + 1. -/
def issueTag (t : Tile) (slot : Fin 1024) (st : TagSt) : Except TFault Tile :=
  .ok (addDue t (t.cyc + 1) (.tag slot.val st))

/-- R127, R130: PLD reads in outbound cycle t + 1 and writes four entries at t + 2. soonPcs are the entries due to issue in
cycles t + 2 to t + 5. -/
def issuePld (soonPcs : List Nat) (fpc : Nat) (t : Tile) (ad : Fin 32) (idx : BitVec 12) (kind pinc : Bool) :
    Except TFault Tile :=
  let e := 4 * idx.toNat
  let a := (adGet t ad.val).addr.toNat
  if idx.toNat > 2047 then .error (.code 0x0B)
  else if soonPcs.any (fun p => decide (e ≤ p) && decide (p < e + 4)) then .error (.code 0x0D)
  else do
    let t1 ← claimAll t (adClaim t ad pinc)
    let t2 ← outClaim t1 [t.cyc + 1]
    .ok (addPinc { t2 with outq := t2.outq ++ [(t.cyc + 1, .pld a e kind fpc)] } ad.val pinc)

/-- R130: the end of a PLD in cycle t + 2, in a partition of the fields fmask: all four entries are checked, and written or refused
whole. -/
def pldWrite (fmask : Nat) (t : Tile) (e : Nat) (kind : Bool) (fpc : Nat) (ws : List (BitVec 128)) : Tile :=
  let ok := ws.zipIdx.all (fun x =>
    if kind then descOk t.arr.wclass (t.meshMode == 2) x.1 && descTargetOk fmask x.1 else bundleOk (e + x.2) x.1)
  if ok then
    { t with store := smSetList pentry0 t.store e (ws.map (fun w => ⟨kind, w⟩)) }
  else tileFault t (.code 0x0B) 3 fpc

/-- What an operation of the move slot tests on slot tags in its issue cycle (R145): the slot and the cause that a block
would record. -/
def movTagTest (t : Tile) (o : MovOp) : List (Nat × Bool) :=
  match o with
  | .tfull s => [(s.val, false)]
  | .tempty s => [(s.val, false)]
  | .wopen _ d =>
    let e := smGet pentry0 t.store d.toNat
    let w := decWindow e.w.toNat
    if e.desc && bits e.w.toNat 124 4 == 6 && w.tagged then (winSlots w).map (fun s => (s, false)) else []
  | .mreq ad d _ =>
    let e := smGet pentry0 t.store d.toNat
    if e.desc && bits e.w.toNat 124 4 == 5 then
      match mreqDir (bits e.w.toNat 121 3) with
      | some dirIn => [((adGet t ad.val).addr.toNat / 4096, !dirIn)]
      | none => []
    else []
  | _ => []

/-- The cause (SPAD_HOLD.CAUSE) and slot of a block on a move operation's tag tests (R145): LENT, or an outbound MREQ on
EMPTY. -/
def movBlocked (t : Tile) (o : MovOp) : Option (Nat × Nat) :=
  (movTagTest t o).findSome? (fun x =>
    match (tagOf t x.1).st with
    | .lent => some (2, x.1)
    | .empty => if x.2 then some (3, x.1) else none
    | .full => none)

end Sys2Proof.Machine
end

