-- ==== Sys2Proof/Machine/Control.lean ====
section
/-! DEFINITION. The control slot and the sequencer (spec/04_tile_engines.md R101, R109 to R112): scalar operations, flow
control, and the prediction of the entries that issue next (R130). -/

namespace Sys2Proof.Machine

/-- Scheduling a scalar result at t + 1 (R109), refused on a write conflict (R103). -/
def scResult (t : Tile) (d : Fin 16) (v : Word) : Except TFault Tile := do
  let t1 ← claimAll t [(t.cyc + 1, .sc d.val)]
  .ok (addDue t1 (t.cyc + 1) (.sc d.val v))

/-- R109: LDI; MODE 3 is reserved and never issues. -/
def issueLdi (t : Tile) (d : Fin 16) (mode : Fin 4) (imm : BitVec 16) : Except TFault Tile :=
  match mode.val with
  | 0 => scResult t d (imm.zeroExtend 32)
  | 1 => scResult t d (imm.signExtend 32)
  | 2 => scResult t d (imm ++ (scGet t d.val).extractLsb' 0 16)
  | _ => .ok t

/-- R109: the scalar functions; FN 11 to 15 are reserved. -/
def saluFn (fn : Nat) (a b : Word) : Option Word :=
  let sh := (b.extractLsb' 0 5).toNat
  match fn with
  | 0 => some (a + b)
  | 1 => some (a - b)
  | 2 => some (a &&& b)
  | 3 => some (a ||| b)
  | 4 => some (a ^^^ b)
  | 5 => some (a <<< sh)
  | 6 => some (a >>> sh)
  | 7 => some (a.sshiftRight sh)
  | 8 => some (if a.slt b then a else b)
  | 9 => some (if a.slt b then b else a)
  | 10 => some (a * b)
  | _ => none

/-- R109: SALU. -/
def issueSalu (t : Tile) (d a b fn : Fin 16) : Except TFault Tile :=
  match saluFn fn.val (scGet t a.val) (scGet t b.val) with
  | some v => scResult t d v
  | none => .ok t

/-- R109: SADDI. -/
def issueSaddi (t : Tile) (d a : Fin 16) (imm : BitVec 16) : Except TFault Tile :=
  scResult t d (scGet t a.val + imm.signExtend 32)

/-- R109: ADSET. -/
def issueAdset (t : Tile) (n : Fin 32) (a b : Fin 16) : Except TFault Tile := do
  let t1 ← claimAll t [(t.cyc + 1, .ad n.val)]
  .ok (addDue t1 (t.cyc + 1)
    (.ad n.val ⟨(scGet t a.val).extractLsb' 0 22, (scGet t b.val).extractLsb' 0 16⟩))

/-- R138: BOWN takes effect at t + 1. -/
def issueBown (t : Tile) (mask : BitVec 16) (port : Fin 4) : Except TFault Tile :=
  .ok (addDue t (t.cyc + 1) (.own mask.toNat port.val))

/-- R109, R68: CCLR clears the selected counters in its cycle, before that cycle's events. -/
def issueCclr (t : Tile) (mask : BitVec 3) : Except TFault Tile :=
  .ok { t with clr := t.clr ||| mask.toNat }

/-- R109: the source of RDSR; SEL 6 to 15 are reserved. -/
def rdsrVal (t : Tile) (sel : Nat) : Option Word :=
  match sel with
  | 0 => some t.numSat
  | 1 => some t.numFlush
  | 2 => some t.numNan
  | 3 => some (twmaxScan t.arr)
  | 4 => some (t.digAcc.extractLsb' 0 32)
  | 5 => some (t.digAcc.extractLsb' 32 32)
  | _ => none

/-- R109: RDSR. -/
def issueRdsr (t : Tile) (d sel : Fin 16) : Except TFault Tile :=
  match rdsrVal t sel.val with
  | some v => scResult t d v
  | none => .ok t

/-- R109, R124: DIGCLR clears from t + 1. -/
def issueDigclr (t : Tile) : Except TFault Tile := .ok (addDue t (t.cyc + 1) .digClr)

/-- R109, R134: EVENT posts its code and records it. -/
def issueEvent (t : Tile) (code : BitVec 16) : Except TFault Tile :=
  .ok { t with
    evCode := code
    evCount := min (t.evCount + 1) 0xFFFF
    notices := t.notices ++ [.event code.toNat (min (t.evCount + 1) 0xFFFF)] }

/-- R111, R203: DONE; nothing more issues, CLK_DONE records the cycle, Kiln is notified. -/
def issueDone (t : Tile) : Except TFault Tile :=
  .ok { t with doneIss := true, doneAt := some t.cyc, notices := t.notices ++ [.done] }

/-- R110: leaving active loop bodies by a taken branch: only to END + 1 of the body left. -/
def unwind (target : Nat) : List LoopLv → Option (List LoopLv)
  | [] => some []
  | l :: ls =>
    if l.start ≤ target ∧ target ≤ l.stop then some (l :: ls)
    else if target = l.stop + 1 then unwind target ls
    else none

/-- R110: after the entry at pc, the loops that end there iterate or end: the next entry and the loop stack. -/
def loopStep (pc : Nat) : List LoopLv → Nat × List LoopLv
  | [] => (pc + 1, [])
  | l :: ls =>
    if pc = l.stop then
      if l.left > 1 then (l.start, { l with left := l.left - 1 } :: ls) else loopStep pc ls
    else (pc + 1, l :: ls)

/-- Where the sequencer goes after the entry at pc (R110): the next entry, whether t + 1 is a bubble, the loop stack; none
is a LOOP fault. taken and count are the branch outcome and the loop count. -/
def flowNext (pc : Nat) (loops : List LoopLv) (o : CtlOp) (taken : Bool) (count : Nat) :
    Option (Nat × Bool × List LoopLv) :=
  match o with
  | .jmp target => (unwind target.toNat loops).map (fun l => (target.toNat, true, l))
  | .bnz _ target =>
    if taken then (unwind target.toNat loops).map (fun l => (target.toNat, true, l))
    else
      let n := loopStep pc loops
      some (n.1, false, n.2)
  | .loop _ _ stop =>
    if count = 0 then some (stop.toNat + 1, true, loops)
    else if loops.length = 4 then none
    else some (pc + 1, false, ⟨pc + 1, stop.toNat, count⟩ :: loops)
  | _ =>
    let n := loopStep pc loops
    some (n.1, false, n.2)

/-- R109: the count of a LOOP: CNT + 1, or SC[CNT[3:0]]. -/
def loopCount (t : Tile) (csrc : Bool) (cnt : BitVec 12) : Nat :=
  if csrc then (scGet t (cnt.toNat % 16)).toNat else cnt.toNat + 1

/-- The branch outcome of a control operation on this tile's registers. -/
def ctlTaken (t : Tile) (o : CtlOp) : Bool :=
  match o with
  | .bnz a _ => decide (scGet t a.val ≠ 0)
  | _ => true

/-- The loop count of a control operation on this tile's registers. -/
def ctlCount (t : Tile) (o : CtlOp) : Nat :=
  match o with
  | .loop c n _ => loopCount t c n
  | _ => 0

/-- The state of the sequencer after a flow operation (R110). -/
def setFlow (t : Tile) (n : Nat × Bool × List LoopLv) : Tile :=
  { t with pc := n.1, loops := n.2.2, fetchAt := t.cyc + (if n.2.1 then 2 else 1) }

/-- R110, R180: issuing JMP, BNZ or LOOP: the sequencer moves; in a ganged head a BNZ or a register LOOP resolves here and
the fetch goes on at t + 2. -/
def issueFlow (pc : Nat) (t : Tile) (o : CtlOp) : Except TFault Tile :=
  match flowNext pc t.loops o (ctlTaken t o) (ctlCount t o) with
  | some n => .ok (setFlow t n)
  | none => .error (.code 0x0A)

/-- One operation of the control slot other than flow control. -/
def issueCtl (pc : Nat) (t : Tile) (o : CtlOp) : Except TFault Tile :=
  match o with
  | .nop => .ok t
  | .ldi d m i => issueLdi t d m i
  | .salu d a b f => issueSalu t d a b f
  | .saddi d a i => issueSaddi t d a i
  | .adset n a b => issueAdset t n a b
  | .loop c n s => issueFlow pc t (.loop c n s)
  | .jmp x => issueFlow pc t (.jmp x)
  | .bnz a x => issueFlow pc t (.bnz a x)
  | .bown m p => issueBown t m p
  | .cclr m => issueCclr t m
  | .rdsr d s => issueRdsr t d s
  | .digclr => issueDigclr t
  | .event c => issueEvent t c
  | .done => issueDone t

/-- JMP, BNZ and LOOP (R110). -/
def isFlow (o : CtlOp) : Bool :=
  match o with
  | .loop _ _ _ => true
  | .jmp _ => true
  | .bnz _ _ => true
  | _ => false

/-- R101: the sequencer follows a bundle that holds no flow operation. -/
def stepOn (pc : Nat) (t : Tile) : Tile :=
  let n := loopStep pc t.loops
  { t with pc := n.1, loops := n.2, fetchAt := t.cyc + 1 }

/-- What a bundle's control and vector slots do to the sequencer and the scalar registers: the prediction of R130. An operation that
would be refused ends it. -/
def foresee (t : Tile) (b : Bundle) : Tile :=
  let t1 := if isFlow b.ctl then t else stepOn t.pc t
  match issueCtl t.pc t1 b.ctl with
  | .error _ => { t1 with doneIss := true }
  | .ok t2 =>
    match issueVec t2 b.vec with
    | .error _ => { t2 with doneIss := true }
    | .ok t3 => t3

/-- R130: the entries due to issue in the next n cycles; none where nothing issues. -/
def upcoming (t : Tile) : Nat → List (Option Nat)
  | 0 => []
  | n + 1 =>
    let u := settleDue { t with cyc := t.cyc + 1 }
    if u.doneIss then []
    else if u.cyc < u.fetchAt then none :: upcoming u n
    else
      let e := smGet pentry0 u.store u.pc
      some u.pc :: (if e.desc || decide (8191 < u.pc) then []
        else match decBundle e.w with
          | none => []
          | some b => upcoming (foresee u b) n)

/-- R130: the entries due to issue in cycles t + 2 to t + 5, seen after the issue of the other slots of cycle t; in a ganged core they have
been broadcast (R179). -/
def soonEntries (t : Tile) : List Nat :=
  if t.doneIss then []
  else if t.meshMode = 1 then
    (t.iq.filter (fun i => decide (t.cyc + 2 ≤ i.cyc) && decide (i.cyc ≤ t.cyc + 5) && i.ent.isSome)).map (·.pc)
  else ((upcoming t 5).drop 1).filterMap id

/-- One operation of the move slot. -/
def issueMov (me pc : Nat) (t : Tile) (o : MovOp) : Except TFault Tile :=
  match o with
  | .nop => .ok t
  | .put a d p => issuePut me t a d p
  | .mreq a d p => issueMreq me t a d p
  | .wopen w d => issueWopen t w d
  | .wclose w => issueWclose t w
  | .tfull s => issueTag t s .full
  | .tempty s => issueTag t s .empty
  | .pld a i k p => issuePld (soonEntries t) pc t a i k p

/-- R131: the result of one slot: a refused operation changes nothing but the record of its fault. -/
def slotResult (t : Tile) (slot fpc : Nat) (r : Except TFault Tile) : Tile :=
  match r with
  | .ok t1 => t1
  | .error f => tileFault t f slot fpc

end Sys2Proof.Machine
end

