-- ==== Sys2Proof/Machine/MeshUnit.lean ====
section
/-! DEFINITION. The tile's mesh ports (spec/06_die_mesh_and_groupings.md R160 to R168): route words, forwarding, local
delivery, route faults, and the delivery queues. -/

namespace Sys2Proof.Machine

/-- The number of a direction as the register fields give it (R184): N 0, E 1, S 2, W 3, X 4. -/
def dirNum (d : Dir) : Nat :=
  match d with
  | .n => 0 | .e => 1 | .s => 2 | .w => 3 | .x => 4

/-- All five inputs in register order. -/
def allDirs : List Dir := [.n, .e, .s, .w, .x]

/-- The four mesh directions. -/
def meshDirs : List Dir := [.n, .e, .s, .w]

/-- The direction at the receiving neighbour. -/
def dirOpp (d : Dir) : Dir :=
  match d with
  | .n => .s | .e => .w | .s => .n | .w => .e | .x => .x

/-- R164: the route period. -/
def rplen (t : Tile) : Nat := 16 * (t.rper + 1)

/-- R164: the route word that governs logical cycle c. -/
def routeWord (t : Tile) (c : Nat) : Nat := (smGet 0 t.routes (c % rplen t)).toNat

/-- R165: the source code of quarter q of an output. -/
def outSrc (w : Nat) (d : Dir) (q : Nat) : Nat :=
  let lo := match d with
    | .n => 108 | .e => 96 | .s => 84 | .w => 72 | .x => 60
  bits w (lo + 3 * q) 3

/-- R165: the LOCAL field of an input: the quarter delivered, where enabled. -/
def locQuarter (w : Nat) (d : Dir) : Option Nat :=
  let f := match d with
    | .n => bits w 57 3 | .e => bits w 54 3 | .s => bits w 51 3 | .w => bits w 48 3 | .x => bits w 45 3
  if f ≥ 4 then some (f % 4) else none

/-- A quarter of a flit. -/
def flitQ (f : Flit) (q : Nat) : Option MWord :=
  match q with
  | 0 => f.q0
  | 1 => f.q1
  | 2 => f.q2
  | _ => f.q3

/-- An empty flit for a consume cycle (R195). -/
def emptyFlit (c : Nat) : Flit := ⟨c, none, none, none, none⟩

/-- The flits at an input: those in its buffer, and at an edge port, whose input flit is always present (R175, R197), also those
still in its dual-clock queue. -/
def inQueue (t : Tile) (d : Dir) : List Flit :=
  smGet [] t.inbuf (dirNum d) ++ (match d with
    | .x => smGet [] t.wire (dirNum .x)
    | _ => [])

/-- The flit an input consumes in cycle c. -/
def inFlit (t : Tile) (d : Dir) (c : Nat) : Flit := ((inQueue t d).find? (fun f => f.cyc == c)).getD (emptyFlit c)

/-- R179: the bundle in the issue quarter of the flit that an input consumes in the cycle in progress. -/
def issueIn (t : Tile) (d : Dir) : Option IssueSlot :=
  match (inFlit t d t.cyc).q3 with
  | some (.bundle i) => some i
  | _ => none

/-- R179: the bundle that reaches a member of a ganged core in the cycle in progress. -/
def gangIn (t : Tile) : Option IssueSlot := if t.meshMode = 1 then meshDirs.findSome? (issueIn t) else none

/-- R179: the issue tree: the head sends its bundle every way; along the head's row it goes straight on, and north and south; along a
column it goes straight on. own is the head's bundle. -/
def gangOut (t : Tile) (own : Option IssueSlot) (d : Dir) : Option IssueSlot :=
  match own with
  | some i => some i
  | none =>
    match issueIn t (dirOpp d) with
    | some i => some i
    | none =>
      match d with
      | .n => (issueIn t .e).or (issueIn t .w)
      | .s => (issueIn t .e).or (issueIn t .w)
      | _ => none

/-- A source code's input (R165). -/
def srcDir (c : Nat) : Option Dir :=
  match c with
  | 1 => some .n
  | 2 => some .e
  | 3 => some .s
  | 4 => some .w
  | 5 => some .x
  | _ => none

/-- R166: the word of quarter q of an output: its source input's word in the same quarter, or the outbound word. -/
def outWord (t : Tile) (w : Nat) (tw : Option MWord) (d : Dir) (q : Nat) : Option MWord :=
  let c := outSrc w d q
  if c = 6 then tw
  else
    match srcDir c with
    | some i => flitQ (inFlit t i t.cyc) q
    | none => none

/-- The flit of an output, consumed by the neighbour four logical cycles later (R161); tree is the bundle that the issue quarter
carries (R179). -/
def outFlit (t : Tile) (w : Nat) (tw : Option MWord) (tree : Option IssueSlot) (d : Dir) : Flit :=
  ⟨t.cyc + 4, outWord t w tw d 0, outWord t w tw d 1, outWord t w tw d 2,
    match tree with
    | some i => some (.bundle i)
    | none => outWord t w tw d 3⟩

/-- Some output selects input i in quarter q. -/
def outSelects (w : Nat) (i q : Nat) : Bool := allDirs.any (fun d => outSrc w d q == i + 1)

/-- A word addressed to the tile with number me (its own header, or no header at all). -/
def headerFor (me : Nat) (m : MWord) : Bool :=
  match m with
  | .first h _ => 64 * h.trow + h.tcol == me
  | _ => true

/-- A bundle of the issue quarter, which the route program does not touch (R179). -/
def isBundle (m : MWord) : Bool :=
  match m with
  | .bundle _ => true
  | _ => false

/-- A mover request. -/
def isRequest (m : MWord) : Bool :=
  match m with
  | .request _ => true
  | _ => false

/-- R168: the first route fault of the cycle: cause, port and quarter. -/
def routeFault (me : Nat) (t : Tile) (w : Nat) (tw : Option MWord) : Option (Nat × Nat × Nat) :=
  let unsel := allDirs.findSome? (fun d => (List.range 4).findSome? (fun q =>
    match flitQ (inFlit t d t.cyc) q with
    | some m =>
      if isBundle m || outSelects w (dirNum d) q || locQuarter w d == some q then none else some (0, dirNum d, q)
    | none => none))
  let unrouted := if tw.isSome && !(allDirs.any (fun d => (List.range 4).any (fun q => outSrc w d q == 6))) then
      some (1, 5, 0)
    else none
  let wrong := allDirs.findSome? (fun d =>
    match locQuarter w d with
    | some q =>
      match flitQ (inFlit t d t.cyc) q with
      | some m => if isRequest m then some (3, dirNum d, q) else if headerFor me m then none else some (2, dirNum d, q)
      | none => none
    | none => none)
  let edge := (List.range 4).findSome? (fun q =>
    match outWord t w tw .x q with
    | some m => if isRequest m then none else some (4, 4, q)
    | none => none)
  match unsel with
  | some x => some x
  | none =>
    match unrouted with
    | some x => some x
    | none =>
      match wrong with
      | some x => some x
      | none => edge

/-- R168: recording a route fault. -/
def recordRoute (t : Tile) (f : Nat × Nat × Nat) : Tile :=
  tileFault { t with
    rfOn := true
    rfCause := f.1
    rfPort := f.2.1
    rfQ := f.2.2
    rfIdx := t.cyc % rplen t } (.code 0x0F) 0 0

/-- R166: the word a LOCAL field delivers from an input's flit, unless it was taken already while the tile held. -/
def localWord (me : Nat) (t : Tile) (d : Dir) (f : Flit) : Option MWord :=
  match locQuarter (routeWord t f.cyc) d with
  | some q =>
    match flitQ f q with
    | some m =>
      if isRequest m || !headerFor me m || t.early.contains (dirNum d, f.cyc) then none else some m
    | none => none
  | none => none

/-- Pushing a word into a delivery queue (R167). -/
def pushDq (t : Tile) (d : Dir) (m : MWord) : Tile :=
  { t with dq := smSet [] t.dq (dirNum d) (smGet [] t.dq (dirNum d) ++ [m]) }

/-- R167: a delivery queue holds 64 words. -/
def dqFull (t : Tile) (d : Dir) : Bool := decide (64 ≤ (smGet [] t.dq (dirNum d)).length)

/-- R167: some word of this cycle is destined for a full queue. -/
def localBlocked (me : Nat) (t : Tile) : Bool :=
  allDirs.any (fun d => (localWord me t d (inFlit t d t.cyc)).isSome && dqFull t d)

/-- R166: the local deliveries of the cycle. -/
def localDeliver (me : Nat) (t : Tile) : Tile :=
  allDirs.foldl (fun s d =>
    match localWord me s d (inFlit s d s.cyc) with
    | some m => pushDq s d m
    | none => s) t

/-- Dropping the flits consumed by the end of the cycle. -/
def dropConsumed (t : Tile) : Tile :=
  { t with
    wire := smSet [] t.wire (dirNum .x) ((smGet [] t.wire (dirNum .x)).filter (fun f => decide (t.cyc < f.cyc)))
    inbuf := allDirs.foldl (fun m d =>
      smSet [] m (dirNum d) ((smGet [] m (dirNum d)).filter (fun f => decide (t.cyc < f.cyc)))) t.inbuf
    early := t.early.filter (fun p => decide (t.cyc < p.2)) }

/-- A held physical cycle on a slot tag: the inbound path goes on (R137, R147), taking from each input the next word that the
route program will deliver here, as the worked example of spec/05_scratchpad.md (a write whose words land while the
owner holds) and of R232 show. -/
def heldDeliver (me : Nat) (t : Tile) : Tile :=
  allDirs.foldl (fun s d =>
    if dqFull s d then s
    else
      match (smGet [] s.inbuf (dirNum d)).find? (fun f => (localWord me s d f).isSome) with
      | some f =>
        match localWord me s d f with
        | some m => { pushDq s d m with early := s.early ++ [(dirNum d, f.cyc)] }
        | none => s
      | none => s) t

/-- MESH_CFG (R184). -/
def meshCfgWord (t : Tile) : Word :=
  BitVec.ofNat 32 (t.meshMode * 2 ^ 30 + t.part * 2 ^ 27 + b2n t.head * 2 ^ 26 + t.gdly * 2 ^ 16 + t.rper)

/-- MESH_RFAULT (R184). -/
def meshRfaultWord (t : Tile) : Word :=
  BitVec.ofNat 32 (b2n t.rfOn * 2 ^ 31 + t.rfCause * 2 ^ 28 + t.rfPort * 2 ^ 25 + t.rfQ * 2 ^ 23 + t.rfIdx)

/-- MESH_PERR (R184). -/
def meshPerrWord (t : Tile) : Word :=
  BitVec.ofNat 32 (b2n t.mperrOn * 2 ^ 31 + t.mperrPort * 2 ^ 28 + t.mperrCnt)

end Sys2Proof.Machine
end

