-- ==== Sys2Proof/Machine/TileCycle.lean ====
section
/-! DEFINITION. One physical cycle of a tile (spec/04_tile_engines.md R101, R104, spec/07_clocks_and_logical_time.md R194 to
R202): gates and holds, issue, accesses, mesh, terms, counters, beat tokens. -/

namespace Sys2Proof.Machine

/-- What the device gives a tile for one physical cycle: its beat partners (R193), whether its region's limit stretch is
asserted (R189), the mask of its partition's fields, the directions in which its gang goes on (R178), and the environment's errors. -/
structure TileEnv where
  partners : List Dir
  gang     : List Dir
  limit    : Bool
  fmask    : Nat
  up       : CycleEnv
  deriving DecidableEq, Repr

/-- What a physical cycle of a tile gives the device: the tile, the flits sent, the mover requests that left through the edge
port, and the beat tokens sent. -/
structure TileOut where
  tile   : Tile
  flits  : List (Dir × Flit)
  reqs   : List MDesc
  tokens : List (Dir × BeatTok)
  deriving DecidableEq, Repr

/-- A cycle with no output. -/
def outNone (t : Tile) : TileOut := ⟨t, [], [], []⟩

/-- R194, R199, R200: the token state of a partner opens the gate of beat n. -/
def gateFrom (t : Tile) (d : Dir) (n : Nat) : Bool :=
  t.tokHalt.testBit (dirNum d) || decide (n < smGet 0 t.tokLast (dirNum d))

/-- R194: the beat gate holds the tile: it would begin cycle 32n without every partner's token for beat n − 1. tokLast holds
the beat of the last token plus two, 0 where none has come. -/
def beatHeld (t : Tile) (ps : List Dir) : Bool :=
  t.cyc % 32 == 0 && !(ps.all (fun d => gateFrom t d (t.cyc / 32)))

/-- R196, R200: a partner sends a flit for the receiver's cycle c: one that halted at the end of beat b sent those for cycles up to
32b + 35. tokLast holds b + 2. -/
def sendsFor (t : Tile) (d : Dir) (c : Nat) : Bool :=
  !t.tokHalt.testBit (dirNum d) || decide (c + 29 ≤ 32 * smGet 0 t.tokLast (dirNum d))

/-- R196: a mesh word due in this cycle has not arrived; a ganged member's broadcast bundle included (R179). -/
def wordLate (t : Tile) (ps : List Dir) : Bool :=
  (decide (4 ≤ t.cyc) && ps.any (fun d => sendsFor t d t.cyc && !(smGet [] t.inbuf (dirNum d)).any (fun f => f.cyc == t.cyc)))
  || (t.meshMode == 1 && !t.head && decide (t.gdly ≤ t.cyc) && !(t.iq ++ (gangIn t).toList).any (fun i => i.cyc == t.cyc))

/-- The stretch of n periods (R189): droop before limit. -/
def countPeriods (t : Tile) (limit : Bool) (n : Nat) : Tile :=
  let t1 := { t with stretch := t.droopLow || limit }
  if !t.clkOn then t1
  else
    { t1 with
      phys := t1.phys + BitVec.ofNat 64 n
      sDroop := if t.droopLow then satAdd32 t.sDroop n else t.sDroop
      sLimit := if !t.droopLow && limit then satAdd32 t.sLimit n else t.sLimit }

/-- R198: which cause a hold counts under. -/
inductive HoldCause where
  | beat | late | tag | conflict
  deriving DecidableEq, Repr

/-- R198, R202: n hold cycles of one cause. -/
def countHold (t : Tile) (c : HoldCause) (n : Nat) : Tile :=
  let t1 := { t with hold := t.hold + BitVec.ofNat 64 n }
  match c with
  | .beat => { t1 with hBeat := satAdd32 t.hBeat n }
  | .late => { t1 with hLate := satAdd32 t.hLate n }
  | .tag => { t1 with hTag := satAdd32 t.hTag n }
  | .conflict => { t1 with hConf := satAdd32 t.hConf n }

/-- A hold that is not on a slot tag: one physical cycle passes. -/
def holdPlain (t : Tile) (limit : Bool) (c : HoldCause) : Tile :=
  countHold (countPeriods { t with held := true, holdOn := false, tagHold := 0 } limit 1) c 1

/-- R145, R159, R198, R232: a hold on a slot tag. -/
def holdTag (me : Nat) (t : Tile) (limit : Bool) (cause slot : Nat) : Tile :=
  let slack := t.mreqIn.contains slot || (tagOf t slot).st == .lent
  heldDeliver me (countHold (countPeriods { t with
    held := true
    holdOn := true
    holdCause := cause
    holdSlot := slot
    tagHold := t.tagHold + 1
    slackMiss := if slack then satAdd32 t.slackMiss 1 else t.slackMiss } limit 1) .tag 1)

/-- R167, R221: a hold counted as a tag hold that is on no tag; a 33rd MREQ is a slack miss too. -/
def holdQueue (me : Nat) (t : Tile) (limit mreq : Bool) : Tile :=
  heldDeliver me (countHold (countPeriods { t with
    held := true
    holdOn := false
    tagHold := 0
    slackMiss := if mreq then satAdd32 t.slackMiss 1 else t.slackMiss } limit 1) .tag 1)

/-- The issue of one cycle (R101): the tile after it, and the move operation that issued (for its tag tests). -/
structure Issued where
  tile : Tile
  mov  : MovOp
  push : Option IssueSlot
  deriving DecidableEq, Repr

/-- R101, R131: all four slots of a bundle issue in the same cycle, in the order of R103. flow says whether this tile's
sequencer follows the bundle's flow control. -/
def issueBundle (me : Nat) (t : Tile) (pc : Nat) (b : Bundle) (flow : Bool) : Issued :=
  let t0 := { t with bundles := satAdd32 t.bundles 1 }
  let t1 := if flow && !isFlow b.ctl then stepOn pc t0 else t0
  let t2 := if isFlow b.ctl && !flow then t1 else slotResult t1 0 pc (issueCtl pc t1 b.ctl)
  let t3 := slotResult t2 1 pc (issueArr t2 b.arr)
  let t4 := slotResult t3 2 pc (issueVec t3 b.vec)
  let r := issueMov me pc t4 b.mov
  ⟨slotResult t4 3 pc r, (match r with | .ok _ => b.mov | .error _ => .nop), none⟩

/-- R101: fetching at the PC; a descriptor entry or a PC past 8,191 is a program fault. -/
def fetchEntry (t : Tile) : Except TFault PEntry :=
  let e := smGet pentry0 t.store t.pc
  if 8191 < t.pc ∨ e.desc then .error (.code 0x0C) else .ok e

/-- The issue of a cycle of a tile that is not ganged (R101, R110). -/
def issuePlain (me : Nat) (t : Tile) : Issued :=
  if t.doneIss ∨ t.cyc < t.fetchAt then ⟨t, .nop, none⟩
  else
    match fetchEntry t with
    | .error f => ⟨tileFault t f 0 (min t.pc 8191), .nop, none⟩
    | .ok e =>
      match decBundle e.w with
      | some b => issueBundle me t t.pc b true
      | none => ⟨t, .nop, none⟩

/-- R179, R180: the head's fetch of a cycle: the slot it broadcasts, and its sequencer; BNZ and a register LOOP stop the fetch
until they issue, DONE for good. -/
def headFetch (t : Tile) : Tile × IssueSlot :=
  let bubble : IssueSlot := ⟨t.cyc + t.gdly, t.pc, none⟩
  if t.cyc < t.fetchAt then (t, bubble)
  else
    match fetchEntry t with
    | .error f => (tileFault t f 0 (min t.pc 8191), bubble)
    | .ok e =>
      let slot : IssueSlot := ⟨t.cyc + t.gdly, t.pc, some e⟩
      match decBundle e.w with
      | none => (t, bubble)
      | some b =>
        match b.ctl with
        | .done => ({ t with fetchAt := 2 ^ 64 }, slot)
        | .bnz _ _ => ({ t with fetchAt := 2 ^ 64 }, slot)
        | .loop true _ _ => ({ t with fetchAt := 2 ^ 64 }, slot)
        | o =>
          match flowNext t.pc t.loops o true (ctlCount t o) with
          | some n => (setFlow t n, slot)
          | none => (tileFault t (.code 0x0A) 0 t.pc, slot)

/-- The issue of a cycle of a ganged tile (R179, R180): the broadcast bundle of its cycle, after the head's fetch or the arrival of the
bundle that the cycle's flits bring. -/
def issueGang (me : Nat) (t : Tile) : Issued :=
  let h := if t.head then headFetch t else (t, ⟨0, 0, none⟩)
  let push := if t.head then some h.2 else none
  let t1 := if t.head then { h.1 with iq := h.1.iq ++ [h.2] } else { t with iq := t.iq ++ (gangIn t).toList }
  let mine := t1.iq.find? (fun i => i.cyc == t.cyc)
  let t2 := { t1 with iq := t1.iq.filter (fun i => decide (t.cyc < i.cyc)) }
  match mine with
  | some ⟨_, pc, some e⟩ =>
    if t2.doneIss then ⟨t2, .nop, push⟩
    else
      match decBundle e.w with
      | none => ⟨t2, .nop, push⟩
      | some b =>
        let late := match b.ctl with
          | .bnz _ _ => true
          | .loop true _ _ => true
          | _ => false
        let r := issueBundle me t2 pc b false
        if t2.head && late then
          let f := issueFlow pc r.tile b.ctl
          ⟨(match f with
            | .ok x => { x with fetchAt := t.cyc + 2 }
            | .error e => tileFault r.tile e 0 pc), r.mov, push⟩
        else ⟨r.tile, r.mov, push⟩
  | _ => ⟨t2, .nop, push⟩

/-- The issue of a cycle. -/
def tileIssue (me : Nat) (t : Tile) : Issued := if t.meshMode = 1 then issueGang me t else issuePlain me t

/-- The static transfers of the cycle in progress in service order (R142), each with its accesses. -/
def cycleTransfers (t : Tile) : List (List Access) :=
  t.arr.streams.map (streamAccess t.cyc) ++ t.arr.loads.map (loadAccess t.cyc)
    ++ (t.vport.filter (fun p => p.1 == t.cyc)).map (fun p => vportAccess p.2)
    ++ (t.outq.filter (fun p => p.1 == t.cyc)).map (fun p =>
        match p.2 with
        | .word a _ => [⟨3, a, 64, false⟩]
        | .pld a _ _ _ => [⟨3, a, 64, false⟩]
        | .request _ => [])

/-- R145: the first tag that blocks a static access: cause and slot. -/
def accessBlocked (t : Tile) (l : List Access) : Option (Nat × Nat) :=
  l.findSome? (fun a => (slotsOf a.addr a.len).findSome? (fun s =>
    match (tagOf t s).st with
    | .empty => if a.write then none else some (0, s)
    | .lent => if a.write then some (1, s) else none
    | .full => none))

/-- R142: the losers of the cycle by their banks: per bank, every port after the first. -/
def cycleLosers (l : List Access) : List Nat :=
  (List.range 16).flatMap (fun b =>
    List.replicate (((List.range 4).filter (fun p => l.any (fun a => a.port == p && (banksOf a.addr a.len).contains b))).length - 1) b)

/-- R141: the foreign accesses of the cycle's static ports, one per transfer. -/
def cycleForeign (t : Tile) (l : List (List Access)) : Nat :=
  (l.filter (fun tr => tr.any (fun a => decide (a.port < 3) && (banksOf a.addr a.len).any (fun b => bankOwner t b != a.port)))).length

/-- R157, R158: the first word of a list of accesses whose read fails parity: port, groups and word. -/
def parityFail (t : Tile) (l : List Access) : Option (Nat × Nat × Nat) :=
  l.findSome? (fun a =>
    if a.write then none
    else (wordsOf a.addr a.len).findSome? (fun w =>
      let m := smGet 0 t.badPar w
      if m = 0 then none else some (a.port, m, w)))

/-- R158: recording a parity error; the tile stops after the cycle, and Kiln is notified. -/
def recordParity (t : Tile) (f : Nat × Nat × Nat) : Tile :=
  let t1 := { t with stopNext := true, notices := t.notices ++ [.parity f.1 f.2.1 f.2.2] }
  if t.perrOn then t1
  else { t1 with perrOn := true, perrPath := f.1, perrBits := f.2.1, perrWord := f.2.2 }

/-- The outbound path's cycle: the word it supplies to the mesh (R127, R158: a failing read sends nothing and aborts its
PUT). -/
def outboundDo (t : Tile) : Tile × Option MWord :=
  let now := t.outq.filter (fun p => p.1 == t.cyc)
  let rest := t.outq.filter (fun p => decide (t.cyc < p.1))
  let t1 := { t with outq := rest }
  match now with
  | (_, .word a h) :: _ =>
    if (parityFail t [⟨3, a, 64, false⟩]).isSome then
      ({ t1 with outq := rest.dropWhile (fun p => match p.2 with | .word _ none => true | _ => false) }, none)
    else
      (t1, some (match h with
        | some h => .first h (spadRead t a 64)
        | none => .later (spadRead t a 64)))
  | (_, .request d) :: _ => (t1, some (.request d))
  | (_, .pld a e k fpc) :: _ =>
    if (parityFail t [⟨3, a, 64, false⟩]).isSome then (t1, none)
    else
      let bs := spadRead t a 64
      ({ t1 with pldAt := t1.pldAt ++ [(t.cyc + 1, e, k, fpc,
          (List.range 4).map (fun i => BitVec.ofNat 128 (leNat ((bs.drop (16 * i)).take 16))))] }, none)
  | [] => (t1, none)

/-- R130: the PLD writes due in the cycle. -/
def pldDo (fmask : Nat) (t : Tile) : Tile :=
  (t.pldAt.filter (fun p => p.1 == t.cyc)).foldl (fun s p => pldWrite fmask s p.2.1 p.2.2.1 p.2.2.2.1 p.2.2.2.2)
    { t with pldAt := t.pldAt.filter (fun p => decide (t.cyc < p.1)) }

/-- Whether an operation issued before DONE is still in progress (R111). -/
def tileBusy (t : Tile) : Bool :=
  !(t.due.isEmpty && t.vport.isEmpty && t.outq.isEmpty && t.evq.isEmpty && t.pldAt.isEmpty && t.arr.streams.isEmpty
    && t.arr.loads.isEmpty && t.arr.drains.isEmpty)

/-- R200: halting: IDLE, the beat kept, the token state of the step dropped. -/
def tileHalt (t : Tile) (beat : Nat) : Tile :=
  { t with
    st := .idle
    doneIss := false
    halted := true
    haltReq := false
    beat := beat
    clkOn := false
    held := false
    tokLast := []
    tokHalt := 0 }

/-- The end of a completed logical cycle: terms, counts, the program store's due writes, LOGICAL, and what stops the tile
(R130, R131, R158, R162, R202). -/
def endCycle (fmask : Nat) (t : Tile) (up : CycleEnv) : Tile :=
  let t1 := arrayTerms t
  let t2 := match up.residue with
    | some c => residueError t1 c
    | none => t1
  let t3 := pldDo fmask t2
  let t4 := applyCounts t3
  let t5 := { t4 with
    held := false
    holdOn := false
    tagHold := 0
    logical := if t.clkOn then t4.logical + 1 else t4.logical
    cyc := t.cyc + 1
    rclaim := t4.rclaim.filter (fun p => decide (t.cyc < p.1))
    vclaim := t4.vclaim.filter (fun c => decide (t.cyc < c))
    oclaim := t4.oclaim.filter (fun c => decide (t.cyc < c)) }
  if t5.stopNext then { t5 with st := .fault, clkOn := false, stopNext := false } else t5

/-- R194, R200: the tokens of a completed beat, and the halt that was asked for. -/
def endBeat (t : Tile) (ps : List Dir) : Tile × List (Dir × BeatTok) :=
  if t.cyc % 32 = 0 ∧ t.st = .run then
    if t.haltReq then (tileHalt t (t.cyc / 32 - 1), ps.map (fun d => (d, ⟨t.cyc / 32, true⟩)))
    else if t.noTok then (t, [])
    else (t, ps.map (fun d => (d, ⟨t.cyc / 32, false⟩)))
  else (t, [])

/-- The parity of a list of accesses, tested and recorded (R157, R158). -/
def testParity (t : Tile) (l : List Access) : Tile :=
  match parityFail t l with
  | some f => recordParity t f
  | none => t

/-- The banks of a list as a mask. -/
def bankMask (l : List Nat) : Nat := foldRange 16 (fun m b => if l.contains b then m + 2 ^ b else m) 0

/-- R104, R142: the extra physical cycle of a loser of a bank conflict: a hold, in which the banks of the losers not yet served stay in use;
the last one ends the beat. -/
def conflictCycle (t : Tile) (limit : Bool) (ps : List Dir) : TileOut :=
  let u := holdPlain { t with banks := bankMask t.confQ, confQ := t.confQ.drop 1 } limit .conflict
  if u.confQ.isEmpty then
    let b := endBeat u ps
    ⟨b.1, [], [], b.2⟩
  else outNone u

/-- R104, R136 to R142, R161, R166: completing the cycle of an issued tile; the losers of its bank conflicts follow in held cycles. The
parity of each read is tested in service order: the outbound read after the vector port's write. -/
def finishCycle (me : Nat) (env : TileEnv) (i : Issued) : TileOut :=
  let t := i.tile
  let trs := cycleTransfers t
  let acc := trs.flatten
  let losers := cycleLosers acc
  let t1 := { t with
    banks := bankMask (acc.flatMap (fun a => banksOf a.addr a.len))
    foreign := satAdd32 t.foreign (cycleForeign t trs)
    conflict := satAdd32 t.conflict losers.length }
  let t3 := arrayReads (testParity t1 (acc.filter (fun a => decide (a.port < 3))))
  let now := t3.vport.filter (fun p => p.1 == t.cyc)
  let t4 := now.foldl (fun s p => vportDo s p.2)
    { t3 with vport := t3.vport.filter (fun p => decide (t.cyc < p.1)) }
  let o := outboundDo (testParity t4 (acc.filter (fun a => a.port == 3)))
  let t5 := o.1
  let w := routeWord t5 t.cyc
  let t6 := match routeFault me t5 w o.2 with
    | some f => recordRoute t5 f
    | none => t5
  let flits := env.partners.map (fun d => (d, outFlit t5 w o.2 (if env.gang.contains d then gangOut t5 i.push d else none) d))
  let reqs := (List.range 4).filterMap (fun q =>
    match outWord t5 w o.2 .x q with
    | some (.request d) => some d
    | _ => none)
  let t7 := dropConsumed (localDeliver me t6)
  let t8 := countPeriods { t7 with clkOn := true } env.limit 1
  let t9 := endCycle env.fmask t8 env.up
  let t10 := if t9.st = .fault then { t9 with clkOn := false } else { t9 with confQ := losers }
  if t10.confQ.isEmpty then
    let b := endBeat t10 env.partners
    ⟨b.1, flits, reqs, b.2⟩
  else ⟨t10, flits, reqs, []⟩

/-- An MREQ. -/
def isMreq (o : MovOp) : Bool :=
  match o with
  | .mreq _ _ _ => true
  | _ => false

/-- One physical cycle of a tile (the LOGICAL_CYCLE row): it completes a logical cycle, or holds under exactly one cause. -/
def tileCycle (me : Nat) (env : TileEnv) (t : Tile) : TileOut :=
  let u := { t with
    inUsed := false
    inTried := false
    banks := 0
    arr := match env.up.weight with
      | some (c, r) => { t.arr with wBad := setInsert t.arr.wBad (cellKey c.val r.val) }
      | none => t.arr
    badPar := match env.up.upset with
      | some (w, m) => smSet 0 t.badPar w m
      | none => t.badPar }
  if t.st ≠ .run ∨ t.oscOn = false ∨ (t.cyc = 2 ^ 31 ∧ ¬ t.doneIss) then outNone (settleSoon u)
  else if ¬ t.confQ.isEmpty then conflictCycle (settleSoon u) env.limit env.partners
  else
    let t0 := settleSoon (settleDue u)
    let t1 := settleArray t0
    if beatHeld t1 env.partners then outNone (holdPlain t1 env.limit .beat)
    else if wordLate t1 env.partners then outNone (holdPlain t1 env.limit .late)
    else
      let i := tileIssue me t1
      match accessBlocked t1 (cycleTransfers i.tile).flatten with
      | some b => outNone (holdTag me t1 env.limit b.1 b.2)
      | none =>
        match movBlocked t1 i.mov with
        | some b => outNone (holdTag me t1 env.limit b.1 b.2)
        | none =>
          if t1.mreqOut = 32 ∧ isMreq i.mov then
            outNone (holdQueue me t1 env.limit true)
          else if localBlocked me t1 then outNone (holdQueue me t1 env.limit false)
          else finishCycle me env i

end Sys2Proof.Machine
end

