-- ==== Sys2Proof/Machine/Inbound.lean ====
section
/-! DEFINITION. The inbound path of a tile (spec/05_scratchpad.md R137, R140, R145 to R158): window checks, inbound words,
deliveries for the tile's own MREQs, pull reads, tag stalls; the receipt of flits and tokens; START, ABORT and HALT of a
tile; its register window. -/

namespace Sys2Proof.Machine

/-- The refusal statuses of R153, and that of a tile under reset (R428). -/
inductive WinStatus where
  | ok | closed | denied | range | resetting
  deriving DecidableEq, Repr

/-- The catalogue codes of the window statuses (spec/18_command_catalogue.md). -/
def winCode (s : WinStatus) : Nat :=
  match s with
  | .ok => 0
  | .closed => 0x21
  | .denied => 0x23
  | .range => 0x24
  | .resetting => 0x22

/-- The words of a write lie in banks of the mover port (R140). -/
def banksOwned (t : Tile) (first last : Nat) : Bool :=
  (banksOf (64 * first) (64 * (last + 1 - first))).all (fun b => bankOwner t b == 3)

/-- R153: the window check. -/
def windowCheck (t : Tile) (h : InHdr) : WinStatus :=
  let w := winOf t h.win
  if !w.isOpen then .closed
  else
    let denied := match h.src with
      | .tile => !w.tile
      | .mover => !w.mover
      | .cord k => !w.cord || decide ((k ^^^ w.cordNo) &&& w.cmask ≠ 0)
    if denied then .denied
    else
      let first := w.basew + h.offset / 64
      let last := first + h.nwords - 1
      if last > w.lastw then .range
      else if !banksOwned t first last then .range
      else .ok

/-- R153: a refusal's counter. -/
def countRefusal (t : Tile) (s : WinStatus) : Tile :=
  match s with
  | .ok => t
  | .closed => { t with winMiss := satAdd32 t.winMiss 1 }
  | .denied => { t with winDeny := satAdd32 t.winDeny 1 }
  | .range => { t with winRange := satAdd32 t.winRange 1 }
  | .resetting => t

/-- The first delivery queue, in the order of R153, whose head satisfies a test. -/
def firstQueue (t : Tile) (p : MWord → Bool) : Option (Nat × MWord × List MWord) :=
  (List.range 5).findSome? (fun d =>
    match smGet [] t.dq d with
    | m :: ms => if p m then some (d, m, ms) else none
    | [] => none)

/-- The head of an inbound write. -/
def isFirst (m : MWord) : Bool :=
  match m with
  | .first _ _ => true
  | _ => false

/-- A delivery for the tile's own MREQ. -/
def isDelivery (m : MWord) : Bool :=
  match m with
  | .delivery _ _ _ _ _ => true
  | _ => false

/-- R153, R154, R428: the inbound path takes the next write's header: the tile, and the refusal to be reported with its header. rst says
that the tile is in the scope of a reset. -/
def inboundTake (t : Tile) (rst : Bool) : Tile × Option (InHdr × WinStatus) :=
  match t.inw with
  | some _ => (t, none)
  | none =>
    match firstQueue t isFirst with
    | some (d, .first h data, _) =>
      let s := if rst then .resetting else windowCheck t h
      let w := winOf t h.win
      let refused := s != .ok
      let t1 := countRefusal { t with
        inw := some ⟨h.nwords, 64 * (w.basew + h.offset / 64), w.tagged && !refused, w.fillw, d, refused, h.src, h.sender⟩
        dq := smSet [] t.dq d (.later data :: (smGet [] t.dq d).drop 1) } s
      (t1, if refused then some (h, s) else none)
    | _ => (t, none)

/-- R145: whether a slot's tag lets an inbound word land. -/
def inboundOk (t : Tile) (tagged : Bool) (slot : Nat) : Bool :=
  match (tagOf t slot).st with
  | .empty => true
  | .full => !tagged
  | .lent => false

/-- R146: a word through a tagged window counts, and fills the slot at FILLW + 1; the change shows from the next cycle. -/
def countFill (t : Tile) (slot fillw : Nat) : Tile :=
  let g := tagOf t slot
  let t1 := setTag t slot ⟨g.st, g.fill + 1⟩
  if (g.fill + 1).toNat = fillw + 1 then { t1 with soon := t1.soon ++ [(slot, .filled)] } else t1

/-- R142: the inbound path loses its bank to a static access of the same physical cycle. -/
def inboundConflict (t : Tile) (addr : Nat) : Bool := t.banks.testBit (addr / 262144 % 16)

/-- R148: the inbound path keeps a word waiting on a tag for one more physical cycle. -/
def inboundWait (t : Tile) (slot : Nat) : Tile :=
  { t with inTried := true, inWait := true, inSlot := slot, inHold := t.inHold + 1 }

/-- R142, R148: the inbound word waits for its bank only, or for a pull read that took the path: no wait on a tag. -/
def inboundMiss (t : Tile) : Tile := { t with inTried := true, inWait := false, inHold := 0 }

/-- R142, R145, R147, R154: one physical cycle of the inbound path on the write in progress. rst says that the tile's traffic is
being absorbed (R303, R428): a word that a tag would keep waiting is discarded. A word is tried once in a physical cycle; a pull
read may use the path in a cycle in which it waits (R137). -/
def inboundWord (t : Tile) (rst : Bool) : Tile :=
  match t.inw with
  | none => t
  | some w =>
    if t.inTried then t
    else
      match smGet [] t.dq w.port with
      | .later data :: ms =>
        let slot := w.addr / 4096 % 1024
        let next := { w with left := w.left - 1, addr := w.addr + 64 }
        let done := { t with
          inUsed := true
          inTried := true
          inWait := false
          inHold := 0
          dq := smSet [] t.dq w.port ms
          inw := if w.left ≤ 1 then none else some next }
        if !w.refused && !rst && !inboundOk t w.tagged slot then inboundWait t slot
        else if t.inUsed then inboundMiss t
        else if w.refused || !inboundOk t w.tagged slot then done
        else if inboundConflict t w.addr then { inboundMiss t with conflict := satAdd32 t.conflict 1 }
        else
          let t1 := spadWrite done (w.addr % spadSize) data
          if w.tagged then countFill t1 slot w.fillw else t1
      | _ => t

/-- Landing a delivery word (R156, R481: whatever the tag): the tile, and whether the transfer is complete. -/
def landDelivery (t : Tile) (slotAddr word : Nat) (data : List Byte) : Tile :=
  spadWrite { t with inUsed := true } ((slotAddr + 64 * word) % spadSize) data

/-- R146, R221: the end of a delivery: the slot turns from EMPTY to FULL in the next cycle, and the MREQ retires. -/
def finishDelivery (t : Tile) (slot : Nat) : Tile :=
  mreqDone { t with soon := t.soon ++ [(slot, .filled)] } slot (t.mreqIn.erase slot) t.loose.sent

/-- R137, R156: one delivery word from the queues; the tile and the word's transfer, if it was its last. -/
def deliveryWord (t : Tile) : Tile :=
  if t.inUsed then t
  else
    match firstQueue t isDelivery with
    | some (d, .delivery a w last _ data, ms) =>
      if inboundConflict t (a + 64 * w) then { t with inUsed := true, conflict := satAdd32 t.conflict 1 }
      else
        let t1 := landDelivery { t with dq := smSet [] t.dq d ms } a w data
        if last then finishDelivery t1 (a / 4096) else t1
    | _ => t

/-- R137: a word of the write in progress is ready to land now, so a pull read is served after it. -/
def wordReady (t : Tile) : Bool :=
  match t.inw with
  | some w =>
    (match smGet [] t.dq w.port with
     | .later _ :: _ => w.refused || (inboundOk t w.tagged (w.addr / 4096 % 1024) && !inboundConflict t w.addr)
     | _ => false)
  | none => false

/-- The result of a pull read. -/
inductive PullRes where
  | wait
  | data (bs : List Byte)
  | parity
  deriving DecidableEq, Repr

/-- R158: a failing pull read stops its tile after the logical cycle in which it was made: at once where that cycle is complete,
else when a held cycle ends. -/
def pullStop (t : Tile) : Tile :=
  if t.st ≠ .run then { t with stopNext := false }
  else if t.held then t
  else { t with st := .fault, clkOn := false, stopNext := false }

/-- R137, R142, R158: a pull read of one word through the inbound path. -/
def pullRead (t : Tile) (addr : Nat) : Tile × PullRes :=
  if t.inUsed || wordReady t then (t, .wait)
  else if inboundConflict t addr then ({ t with inUsed := true, conflict := satAdd32 t.conflict 1 }, .wait)
  else
    let m := smGet 0 t.badPar (addr / 64 % 65536)
    if m ≠ 0 then
      (pullStop (recordParity { t with inUsed := true } (4, m, addr / 64 % 65536)), .parity)
    else ({ t with inUsed := true }, .data (spadRead t addr 64))

/-- R218, R146, R221: the end of an outbound transfer: LENT turns EMPTY, or FULL where it was refused. -/
def finishPull (t : Tile) (slot : Nat) (refused : Bool) : Tile :=
  mreqDone { t with soon := t.soon ++ [(slot, if refused then .refused else .sent)] } slot t.mreqIn (t.loose.sent.erase slot)

/-- R218: the end of a refused inbound transfer: the slot stays EMPTY. -/
def refuseDelivery (t : Tile) (slot : Nat) : Tile :=
  mreqDone t slot (t.mreqIn.erase slot) t.loose.sent

/-- R148: a tag stall: STALL set, no more beat tokens, Kiln notified. -/
def tagStall (t : Tile) : Tile :=
  if (t.tagHold ≥ 2 ^ 24 ∨ t.inHold ≥ 2 ^ 24) ∧ ¬ t.holdStall then
    { t with holdStall := true, noTok := true, notices := t.notices ++ [.stall] }
  else t

/-- R155: a negative completion at a tile sender. -/
def takeNack (t : Tile) : Tile :=
  match t.nackIn with
  | (st, win) :: rest =>
    { t with
      nackIn := rest
      nackOn := true
      nackSt := st
      nackWin := win
      nackCnt := min (t.nackCnt + 1) 0xFF
      notices := t.notices ++ [.nack st] }
  | [] => t

/-- R161, R162: the oldest flit under way on an input arrives. bad is the mask of quarters that fail parity, lg the lane
group of the hop's crossing that carried the word (R35): the error is recorded, and the tile stops after the cycle in progress. -/
def flitReceive (t : Tile) (d : Dir) (bad lg : Nat) : Tile :=
  match smGet [] t.wire (dirNum d) with
  | [] => t
  | f :: fs =>
    let t1 := { t with
      wire := smSet [] t.wire (dirNum d) fs
      inbuf := smSet [] t.inbuf (dirNum d) (smGet [] t.inbuf (dirNum d) ++ [f]) }
    if bad % 16 = 0 then t1
    else { t1 with
      mperrOn := true
      mperrPort := if t.mperrOn then t.mperrPort else dirNum d
      mperrCnt := min (t.mperrCnt + 1) 0xFFFF
      stopNext := t.st == .run
      notices := t.notices ++ [.meshParity (dirNum d) lg] }

/-- R194, R199, R200: the oldest token under way from a partner arrives. The token of beat −1 starts the partner's new
step; a tile that is not in a step takes no other token. -/
def tokenReceive (t : Tile) (d : Dir) : Tile :=
  match smGet [] t.tokWire (dirNum d) with
  | [] => t
  | k :: ks =>
    let n := dirNum d
    let t1 := { t with tokWire := smSet [] t.tokWire n ks }
    if k.beat1 = 0 ∧ ¬ k.halted then
      { t1 with
        tokLast := smSet 0 t.tokLast n 1
        tokHalt := if t.tokHalt.testBit n then t.tokHalt - 2 ^ n else t.tokHalt }
    else if t.st = .idle then t1
    else
      { t1 with
        tokLast := smSet 0 t.tokLast n (max (smGet 0 t.tokLast n) (k.beat1 + 1))
        tokHalt := if k.halted && !t.tokHalt.testBit n then t.tokHalt + 2 ^ n else t.tokHalt }

/-- R112: the cycle limit. -/
def cycleLimit (t : Tile) : Tile :=
  if t.st = .run ∧ t.cyc = 2 ^ 31 ∧ ¬ t.doneIss then tileFault t (.code 0x11) 0 0 else t

/-- R134, R199, R202: START: PC to ENTRY, RUN, the counters of the step cleared. The beat −1 tokens of the partners are kept. -/
def tileStart (t : Tile) : Tile :=
  if t.st ≠ .idle then t
  else
    { t with
      st := .run
      doneIss := false
      pc := t.entry
      fetchAt := 0
      iq := []
      bundles := 0
      evCount := 0
      evCode := 0
      due := []
      rclaim := []
      vclaim := []
      vport := []
      oclaim := []
      outq := []
      evq := []
      pldAt := []
      cyc := 0
      clkOn := true
      phys := 0
      logical := 0
      hold := 0
      hBeat := 0
      hLate := 0
      hTag := 0
      hConf := 0
      sDroop := 0
      sLimit := 0
      doneAt := none
      halted := false
      beat := 0
      haltReq := false
      noTok := false
      stopNext := false
      wire := []
      inbuf := []
      early := []
      confQ := []
      arr := { t.arr with modeAt := none, streams := [], loads := [], drains := [] } }

/-- R134: ABORT: in RUN or DONE the tile stands still as in FAULT; VALID and CODE are unchanged. -/
def tileAbort (t : Tile) : Tile :=
  if t.st = .run then { t with st := .fault, clkOn := false, held := false, holdOn := false, tagHold := 0, confQ := [] } else t

/-- R200: HALT: at the end of the beat in progress, or at once where the tile has ended a beat and waits on the gate of its partners ps; the
Bool says it halted now. -/
def tileHaltReq (t : Tile) (ps : List Dir) : Tile × Bool :=
  if t.st ≠ .run then (t, false)
  else if beatHeld t ps && t.confQ.isEmpty then (tileHalt t (t.cyc / 32 - 1), true)
  else ({ t with haltReq := true }, false)

/-- TILE_STATUS.STATE (R134, R111). -/
def tileState (t : Tile) : Nat :=
  match t.st with
  | .idle => 0
  | .run => if t.doneIss && !tileBusy t then 2 else 1
  | .fault => 3

/-- R134, R179: the entry of the next bundle to issue; in a ganged core the next one broadcast. -/
def tilePc (t : Tile) : Nat :=
  if t.meshMode = 1 then
    match t.iq.find? (fun i => i.ent.isSome && decide (t.cyc ≤ i.cyc)) with
    | some i => i.pc
    | none => t.pc
  else t.pc

/-- TILE_STATUS (R134). -/
def tileStatusWord (t : Tile) : Word :=
  BitVec.ofNat 32 (tileState t * 2 ^ 30 + b2n t.held * 2 ^ 29 + t.loops.length * 2 ^ 13 + tilePc t % 8192)

/-- TILE_FAULT (R134). -/
def tileFaultWord (t : Tile) : Word :=
  BitVec.ofNat 32 (b2n t.fValid * 2 ^ 31 + t.fCode * 2 ^ 16 + t.fSlot * 2 ^ 14 + t.fPc)

/-- Slots of a tile in a tag state (SPAD_TAGS, R159). -/
def countTags (t : Tile) (st : TagSt) : Nat := (t.tags.filter (fun p => p.2.st == st)).length

/-- WIN_OPEN (R159). -/
def winOpenMask (t : Tile) : Nat := foldRange 16 (fun m w => if (winOf t w).isOpen then m + 2 ^ w else m) 0

/-- The low word of a 64-bit register. -/
def loWord (x : DWord) : Word := x.extractLsb' 0 32

/-- The high word of a 64-bit register. -/
def hiWord (x : DWord) : Word := x.extractLsb' 32 32

/-- R189: the current period is stretched: in a step as its last period was decided, else as the sensor and the limit stand. -/
def stretchNow (t : Tile) (limit : Bool) : Bool := if t.clkOn then t.stretch else t.droopLow || limit

/-- CLK_FREQ (R203) of a tile whose region runs at a target in a mode. -/
def clkFreqWord (t : Tile) (fixed limit : Bool) (target : Nat) : Word :=
  if t.oscOn then BitVec.ofNat 32 (b2n fixed * 2 ^ 31 + b2n (stretchNow t limit) * 2 ^ 30 + target) else 0

/-- R133: a read of the tile register window: every offset not listed reads 0. fixed, limit and target are the region's mode,
limit stretch and frequency target. -/
def tileReg (t : Tile) (off : Nat) (fixed limit : Bool) (target : Nat) : Word :=
  match off with
  | 0x000 => tileStatusWord t
  | 0x004 => tileFaultWord t
  | 0x008 => BitVec.ofNat 32 t.entry
  | 0x010 => t.step
  | 0x014 => t.mb.zeroExtend 32
  | 0x018 => loWord t.seed
  | 0x01C => hiWord t.seed
  | 0x020 => t.bundles
  | 0x024 => BitVec.ofNat 32 (t.evCount * 2 ^ 16 + t.evCode.toNat)
  | 0x100 => t.own
  | 0x104 => BitVec.ofNat 32 (countTags t .empty * 2 ^ 16 + countTags t .lent)
  | 0x108 => BitVec.ofNat 32 (b2n t.holdOn * 2 ^ 31 + b2n t.holdStall * 2 ^ 30 + t.holdCause * 2 ^ 10 + t.holdSlot)
  | 0x10C => t.conflict
  | 0x110 => t.foreign
  | 0x114 => BitVec.ofNat 32 (b2n t.perrOn * 2 ^ 31 + t.perrPath * 2 ^ 28 + t.perrBits * 2 ^ 20 + t.perrWord)
  | 0x118 => t.slackMiss
  | 0x11C => BitVec.ofNat 32 t.mreqOut
  | 0x140 => BitVec.ofNat 32 (winOpenMask t)
  | 0x144 => t.winMiss
  | 0x148 => t.winDeny
  | 0x14C => t.winRange
  | 0x150 => BitVec.ofNat 32 (b2n t.nackOn * 2 ^ 31 + t.nackSt * 2 ^ 16 + t.nackCnt * 2 ^ 8 + t.nackWin * 2 ^ 4)
  | 0x154 => BitVec.ofNat 32 (b2n t.inWait * 2 ^ 31 + t.inSlot)
  | 0x200 => arrCfgWord t.arr
  | 0x204 => arrFaultWord t.arr
  | 0x208 => twmaxWord t.arr
  | 0x280 => loWord t.digKey
  | 0x284 => hiWord t.digKey
  | 0x288 => loWord t.digAcc
  | 0x28C => hiWord t.digAcc
  | 0x290 => vecScanWord t
  | 0x2C0 => meshCfgWord t
  | 0x2C4 => meshRfaultWord t
  | 0x2C8 => meshPerrWord t
  | 0x300 => t.numSat
  | 0x304 => t.numFlush
  | 0x308 => t.numNan
  | 0x340 => loWord t.phys
  | 0x344 => smGet 0 t.hiLatch 0x344
  | 0x348 => loWord t.logical
  | 0x34C => smGet 0 t.hiLatch 0x34C
  | 0x350 => loWord t.hold
  | 0x354 => smGet 0 t.hiLatch 0x354
  | 0x358 => t.hBeat
  | 0x35C => t.hLate
  | 0x360 => t.hTag
  | 0x364 => t.hConf
  | 0x368 => t.sDroop
  | 0x36C => t.sLimit
  | 0x370 => match t.doneAt with
    | some c => BitVec.ofNat 32 (2 ^ 31 + c)
    | none => 0
  | 0x374 => BitVec.ofNat 32 (b2n t.halted * 2 ^ 31 + (if t.halted then t.beat else t.cyc / 32))
  | 0x37C => clkFreqWord t fixed limit target
  | 0x3F0 => if t.physOk then
      BitVec.ofNat 32 (t.width * 2 ^ 16 + b2n t.shifted * 2 ^ 15 + t.pcol) else 0
  | _ => 0

/-- R203: a read of a CLK _LO register latches its _HI. -/
def tileLatch (t : Tile) (off : Nat) : Tile :=
  match off with
  | 0x340 => { t with hiLatch := smSet 0 t.hiLatch 0x344 (hiWord t.phys) }
  | 0x348 => { t with hiLatch := smSet 0 t.hiLatch 0x34C (hiWord t.logical) }
  | 0x350 => { t with hiLatch := smSet 0 t.hiLatch 0x354 (hiWord t.hold) }
  | _ => t

/-- R133, R134, R170: Kiln's write of a tile register by its access code. START, ABORT and HALT have operations of their
own (writeCtrl, haltTile). -/
def tileRegWrite (t : Tile) (off : Nat) (v : Word) : Tile :=
  match off with
  | 0x004 => if v.msb then { t with fValid := false } else t
  | 0x008 => { t with entry := (v.extractLsb' 0 13).toNat }
  | 0x010 => { t with step := v }
  | 0x014 => { t with mb := v.extractLsb' 0 16 }
  | 0x018 => { t with seed := hiWord t.seed ++ v }
  | 0x01C => { t with seed := v ++ loWord t.seed }
  | 0x108 => if v.getLsbD 30 then { t with holdStall := false } else t
  | 0x114 => if v.msb then { t with perrOn := false } else t
  | 0x150 => if v.msb then { t with nackOn := false, nackCnt := 0 } else t
  | 0x204 => { t with arr := { t.arr with
      fResid := t.arr.fResid && !v.getLsbD 31
      fAnchor := t.arr.fAnchor && !v.getLsbD 30
      fLimit := t.arr.fLimit && !v.getLsbD 29
      fMode := t.arr.fMode && !v.getLsbD 28 } }
  | 0x280 => { t with digKey := hiWord t.digKey ++ v }
  | 0x284 => { t with digKey := v ++ loWord t.digKey }
  | 0x2C4 => if v.msb then { t with rfOn := false } else t
  | 0x2C8 => if v.msb then { t with mperrOn := false } else t
  | _ => t

end Sys2Proof.Machine
end

