-- ==== Sys2Proof/Machine/FabricState.lean ====
section
/-! DEFINITION. The state of the fabric side of the ring (spec/10_fabric_and_cords.md): address and link map, line state tables,
fabric time, cords, outstanding packets, reduction engines, barriers. Plain data. -/

namespace Sys2Proof.Machine

/-- A bulk packet that one of this module's movers sent and that has not completed (R269): its transfer, the partition it
belongs to, and the IR cycle of its first refusal with a retried status, if any; again says that it waits to be resent. -/
structure OutPkt where
  pkt     : Packet
  xfer    : Nat
  part    : Nat
  refused : Option (Nat × Nat)
  again   : Bool
  deriving DecidableEq, Repr

/-- A GATHER copy that this module has taken and not yet completed (R269): the module that sent it, its cord, rank and TAG,
whether the local window write is still open, how many forwarded copies are, and the first refusal found. -/
structure GatherCopy where
  up     : BitVec 16
  cord   : Nat
  srank  : Nat
  tag    : Nat
  landing : Bool
  left   : Nat
  status : Nat
  deriving DecidableEq, Repr

/-- A reduction slot (R280): its key, the elements' accumulators, the mask of added 16-element groups by rank, and the IR cycle
of its first contribution. -/
structure RedSlot where
  cord   : Nat
  owner  : Nat
  trow   : Nat
  tcol   : Nat
  win    : Nat
  offset : Nat
  kelem  : Nat
  accs   : List LAcc
  masks  : SMap Nat
  first  : Nat
  deriving DecidableEq, Repr

/-- The reduction engines (R280 to R285, R293): slots and registers by engine, counters by partition. -/
structure RedState where
  slots : SMap (List RedSlot)
  stall : SMap Nat
  dup   : SMap Nat
  sat   : SMap Word
  flush : SMap Word
  nan   : SMap Word
  deriving DecidableEq, Repr

/-- A barrier packet held by a module (R286): the phase and rank it comes from, its generation and its record. -/
structure BarGot where
  phase : Nat
  srank : Nat
  gen   : Nat
  krec  : Option KRec
  deriving DecidableEq, Repr

/-- The barrier of one cord channel (R286, R298): the count of the tiles' arrivals, whether Kiln has arrived on channel 3 and
with which record, the phase reached (0 not arrived, 1 to 3, waiting for that phase's group), the packets held, the tags of the
packets that were outstanding at the last BAR_ARRIVE. -/
structure BarState where
  count   : Nat
  mine    : Option KRec
  phase   : Nat
  got     : List BarGot
  waits   : List Nat
  deriving DecidableEq, Repr

/-- The fabric registers and tables. map holds LINK_MAP by link, lines the line state tables by 32 × dimension + coordinate, mine
the own bundle masks last announced; ftime counts in units of 1/16,000 ns; rate is the drift of this module's time in such units
over period IR cycles, acc what is left of it, lastX the cycle of the last exchange (R288). -/
structure FabState where
  addrOn  : Bool
  root    : Bool
  addr    : BitVec 16
  sxm     : Nat
  sym     : Nat
  szm     : Nat
  map     : SMap Word
  lines   : SMap Nat
  mine    : SMap Nat
  ftime   : Nat
  corr    : Int
  ftValid : Bool
  stepped : Bool
  depth   : Nat
  parent  : Nat
  offset  : Int
  rate    : Int
  period  : Nat
  acc     : Int
  lastX   : Option Nat
  t1      : Option Nat
  seqs    : SMap Nat
  out     : List OutPkt
  gathers : List GatherCopy
  cords   : SMap CordEntry
  bars    : SMap BarState
  red     : RedState
  hiLatch : Word
  deriving DecidableEq, Repr

end Sys2Proof.Machine
end

