-- ==== Sys2Proof/Machine/FlitCode.lean ====
section
/-! DEFINITION. The bits of a flit frame (spec/09_optical_links.md R237, R244 to R246, R255; spec/10_fabric_and_cords.md R267,
R268): GF(2^10), the code RS(216, 212), the lanes, the header with its CRC-24, packet headers and IDENT records. Which roots the
code has, which symbol stands first in it and which bit first in the CRC are the model's choices (notes/assumptions). -/

namespace Sys2Proof.Machine

/-- Multiplying by x in GF(2^10) with x^10 + x^3 + 1 (R244). -/
def gfX (a : Nat) : Nat := if 512 ≤ a then (2 * a - 1024) ^^^ 9 else 2 * a

/-- The product in GF(2^10). -/
def gfMul (a b : Nat) : Nat :=
  (foldRange 10 (fun (r : Nat × Nat) i => (if b.testBit i then r.1 ^^^ r.2 else r.1, gfX r.2)) (0, a)).1

/-- A power of x. -/
def gfPow (n : Nat) : Nat := foldRange n (fun a _ => gfX a) 1

/-- The inverse of a nonzero element: its power 1,022. -/
def gfInv (a : Nat) : Nat :=
  (foldRange 9 (fun (r : Nat × Nat) _ => let q := gfMul r.2 r.2; (gfMul r.1 q, q)) (1, a)).1

/-- The coefficients below the leading one of the generator (z − 1)(z − x)(z − x²)(z − x³), highest first. -/
def rsGen : List Nat :=
  (foldRange 4 (fun (g : List Nat) j => List.zipWith (· ^^^ ·) (g ++ [0]) (0 :: g.map (gfMul (gfPow j)))) [1]).drop 1

/-- R244: the four parity symbols of 212 symbols. -/
def rsParity (d : List Nat) : List Nat :=
  d.foldl (fun st s =>
    let fb := s ^^^ nth0 st 0
    List.zipWith (fun a g => a ^^^ gfMul fb g) (st.drop 1 ++ [0]) rsGen) [0, 0, 0, 0]

/-- Syndrome j of received symbols. -/
def rsSyndrome (r : List Nat) (j : Nat) : Nat :=
  let a := gfPow j
  r.foldl (fun acc s => gfMul acc a ^^^ s) 0

/-- Flipping bits of a symbol. -/
def flipSym (r : List Nat) (i v : Nat) : List Nat := r.set i (nth0 r i ^^^ v)

/-- The symbols whose locator is a given element. -/
def rsPlaces (x : Nat) : List Nat :=
  (foldRange 216 (fun (p : List Nat × Nat) i => (if p.2 = x then (215 - i) :: p.1 else p.1, gfX p.2)) ([], 1)).1

/-- The symbols whose locators are roots of X² + aX + b. -/
def rsRoots (a b : Nat) : List (Nat × Nat) :=
  (foldRange 216 (fun (p : List (Nat × Nat) × Nat) i =>
    (if gfMul p.2 p.2 ^^^ gfMul a p.2 ^^^ b = 0 then (215 - i, p.2) :: p.1 else p.1, gfX p.2)) ([], 1)).1

/-- R244: decoding 216 received symbols: the codeword within two symbol errors and how many it corrects, if there is one. -/
def rsDecode (r : List Nat) : Option (List Nat × Nat) :=
  let s0 := rsSyndrome r 0
  let s1 := rsSyndrome r 1
  let s2 := rsSyndrome r 2
  let s3 := rsSyndrome r 3
  if s0 = 0 ∧ s1 = 0 ∧ s2 = 0 ∧ s3 = 0 then some (r, 0)
  else
    let det := gfMul s1 s1 ^^^ gfMul s0 s2
    if det = 0 then
      (if s0 = 0 then none
      else
        let x := gfMul s1 (gfInv s0)
        if gfMul s1 x = s2 ∧ gfMul s2 x = s3 then
          (match rsPlaces x with
           | i :: _ => some (flipSym r i s0, 1)
           | [] => none)
        else none)
    else
      let v := gfInv det
      let a := gfMul (gfMul s1 s2 ^^^ gfMul s0 s3) v
      let b := gfMul (gfMul s2 s2 ^^^ gfMul s1 s3) v
      match rsRoots a b with
      | [p, q] =>
        let e := gfMul (s1 ^^^ gfMul q.2 s0) (gfInv (p.2 ^^^ q.2))
        if e = 0 ∨ e = s0 then none else some (flipSym (flipSym r p.1 e) q.1 (s0 ^^^ e), 2)
      | _ => none

/-- One bit into the CRC-24 (R245). -/
def crc24Bit (c : Nat) (b : Bool) : Nat := if c.testBit 23 != b then (2 * c % 2 ^ 24) ^^^ 0x864CFB else 2 * c % 2 ^ 24

/-- The n low bits of a number into the CRC, highest first. -/
def crc24Bits (c x n : Nat) : Nat := foldRange n (fun a i => crc24Bit a (x.testBit (n - 1 - i))) c

/-- R245: CRC-24 over header bits [71:24] and the 256 payload bytes. -/
def crc24 (hdr48 payload : Nat) : Nat :=
  foldRange 256 (fun c i => crc24Bits c (bits payload (8 * i) 8) 8) (crc24Bits 0xB704CE hdr48 48)

/-- CLASS of a bulk packet (R267). -/
def pclassCode (c : PClass) : Nat :=
  match c with
  | .write => 1
  | .gather => 2
  | .contrib => 3
  | .part => 4

/-- CLASS of a flit (R267). -/
def flitClass (f : LFlit) : Nat :=
  if f.idx ≠ 0 then 0
  else
    match f.pkt with
    | none => 0
    | some (.bulk c _ _) => pclassCode c
    | some (.compl _) => 5
    | some (.barrier _ _ _ _) => 6
    | some (.lineState _ _ _ _ _) => 7
    | some (.time _ _ _ _ _ _ _) => 8
    | some (.ident _) => 9
    | some (.fence _) => 10

/-- The 256 bits of a packet header (R268). -/
def pktHdrBits (c : PClass) (h : PktHdr) : Nat :=
  h.dst.toNat * 2 ^ 240 + h.src.toNat * 2 ^ 224 + h.cord % 2 ^ 12 * 2 ^ 212 + h.srank % 2 ^ 15 * 2 ^ 197 + h.drank % 2 ^ 15 * 2 ^ 182
    + h.trow % 32 * 2 ^ 177 + h.tcol % 64 * 2 ^ 171 + h.win % 16 * 2 ^ 167 + h.offset % 2 ^ 22 * 2 ^ 145 + (h.nwords + 63) % 64 * 2 ^ 139
    + b2n h.dtr * 2 ^ 138 + h.edge % 4 * 2 ^ 136 + h.phase % 4 * 2 ^ 134 + h.tag % 2 ^ 22 * 2 ^ 112
    + (if c = .part then h.elem % 1024 else 0) * 2 ^ 102
    + (if c = .contrib ∨ c = .part then (h.kelem + 1023) % 1024 else 0) * 2 ^ 92

/-- The 256 bits of an IDENT record (R255). -/
def identBits (r : IdentRec) : Nat :=
  r.unit.toNat * 2 ^ 192 + r.link.toNat * 2 ^ 185 + b2n r.fvalid * 2 ^ 184 + r.faddr.toNat * 2 ^ 168 + r.rxC.toNat * 2 ^ 156
    + r.rxA.toNat * 2 ^ 144 + r.rxB.toNat * 2 ^ 132 + b2n r.hold * 2 ^ 131

/-- The IDENT record of 256 bits (R255). -/
def identOf (w : Nat) : IdentRec where
  unit := BitVec.ofNat 64 (bits w 192 64)
  link := BitVec.ofNat 7 (bits w 185 7)
  fvalid := bitAt w 184
  faddr := BitVec.ofNat 16 (bits w 168 16)
  rxC := BitVec.ofNat 12 (bits w 156 12)
  rxA := BitVec.ofNat 12 (bits w 144 12)
  rxB := BitVec.ofNat 12 (bits w 132 12)
  hold := bitAt w 131

/-- The 2,048 payload bits of a flit: 32 header bytes and 224 data bytes in the first flit of a bulk packet, 256 data bytes in a
later one. -/
def payloadBits (f : LFlit) : Nat :=
  match f.pkt with
  | none => 0
  | some (.bulk c h ws) =>
    if f.idx = 0 then pktHdrBits c h + leNat (ws.flatten.take 224) * 2 ^ 256
    else leNat ((ws.flatten.drop (224 + 256 * (f.idx - 1))).take 256)
  | some (.ident r) => identBits r
  | some k => (Config.ctlPayload k).toNat

/-- Header bits [71:24] (R245). -/
def headerBits (f : LFrame) : Nat :=
  f.flit.vc % 4 * 2 ^ 46 + (if f.flit.vc = 3 then 0 else f.flit.seq % 4096) * 2 ^ 34 + f.ackVc % 4 * 2 ^ 32 + f.ackSeq % 4096 * 2 ^ 20
    + b2n f.nak * 2 ^ 19 + f.crVc % 4 * 2 ^ 17 + f.credits % 256 * 2 ^ 9 + f.cls % 16 * 2 ^ 5

/-- The 2,120 bits that a frame carries (R244). -/
def frameBits (f : LFrame) : Nat :=
  let h := headerBits f
  let p := payloadBits f.flit
  crc24 h p + h * 2 ^ 24 + p * 2 ^ 72

/-- R244: the 216 symbols of a frame. -/
def frameSymbols (f : LFrame) : List Nat :=
  let n := frameBits f
  let d := (List.range 212).map (fun i => bits n (10 * i) 10)
  d ++ rsParity d

/-- R237, R244: the 272 bits that a lane sends in one flit time: the marker of an even or odd flit, then its 27 symbols. -/
def laneBits (syms : List Nat) (odd : Bool) (lane : Nat) : Nat :=
  foldRange 27 (fun n k => n + nth0 syms (8 * k + lane) * 2 ^ (2 + 10 * k)) (if odd then 1 else 2)

/-- R245, R246: the CRC of decoded symbols matches. -/
def crcMatches (syms : List Nat) : Bool :=
  let n := foldRange 212 (fun a i => a + nth0 syms i * 2 ^ (10 * i)) 0
  crc24 (bits n 24 48) (n / 2 ^ 72) == bits n 0 24

/-- The symbols of a frame as they arrive. -/
def lineSymbols (f : LFrame) (e : LineErr) : List Nat := e.flips.foldl (fun r x => flipSym r x.1.val x.2.toNat) (frameSymbols f)

/-- R246: what a receiver makes of a frame: the frame it reads and the outcome. -/
def readLine (f : LFrame) (e : LineErr) : LFrame × FecOut :=
  match rsDecode (lineSymbols f e) with
  | none => (f, .bad e.hdrOk)
  | some (c, n) =>
    if c = frameSymbols f then (f, .good n)
    else if crcMatches c then ((Config.misread c).getD f, .good n)
    else (f, .bad e.hdrOk)

end Sys2Proof.Machine
end

