-- ==== Sys2Proof/Machine/LinkState.lean ====
section
/-! DEFINITION. The state of the optical links, engines and laser blades (spec/09_optical_links.md). Plain data. -/

namespace Sys2Proof.Machine

/-- A flit in a retry buffer (R249), with how often it has been resent. -/
structure HeldFlit where
  flit    : LFlit
  resends : Nat
  deriving DecidableEq, Repr

/-- One virtual channel of a port (R247 to R250): the next sequence number to send, the last one received in order, the credits
held for the peer's buffers, the buffers freed and not yet returned, the waiting flits, whether a NAK is owed, whether received
flits are discarded until the resend comes, the sequence numbers still to be resent, and the packet that is being sent with the
place of its last flit sent (R272). -/
structure LinkVc where
  txSeq   : Nat
  rxSeq   : Nat
  credits : Nat
  freed   : Nat
  queue   : List LFlit
  nakDue  : Bool
  discard : Bool
  resend  : List Nat
  mid     : Option (Packet × Nat)
  deriving DecidableEq, Repr

/-- The settings saved for a link (R254): peer UNIT_ID, peer link, round trip. -/
structure LinkSaved where
  unit : DWord
  link : Nat
  rtt  : Nat
  deriving DecidableEq, Repr

/-- A bulk packet that passes through (R272): as it arrives, as it leaves, the link and the VC on which it leaves. -/
structure CutPkt where
  pkt : Packet
  out : Packet
  link : Nat
  vc  : Nat
  deriving DecidableEq, Repr

/-- One link port (R253 to R259). fenceLeft and fenceAt are the seconds of a fence and the IR cycle in which it began; retrains
holds the IR cycles in which the retrains of the last 60 s began; leftUp says that the port keeps its retry buffer after leaving
UP (R257); lockstep that it is admitted for lock-step only (R331); known that a peer record has been seen (LINK_STAT.PEER_LINK,
LINK_PEER); dark holds the wavelengths whose laser has failed and whose spare is not yet stable, resync says that the port sends
the resynchronisation pattern (R240), noSignal that it has lost signal (R241); sent is the frame last put on the line and odd the
marker of the next one (R244); cut the packets that pass through (R272); inStep that both ends count one sequence (R257). -/
structure LinkPort where
  st        : Nat
  cause     : Nat
  saved     : Bool
  peerFence : Bool
  known     : Bool
  peerLink  : Nat
  peerUnit  : DWord
  fec       : Word
  bad       : Word
  resendCnt : Word
  retrains  : List Nat
  total     : Nat
  fenceLeft : Nat
  fenceAt   : Nat
  rtt       : Nat
  ctl       : LinkVc
  bulkA     : LinkVc
  bulkB     : LinkVc
  lastBulk  : Nat
  nextAck   : Nat
  retry     : List HeldFlit
  sent      : Option LFrame
  rxPkts    : List Packet
  leftUp    : Bool
  cut       : List CutPkt
  dark      : Nat
  resync    : Bool
  noSignal  : Bool
  odd       : Bool
  inStep    : Bool
  savedSet  : Option LinkSaved
  fullTrain : Bool
  lockstep  : Bool
  hiLatch   : Word
  deriving DecidableEq, Repr

/-- A laser blade (R239, R259, R474). spareFor holds, by wavelength, the active laser that the spare replaces;
stuck says that the blade was left partly seated. -/
structure Blade where
  present   : Bool
  release   : Bool
  spareUsed : Nat
  spareBad  : Nat
  lfail     : Nat
  spareFor  : SMap Nat
  stuck     : Bool
  deriving DecidableEq, Repr

/-- The links and the blades. -/
structure LinkState where
  ports  : SMap LinkPort
  blades : SMap Blade
  deriving DecidableEq, Repr

end Sys2Proof.Machine
end

