-- ==== Sys2Proof/Machine/Links.lean ====
section
/-! DEFINITION. One link port and one laser blade (spec/09_optical_links.md R238 to R259): virtual channels, the choice at a
flit boundary, the retry buffer, the receipt of a frame, the port's states. -/

namespace Sys2Proof.Machine

/-- LINK_STAT.STATE codes (R253). -/
def lsDown : Nat := 0
/-- TRAINING. -/
def lsTraining : Nat := 1
/-- IDENT. -/
def lsIdent : Nat := 2
/-- UP. -/
def lsUp : Nat := 3
/-- PAUSED. -/
def lsPaused : Nat := 4
/-- FENCED. -/
def lsFenced : Nat := 5
/-- TOO_LONG. -/
def lsTooLong : Nat := 6
/-- DISABLED. -/
def lsDisabled : Nat := 7

/-- A VC with nothing sent; credits are the peer's receive buffers (R247). -/
def vcInit (credits : Nat) : LinkVc := ⟨0, 4095, credits, 0, [], false, false, [], none⟩

/-- A port after power-on: DOWN, not yet trained (R259). -/
def portInit : LinkPort where
  st := 0
  cause := 0
  saved := false
  peerFence := false
  known := false
  peerLink := 0
  peerUnit := 0
  fec := 0
  bad := 0
  resendCnt := 0
  retrains := []
  total := 0
  fenceLeft := 0
  fenceAt := 0
  rtt := 0
  ctl := vcInit 64
  bulkA := vcInit 256
  bulkB := vcInit 256
  lastBulk := 2
  nextAck := 0
  retry := []
  sent := none
  rxPkts := []
  leftUp := false
  cut := []
  dark := 0
  resync := false
  noSignal := false
  odd := false
  inStep := false
  savedSet := none
  fullTrain := true
  lockstep := false
  hiLatch := 0

/-- A slot without a blade. -/
def blade0 : Blade := ⟨false, false, 0, 0, 0, [], false⟩

/-- The links after VIN comes on. -/
def linkInit : LinkState := ⟨[], []⟩

/-- A port. -/
def portOf (k : LinkState) (l : Nat) : LinkPort := smGet portInit k.ports l

/-- Setting a port. -/
def setPort (k : LinkState) (l : Nat) (p : LinkPort) : LinkState := { k with ports := smSet portInit k.ports l p }

/-- A blade. -/
def bladeOf (k : LinkState) (b : Nat) : Blade := smGet blade0 k.blades b

/-- Setting a blade. -/
def setBlade (k : LinkState) (b : Nat) (x : Blade) : LinkState := { k with blades := smSet blade0 k.blades b x }

/-- A VC of a port: 0 control, 1 bulk A, 2 bulk B. -/
def vcOf (p : LinkPort) (vc : Nat) : LinkVc := if vc = 0 then p.ctl else if vc = 1 then p.bulkA else p.bulkB

/-- Setting a VC of a port. -/
def setVc (p : LinkPort) (vc : Nat) (v : LinkVc) : LinkPort :=
  if vc = 0 then { p with ctl := v } else if vc = 1 then { p with bulkA := v } else { p with bulkB := v }

/-- R267: the data words of a packet, by its form. -/
def packetWords (k : Packet) : Nat :=
  match k with
  | .bulk _ _ ws => ws.length
  | _ => 0

/-- The flits of a packet (spec/10_fabric_and_cords.md, Packets): 224 bytes in the first, 256 in each later one. -/
def packetFlits (k : Packet) : Nat := 1 + (64 * packetWords k - 224 + 255) / 256

/-- The flits of a packet as they wait for their sequence numbers. -/
def flitsOf (vc : Nat) (k : Packet) : List LFlit := (List.range (packetFlits k)).map (fun i => ⟨vc, 0, some k, i⟩)

/-- Handing a packet to a VC of a port. -/
def portEnqueue (p : LinkPort) (vc : Nat) (k : Packet) : LinkPort :=
  let v := vcOf p vc
  setVc p vc { v with queue := v.queue ++ flitsOf vc k }

/-- Held flits of a VC. -/
def heldOf (p : LinkPort) (vc : Nat) : List HeldFlit := p.retry.filter (fun h => h.flit.vc == vc)

/-- R249: room in the retry buffer of 512 flits, of which 32 are kept for the control VC. -/
def retryRoom (p : LinkPort) (vc : Nat) : Bool :=
  if vc = 0 then decide (p.retry.length < 512)
  else decide ((p.retry.filter (fun h => h.flit.vc != 0)).length < 480) && decide (p.retry.length < 512)

/-- R272: one flit of a packet that passes through joins a VC; the flits of a packet that the port no longer carries are dropped. -/
def portFlit (p : LinkPort) (vc : Nat) (k : Packet) (idx : Nat) : LinkPort :=
  let v := vcOf p vc
  if idx = 0 ∨ v.mid.map (·.1) = some k ∨ v.queue.any (fun f => f.pkt == some k) then
    setVc p vc { v with queue := v.queue ++ [⟨vc, 0, some k, idx⟩] }
  else p

/-- R272: the flit of a VC that may go next: a packet's flits are contiguous. -/
def nextFlit (v : LinkVc) : Option LFlit :=
  match v.mid with
  | none => v.queue.head?
  | some m => v.queue.find? (fun f => f.pkt == some m.1 && f.idx == m.2 + 1)

/-- A VC has a new flit that it may send (R247, R249): control never waits for credit. -/
def newReady (p : LinkPort) (vc : Nat) : Bool :=
  let v := vcOf p vc
  (nextFlit v).isSome && retryRoom p vc && (vc == 0 || decide (0 < v.credits))

/-- R248: what the port sends at a flit boundary: a VC with a resend (true) or a new flit (false), or none for an idle flit. -/
def boundaryPick (p : LinkPort) : Option (Nat × Bool) :=
  if !p.ctl.resend.isEmpty then some (0, true)
  else if newReady p 0 then some (0, false)
  else if !p.bulkA.resend.isEmpty then some (1, true)
  else if !p.bulkB.resend.isEmpty then some (2, true)
  else
    let first := if p.lastBulk = 1 then 2 else 1
    if newReady p first then some (first, false)
    else if newReady p (3 - first) then some (3 - first, false)
    else none

/-- The VC whose acknowledgement the next flit carries: one that owes a NAK first, else each in turn. -/
def ackPick (p : LinkPort) : Nat :=
  if p.ctl.nakDue then 0 else if p.bulkA.nakDue then 1 else if p.bulkB.nakDue then 2 else p.nextAck % 3

/-- The VC whose freed buffers the next flit returns. -/
def creditPick (p : LinkPort) : Nat := if 0 < p.bulkA.freed then 1 else if 0 < p.bulkB.freed then 2 else 0

/-- R245: putting a flit on the line with its acknowledgement and credit fields. -/
def sendFrame (p : LinkPort) (f : LFlit) : LinkPort :=
  let a := ackPick p
  let va := vcOf p a
  let p1 := setVc p a { va with nakDue := false }
  let c := creditPick p1
  let vcr := vcOf p1 c
  let n := min vcr.freed 255
  let p2 := setVc p1 c { vcr with freed := vcr.freed - n }
  { p2 with
    nextAck := (a + 1) % 3
    odd := !p2.odd
    sent := some ⟨f, a, va.rxSeq, va.nakDue, c, n, flitClass f⟩ }

/-- What a port knows at a flit boundary: the IR cycle, FTIME in ns, and the module's address. -/
structure LineNow where
  clock : Nat
  ns    : Nat
  addr  : BitVec 16
  deriving DecidableEq, Repr

/-- LINK_TRAIN.FENCE_LEFT: the seconds of fence that remain, begun seconds counted whole. -/
def fenceRemaining (p : LinkPort) (clock : Nat) : Nat :=
  if p.st = lsFenced then p.fenceLeft - (clock - p.fenceAt) / 1600000000 else 0

/-- R256, R288: what a port writes into a packet as it leaves: the seconds left into a fence marker, its stamp into an own TIME packet. -/
def stampPkt (p : LinkPort) (x : LineNow) (k : Packet) : Packet :=
  match k with
  | .fence _ => .fence (fenceRemaining p x.clock)
  | .time dst src t1 t2 t3 answer dtr =>
    if src ≠ x.addr then k else if answer then .time dst src t1 t2 x.ns answer dtr else .time dst src x.ns t2 t3 answer dtr
  | q => q

/-- A flit is put on the line as a new one of its VC: it takes the next sequence number and is held until it is acknowledged (R249). -/
def sendNumbered (p : LinkPort) (vc : Nat) (f : LFlit) : LinkPort :=
  let v := vcOf p vc
  let g : LFlit := { f with seq := v.txSeq }
  let p1 := setVc p vc { v with txSeq := (v.txSeq + 1) % 4096 }
  sendFrame { p1 with retry := p1.retry ++ [⟨g, 0⟩] } g

/-- R249: sending an IDENT record or a fence marker, where the retry buffer has room. -/
def sendOwn (p : LinkPort) (k : Packet) : LinkPort := if retryRoom p 0 then sendNumbered p 0 ⟨0, 0, some k, 0⟩ else p

/-- Sending a new flit of a VC. -/
def sendNew (p : LinkPort) (vc : Nat) (x : LineNow) : LinkPort :=
  let v := vcOf p vc
  match nextFlit v with
  | none => p
  | some f =>
    let last := match f.pkt with
      | some k => decide (packetFlits k ≤ f.idx + 1)
      | none => true
    let p1 := setVc p vc { v with
      queue := v.queue.erase f
      mid := if last then none else f.pkt.map (fun k => (k, f.idx))
      credits := if vc = 0 then v.credits else v.credits - 1 }
    sendNumbered { p1 with lastBulk := if vc = 0 then p1.lastBulk else vc } vc { f with pkt := f.pkt.map (stampPkt p x) }

/-- Sending the next flit of a resend; a flit no longer held is passed over (R250). -/
def sendResend (p : LinkPort) (vc : Nat) (x : LineNow) : LinkPort :=
  let v := vcOf p vc
  match v.resend with
  | [] => p
  | q :: qs =>
    let p1 := setVc p vc { v with resend := qs }
    match p.retry.find? (fun h => h.flit.vc == vc && h.flit.seq == q) with
    | none => p1
    | some h =>
      let g : LFlit := { h.flit with pkt := h.flit.pkt.map (stampPkt p x) }
      sendFrame { p1 with
        resendCnt := satAdd32 p1.resendCnt 1
        retry := p1.retry.map (fun y => if y.flit.vc == vc && y.flit.seq == q then ⟨g, y.resends + 1⟩ else y) } g

/-- The idle flit (R245). -/
def idleFlit : LFlit := ⟨3, 0, none, 0⟩

/-- R248: one flit boundary of a port in UP. -/
def flitBoundary (p : LinkPort) (x : LineNow) : LinkPort :=
  match boundaryPick p with
  | some (vc, true) => sendResend p vc x
  | some (vc, false) => sendNew p vc x
  | none => sendFrame p idleFlit

/-- The retrains of the sliding 60 s window that ends now (R256); 60 s are 96 × 10^9 IR cycles. -/
def recentRetrains (p : LinkPort) (clock : Nat) : List Nat := p.retrains.filter (fun t => decide (clock < t + 96000000000))

/-- R256: entering FENCED for a number of seconds. -/
def enterFence (p : LinkPort) (clock secs : Nat) (peer : Bool) : LinkPort :=
  { p with
    st := lsFenced, fenceLeft := secs, fenceAt := clock, peerFence := peer, dark := 0, resync := false, noSignal := false
    leftUp := p.leftUp || p.st == lsUp || p.st == lsPaused }

/-- The state that belongs to PAUSED and FENCED clears. -/
def plainPort (p : LinkPort) : LinkPort :=
  { p with dark := 0, resync := false, noSignal := false, fenceLeft := 0, peerFence := false }

/-- R256: a move into TRAINING from UP, PAUSED or IDENT: a retrain, or FENCED where it would be the seventh in 60 s. -/
def retrain (p : LinkPort) (clock : Nat) : LinkPort :=
  let r := recentRetrains p clock
  if 6 ≤ r.length then
    let q := enterFence { p with retrains := r } clock 600 false
    sendOwn q (.fence 600)
  else
    { plainPort p with
      st := lsTraining
      leftUp := p.leftUp || p.st == lsUp || p.st == lsPaused
      fullTrain := p.savedSet.isNone
      retrains := r ++ [clock]
      total := min (p.total + 1) 0x3FFF }

/-- Starting to train from a state that is not a retrain (R253, R256). -/
def startTraining (p : LinkPort) (useSaved : Bool) : LinkPort :=
  { plainPort p with st := lsTraining, cause := 0, fullTrain := !(useSaved && p.savedSet.isSome) }

/-- Going to DOWN with a cause (R253); the retry buffer is kept as after leaving UP (R257). -/
def goDown (p : LinkPort) (cause : Nat) : LinkPort :=
  { plainPort p with st := lsDown, cause := cause, leftUp := p.leftUp || p.st == lsUp || p.st == lsPaused }

/-- R250: a resend of a VC from the flit after ACKSEQ; a flit that has been resent 8 times and is still not acknowledged takes the link to
TRAINING. -/
def startResend (p : LinkPort) (vc clock : Nat) : LinkPort :=
  if p.st = lsUp ∧ (heldOf p vc).any (fun h => decide (8 ≤ h.resends)) then retrain p clock
  else
    let v := vcOf p vc
    setVc p vc { v with resend := (heldOf p vc).map (·.flit.seq) }

/-- Resending every VC (R240, R241, R257). -/
def resendAll (p : LinkPort) (clock : Nat) : LinkPort := startResend (startResend (startResend p 0 clock) 1 clock) 2 clock

/-- A port that carries traffic or is paused in it. -/
def isUpOrPaused (p : LinkPort) : Bool := p.st == lsUp || p.st == lsPaused

/-- R240: a laser of wavelength w fails and its spare is switched in: PAUSED. -/
def laserPause (p : LinkPort) (w : Nat) : LinkPort :=
  if isUpOrPaused p then { p with st := lsPaused, dark := p.dark ||| 2 ^ w, resync := false } else p

/-- R240: the spare of wavelength w is stable; with no other laser dark the port sends the resynchronisation pattern. -/
def spareStable (p : LinkPort) (w : Nat) : LinkPort :=
  if p.st = lsPaused ∧ p.dark.testBit w then { p with dark := p.dark - 2 ^ w, resync := p.dark - 2 ^ w == 0 } else p

/-- Owing a NAK on a VC. -/
def oweNak (p : LinkPort) (vc : Nat) : LinkPort :=
  let v := vcOf p vc
  setVc p vc { v with nakDue := true, discard := true }

/-- R241: a port that loses signal: PAUSED, with a NAK owed for every VC. -/
def lossOfSignal (p : LinkPort) : LinkPort :=
  if isUpOrPaused p then oweNak (oweNak (oweNak { p with st := lsPaused, noSignal := true } 0) 1) 2 else p

/-- Returning to UP from PAUSED once no laser is dark, no resynchronisation is under way and signal is there: every unacknowledged flit is
resent (R240, R241, R250). -/
def unpause (p : LinkPort) (clock : Nat) : LinkPort :=
  if p.st = lsPaused ∧ p.dark = 0 ∧ ¬ p.resync ∧ ¬ p.noSignal then resendAll { p with st := lsUp } clock else p

/-- The distance of a sequence number from another, modulo 4,096. -/
def seqDist (a b : Nat) : Nat := (b + 4096 - a % 4096) % 4096

/-- R249: dropping the held flits of a VC up to an acknowledged sequence number. -/
def takeAck (p : LinkPort) (vc ack : Nat) : LinkPort :=
  let held := heldOf p vc
  match held with
  | [] => p
  | h :: _ =>
    let n := seqDist h.flit.seq ack + 1
    if n ≤ held.length then
      let gone := (held.take n).map (·.flit.seq)
      let v := vcOf p vc
      setVc { p with retry := p.retry.filter (fun x => !(x.flit.vc == vc && gone.contains x.flit.seq)) } vc
        { v with resend := v.resend.filter (fun q => !gone.contains q) }
    else p

/-- R247: credits returned for a VC, never above its receive buffers. -/
def takeCredits (p : LinkPort) (vc n : Nat) : LinkPort :=
  if vc = 1 ∨ vc = 2 then
    let v := vcOf p vc
    setVc p vc { v with credits := min 256 (v.credits + n) }
  else p

/-- R253: what a port takes from the line in its state: all in UP, IDENT records in IDENT, fence markers in FENCED. -/
def takesFlit (p : LinkPort) (f : LFlit) : Bool :=
  match f.pkt with
  | some (.ident _) => p.st == lsUp || p.st == lsIdent
  | some (.fence _) => p.st == lsUp || p.st == lsIdent || p.st == lsFenced
  | _ => p.st == lsUp

/-- IDENT records and fence markers are read as they come: they lead the sequence numbers back into step (R255 to R257). -/
def readAtOnce (f : LFlit) : Bool :=
  match f.pkt with
  | some (.ident _) => true
  | some (.fence _) => true
  | _ => false

/-- R247, R249: a good flit of a VC: in SEQ order it goes to the crossbar and its buffer is freed; a gap owes a NAK; a flit
seen before is dropped. -/
def takeFlit (p : LinkPort) (f : LFlit) : LinkPort × Option LFlit :=
  if 3 ≤ f.vc ∨ ¬ takesFlit p f then (p, none)
  else
    let v := vcOf p f.vc
    if f.seq = (v.rxSeq + 1) % 4096 then
      (setVc p f.vc { v with rxSeq := f.seq, discard := false, freed := v.freed + 1 }, some f)
    else
      (if v.discard ∨ 2048 ≤ seqDist v.rxSeq f.seq ∨ f.seq = v.rxSeq then p else oweNak p f.vc, if readAtOnce f then some f else none)

/-- R246: a flit that is bad, or of a reserved class (R267), is discarded and counted. -/
def takeBad (p : LinkPort) (f : LFrame) (hdrOk : Bool) : LinkPort :=
  let p1 := { p with bad := satAdd32 p.bad 1 }
  if hdrOk then (if f.flit.vc < 3 then oweNak p1 f.flit.vc else p1)
  else oweNak (oweNak (oweNak p1 0) 1) 2

/-- A port reads frames from the line: it has lane sync and signal. -/
def readsLine (p : LinkPort) : Bool :=
  p.st == lsUp || p.st == lsIdent || p.st == lsFenced || (p.st == lsPaused && !p.noSignal)

/-- R246, R267: the receipt of a flit frame: the port, and the flit that goes on to the crossbar or to Kiln, if one does. -/
def receiveFrame (p : LinkPort) (f : LFrame) (out : FecOut) (clock : Nat) : LinkPort × Option LFlit :=
  if !readsLine p then (p, none)
  else
    match out with
    | .bad hdrOk => (takeBad p f hdrOk, none)
    | .good n =>
      let p1 := { p with fec := satAdd32 p.fec n }
      if 11 ≤ f.cls then ({ p1 with bad := satAdd32 p1.bad 1 }, none)
      else
        let p2 := takeCredits (takeAck p1 f.ackVc f.ackSeq) f.crVc f.credits
        let p3 := if f.nak && decide (f.ackVc < 3) then startResend p2 f.ackVc clock else p2
        takeFlit p3 f.flit

/-- R250: a flit stays unacknowledged for 1,024 flit times. -/
def ackTimeout (p : LinkPort) (vc clock : Nat) : LinkPort :=
  if p.st = lsUp ∧ ¬ (heldOf p vc).isEmpty then startResend p vc clock else p

/-- R254: the end of a training. A round trip above 512 flit times goes to TOO_LONG; a failed training from saved settings
falls back to a full one; a failed full training leaves the link DOWN (R259: SAVED says whether the last training used saved settings). -/
def trainingComplete (p : LinkPort) (ok : Bool) (rtt : Nat) : LinkPort :=
  if p.st ≠ lsTraining then p
  else if !ok then
    (if p.fullTrain then { goDown p 1 with saved := false } else { p with fullTrain := true, saved := false })
  else if 512 < rtt then { p with st := lsTooLong, rtt := min rtt 1023, saved := !p.fullTrain }
  else { p with st := lsIdent, rtt := rtt, saved := !p.fullTrain, cause := 0 }

/-- R256: the end of a fence: one training, with an empty retrain window. -/
def fenceExpiry (p : LinkPort) : LinkPort :=
  if p.st = lsFenced then
    { startTraining p false with retrains := [], fullTrain := p.savedSet.isNone }
  else p

/-- R257: discarding the retry buffer and everything that waits on the port. -/
def dropHeld (p : LinkPort) : LinkPort :=
  { p with
    retry := []
    leftUp := false
    inStep := false
    ctl := { p.ctl with queue := [], resend := [], mid := none }
    bulkA := { p.bulkA with queue := [], resend := [], mid := none }
    bulkB := { p.bulkB with queue := [], resend := [], mid := none } }

/-- The packets of the flits that dropHeld discards, each once. -/
def heldPackets (p : LinkPort) : List Packet :=
  ((p.retry.map (·.flit)) ++ p.bulkA.queue ++ p.bulkB.queue).filterMap (·.pkt) |>.eraseDups

/-- A VC starts again with the packets that wait on it whole. -/
def freshVc (v : LinkVc) (credits : Nat) : LinkVc := { vcInit credits with queue := v.queue.filter (fun f =>
  v.queue.any (fun g => g.pkt == f.pkt && g.idx == 0)) }

/-- A new peer, or one whose flits were discarded: the sequence spaces and credits start again. -/
def freshVcs (p : LinkPort) : LinkPort :=
  { p with ctl := freshVc p.ctl 64, bulkA := freshVc p.bulkA 256, bulkB := freshVc p.bulkB 256, retry := [], leftUp := false, inStep := true }

/-- What the port holds once the peer's received flits are dropped (R257). -/
def ackedBy (p : LinkPort) (r : IdentRec) : LinkPort := takeAck (takeAck (takeAck p 0 r.rxC.toNat) 1 r.rxA.toNat) 2 r.rxB.toNat

/-- R257: the held flits of a VC go on from what the peer has received. -/
def goesOn (p : LinkPort) (vc : Nat) (rx : BitVec 12) : Bool :=
  match heldOf p vc with
  | [] => true
  | h :: _ => h.flit.seq == (rx.toNat + 1) % 4096

/-- R257: the port still holds its flits for this peer, and they go on from what the peer has received. -/
def canResume (p : LinkPort) (r : IdentRec) : Bool :=
  let q := ackedBy p r
  p.leftUp && goesOn q 0 r.rxC && goesOn q 1 r.rxA && goesOn q 2 r.rxB

/-- R257: on an unchanged peer, each VC drops what the peer has received and resends the rest. -/
def resumeFrom (p : LinkPort) (r : IdentRec) (clock : Nat) : LinkPort := resendAll { ackedBy p r with leftUp := false } clock

/-- LINK_STAT (R259). -/
def linkStatWord (p : LinkPort) : Word :=
  BitVec.ofNat 32 (p.st * 2 ^ 29 + p.cause * 2 ^ 26 + b2n p.saved * 2 ^ 25 + b2n p.peerFence * 2 ^ 24 + p.peerLink % 128)

/-- LINK_TRAIN (R259). -/
def linkTrainWord (p : LinkPort) (clock : Nat) : Word :=
  BitVec.ofNat 32 (min 6 (recentRetrains p clock).length * 2 ^ 24 + p.total * 2 ^ 10 + fenceRemaining p clock)

/-- OE_STAT.UPMASK (R259). -/
def upMask (k : LinkState) (e : Nat) : Nat :=
  foldRange 8 (fun m i => if (portOf k (8 * e + i)).st = lsUp then m + 2 ^ i else m) 0

/-- OE_BLADE (R259). -/
def bladeWord (b : Blade) : Word :=
  BitVec.ofNat 32 (b2n b.present * 2 ^ 31 + b2n b.release * 2 ^ 30 + b.spareUsed * 2 ^ 20 + b.spareBad * 2 ^ 16 + b.lfail)

/-- R239: the links that active laser (l, h, w) of blade b feeds; the laser's index is 8l + 4h + w. -/
def laserLinks (b laser : Nat) : List Nat := (List.range 4).map (fun i => 16 * b + 8 * (laser / 8) + 4 * (laser / 4 % 2) + i)

/-- The 16 links of a blade. -/
def bladeLinks (b : Nat) : List Nat := (List.range 16).map (fun i => 16 * b + i)

/-- Changing several ports. -/
def updPorts (k : LinkState) (ls : List Nat) (f : LinkPort → LinkPort) : LinkState :=
  ls.foldl (fun s l => setPort s l (f (portOf s l))) k

/-- R239, R242: the laser of wavelength w of link l gives light: it works, or a working spare replaces it; the blade is seated. -/
def laserLit (k : LinkState) (l w : Nat) : Bool :=
  let b := bladeOf k (l / 16)
  let laser := 8 * (l / 8 % 2) + 4 * (l / 4 % 2) + w
  b.present && !b.stuck
    && (!b.lfail.testBit laser || (b.spareUsed.testBit w && !b.spareBad.testBit w && smGet 0 b.spareFor w == laser))

/-- R242: a link has light at its four wavelengths. -/
def linkLit (k : LinkState) (l : Nat) : Bool := (List.range 4).all (laserLit k l)

/-- R242: losing light for good: DOWN with cause NO_LIGHT, unless DISABLED. -/
def noLight (p : LinkPort) : LinkPort := if p.st = lsDisabled then p else goDown p 2

/-- R240, R242: a laser is declared failed: active lasers 0–15, spares 16–19 by wavelength. -/
def laserFail (k : LinkState) (b laser : Nat) : LinkState :=
  let x := bladeOf k b
  if !x.present then k
  else if 16 ≤ laser then
    let w := laser - 16
    if x.spareBad.testBit w then k
    else
      let x1 := { x with spareBad := x.spareBad + 2 ^ w }
      if x.spareUsed.testBit w then updPorts (setBlade k b x1) (laserLinks b (smGet 0 x.spareFor w)) noLight
      else setBlade k b x1
  else if x.lfail.testBit laser then k
  else
    let w := laser % 4
    let x1 := { x with lfail := x.lfail + 2 ^ laser }
    if x.spareUsed.testBit w || x.spareBad.testBit w then updPorts (setBlade k b x1) (laserLinks b laser) noLight
    else
      updPorts (setBlade k b { x1 with spareUsed := x1.spareUsed + 2 ^ w, spareFor := smSet 0 x1.spareFor w laser })
        (laserLinks b laser) (fun p => laserPause p w)

/-- R243: a blade is drawn: its links lose light at once, unless they are already DISABLED. -/
def bladeDrawn (k : LinkState) (b : Nat) : LinkState :=
  updPorts (setBlade k b { bladeOf k b with present := false, stuck := false }) (bladeLinks b) noLight

/-- R243, R259: a blade is seated: its state clears, and Kiln, once it trains links (kiln), trains its 16 links; one left partly
seated trains nothing (R474). -/
def bladeInserted (k : LinkState) (b : Nat) (useSaved kiln : Bool) : LinkState :=
  let x := bladeOf k b
  if x.present then k
  else if x.stuck then setBlade k b { blade0 with present := true, stuck := true }
  else updPorts (setBlade k b { blade0 with present := true }) (bladeLinks b) (fun p =>
    if kiln then startTraining p useSaved else if p.st = lsDown ∧ p.cause = 2 then { p with cause := 0 } else p)

end Sys2Proof.Machine
end

