-- ==== Sys2Proof/Machine/MemState.lean ====
section
/-! DEFINITION. The state of the memory tiers, the Tier Map, the I/O ring's edge ports and the movers
(spec/08_memory_tiers.md, spec/06_die_mesh_and_groupings.md R174, R175). Plain data. -/

namespace Sys2Proof.Machine

/-- Error and status registers of one HBM stack or DDR5 channel (R234). -/
structure MemDev where
  ce        : Nat
  ue        : Nat
  trained   : Bool
  throttled : Bool
  present   : Bool
  lastue    : Nat
  deriving DecidableEq, Repr

/-- Who asked for a migration (R222, R226, R227): a tile's MIGRATE, Kiln's own migration, or a retirement copy. -/
inductive MigrWho where
  | mover (m : Nat) (d : MDesc) (enter : Nat)
  | kiln
  | retire
  deriving DecidableEq, Repr

/-- A migration in progress (R222). -/
structure Migr where
  page    : Nat
  tierOld : Nat
  old     : Nat
  tierNew : Nat
  new     : Nat
  who     : MigrWho
  deriving DecidableEq, Repr

/-- The memory tiers and the Tier Map (R206 to R228, R234). hbmNext and ddrNext are the first frames never yet taken; hbmBack and
ddrBack are frames returned to Kiln; hbmQ and ddrQ are the free queues (R222); unmapWait holds the moving pages that are to be
unmapped once their migration has ended, and whether their frame is then written to zero (R213); stale holds the entries changed
in this IR cycle as lookups still see them, and tmapBy the index after the last party to update one in it (R212); ceLog the
corrected errors of the last 24 hours by tier, frame, IR cycle and count (R227); scrubBad the frames whose errors wait, and
whether they were all corrected. -/
structure MemState where
  tmap      : SMap Word
  hbm       : SMap Byte
  ddr       : SMap Byte
  hbmNext   : Nat
  ddrNext   : Nat
  hbmBack   : List Nat
  ddrBack   : List Nat
  hbmQ      : List Nat
  ddrQ      : List Nat
  retired   : List (Nat × Nat)
  faultOn   : Bool
  faultPage : Nat
  faultSt   : Nat
  faultMov  : Nat
  faultPart : Nat
  hbmDev    : SMap MemDev
  ddrDev    : SMap MemDev
  scrubBad  : List (Nat × Nat × Bool)
  migr      : List Migr
  release   : List (Nat × Nat × Nat)
  unmapWait : List (Nat × Bool)
  stale     : List (Nat × Word)
  tmapBy    : Nat
  ceLog     : List (Nat × Nat × Nat × Nat)
  deriving DecidableEq, Repr

/-- Where a ring transfer toward a tile comes from, and so who learns its end: a delivery for the tile's own MREQ, a GETW or CPUT
of a mover (rest holds the words of a CPUT that go on at the next member), a WRITE or GATHER packet (with its data, for the Ember
tap), or the result of a reduction. Movers keep the IR cycle in which the descriptor entered and the bound of R229. -/
inductive Origin where
  | deliver (mover op : Nat) (d : MDesc) (enter bound : Nat)
  | mwrite (mover op : Nat) (d : MDesc) (rest : List (List Byte)) (enter bound : Nat)
  | packet (cls : PClass) (h : PktHdr) (words : List (List Byte))
  | result (part : Nat)
  deriving DecidableEq, Repr

/-- Words the ring holds ready for a tile (R175), the edge port that carried the first of them, and the source that still awaits
the transfer's end. -/
structure RingXfer where
  id    : Nat
  tile  : Nat
  words : List MWord
  port  : Option Nat
  org   : Option Origin
  deriving DecidableEq, Repr

/-- A mover transfer that waits for pull reads, for its visibility point, or for its packets' completions: the tile and byte
address that it pulls from, the words needed and those read, the IR cycle in which the descriptor entered, its bound, the
status found, and whether it was cancelled. -/
structure PullXfer where
  id     : Nat
  mover  : Nat
  op     : Nat
  d      : MDesc
  src    : Nat
  addr   : Nat
  need   : Nat
  got    : List (List Byte)
  enter  : Nat
  bound  : Nat
  status : Nat
  gone   : Bool
  deriving DecidableEq, Repr

/-- One mover (R214, R234): its input queue with the IR cycle in which each descriptor entered, and its registers. -/
structure Mover where
  queue : List (MDesc × Nat)
  late  : Word
  errOn : Bool
  errSt : Nat
  errOp : Nat
  errRow : Nat
  errCol : Nat
  deriving DecidableEq, Repr

/-- The I/O ring: movers, edge slot tables (key (512 × port + index) × 4 + quarter, value tile + 1), the outbound queues of
the edge ports, the last control message that crossed each EN and ES port (R170, R171), the transfers in progress, and the IR cycle and edge
port of the last inbound flit built (R175). -/
structure RingState where
  movers  : SMap Mover
  tables  : SMap Nat
  outQ    : SMap (List MDesc)
  ready   : List RingXfer
  live    : List RingXfer
  pulls   : List PullXfer
  nextId  : Nat
  ctl     : SMap (BitVec 128)
  fillAt  : Option (Nat × Nat)
  deriving DecidableEq, Repr

end Sys2Proof.Machine
end

