-- ==== Sys2Proof/Machine/Memory.lean ====
section
/-! DEFINITION. The memory tiers and the Tier Map (spec/08_memory_tiers.md R206 to R228): frames, entries, translation, free
frames, migration, error records. -/

namespace Sys2Proof.Machine

/-- R206, R207: HBM frames. -/
def hbmFrames : Nat := 4194304

/-- R206, R207: DDR5 frames. -/
def ddrFrames : Nat := 6291456

/-- Frames of a tier (0 HBM, 1 DDR5), with the DDR5 tier fitted or not. -/
def tierFrames (tier : Nat) (ddr : Bool) : Nat := if tier = 0 then hbmFrames else if ddr then ddrFrames else 0

/-- A fresh controller's registers. -/
def memDev0 : MemDev := ⟨0, 0, false, false, false, 0⟩

/-- The memory after VIN comes on: nothing mapped, no frame taken (R209). -/
def memInit : MemState :=
  ⟨[], [], [], 0, 0, [], [], [], [], [], false, 0, 0, 0, 0, [], [], [], [], [], [], [], 0, []⟩

/-- A mover with an empty queue. -/
def mover0 : Mover := ⟨[], 0, false, 0, 0, 0, 0⟩

/-- The ring with nothing under way. -/
def ringInit : RingState := ⟨[], [], [], [], [], [], 0, [], none⟩

/-- A Tier Map entry (R209). -/
def tmapGet (m : MemState) (page : Nat) : Word := smGet 0 m.tmap page

/-- R212: a party (mover 0 to 63, Kiln 64) updates a Tier Map entry: lookups of the IR cycle still see the entry as it was before it. -/
def tmapSetBy (m : MemState) (party page : Nat) (w : Word) : MemState :=
  { m with
    tmap := smSet 0 m.tmap page w
    stale := if m.stale.any (fun e => e.1 == page) then m.stale else m.stale ++ [(page, tmapGet m page)]
    tmapBy := party + 1 }

/-- Kiln's update of a Tier Map entry. -/
def tmapSet (m : MemState) (page : Nat) (w : Word) : MemState := tmapSetBy m 64 page w

/-- R212: the Tier Map as the lookups of the IR cycle see it. -/
def seenMap (m : MemState) : SMap Word := m.stale.foldl (fun t e => smSet 0 t e.1 e.2) m.tmap

/-- R212: the memory as the lookups of the IR cycle see it. -/
def seenMem (m : MemState) : MemState := { m with tmap := seenMap m }

/-- VALID of an entry. -/
def teValid (w : Word) : Bool := w.getLsbD 31

/-- WRITABLE of an entry. -/
def teWritable (w : Word) : Bool := w.getLsbD 30

/-- PART of an entry. -/
def tePart (w : Word) : Nat := bits w.toNat 27 3

/-- TIER of an entry. -/
def teTier (w : Word) : Nat := bits w.toNat 26 1

/-- MOVING of an entry. -/
def teMoving (w : Word) : Bool := w.getLsbD 25

/-- FRAME of an entry. -/
def teFrame (w : Word) : Nat := bits w.toNat 0 24

/-- Making an entry (R209). -/
def teMake (writable : Bool) (part tier : Nat) (moving : Bool) (frame : Nat) : Word :=
  BitVec.ofNat 32 (2 ^ 31 + b2n writable * 2 ^ 30 + part * 2 ^ 27 + tier * 2 ^ 26 + b2n moving * 2 ^ 25 + frame)

/-- The byte of a frame (R207): frame × 2^18 + offset in its tier. -/
def memByte (m : MemState) (tier key : Nat) : Byte := smGet 0 (if tier = 0 then m.hbm else m.ddr) key

/-- Writing a byte of a frame. -/
def memSetByte (m : MemState) (tier key : Nat) (b : Byte) : MemState :=
  if tier = 0 then { m with hbm := smSet 0 m.hbm key b } else { m with ddr := smSet 0 m.ddr key b }

/-- Reading n bytes of a frame. -/
def memRead (m : MemState) (tier key n : Nat) : List Byte := (List.range n).map (fun i => memByte m tier (key + i))

/-- Writing bytes of a frame. -/
def memWrite (m : MemState) (tier key : Nat) : List Byte → MemState
  | [] => m
  | b :: bs => memWrite (memSetByte m tier key b) tier (key + 1) bs

/-- The statuses of a translation (R211). -/
inductive TransRes where
  | ok (tier key : Nat)
  | wait
  | bad (status : Nat)
  deriving DecidableEq, Repr

/-- R211: translating an access; parts are the partitions that pass the check. -/
def translate (m : MemState) (va : Nat) (parts : List Nat) (write : Bool) : TransRes :=
  if va ≥ 2 ^ 42 then .bad 0x30
  else
    let e := tmapGet m (va / 2 ^ 18)
    if !teValid e then .bad 0x30
    else if !(parts.contains (tePart e)) then .bad 0x31
    else if write && !teWritable e then .bad 0x32
    else if write && teMoving e then .wait
    else .ok (teTier e) (teFrame e * 2 ^ 18 + va % 2 ^ 18)

/-- R211: a transfer of n bytes is translated once per page, and refused whole if either fails. -/
def translateRange (m : MemState) (va n : Nat) (parts : List Nat) (write : Bool) : TransRes :=
  let a := translate m va parts write
  let last := va + (n - 1)
  if va / 2 ^ 18 = last / 2 ^ 18 then a
  else
    let b := translate m (last / 2 ^ 18 * 2 ^ 18) parts write
    match a, b with
    | .bad s, _ => .bad s
    | _, .bad s => .bad s
    | .wait, _ => .wait
    | _, .wait => .wait
    | r, _ => r

/-- Reading bytes at device virtual addresses through the entries, with no check (Kiln's own and checked accesses). An entry that
is not VALID names no frame (DESIGN CHOICE): 0. -/
def vaRead (m : MemState) (va n : Nat) : List Byte :=
  (List.range n).map (fun i =>
    let e := tmapGet m ((va + i) / 2 ^ 18)
    if teValid e then memByte m (teTier e) (teFrame e * 2 ^ 18 + (va + i) % 2 ^ 18) else 0)

/-- Writing bytes at device virtual addresses through the entries; one that is not VALID takes nothing. -/
def vaWrite (m : MemState) (va : Nat) : List Byte → MemState
  | [] => m
  | b :: bs =>
    let e := tmapGet m (va / 2 ^ 18)
    vaWrite (if teValid e then memSetByte m (teTier e) (teFrame e * 2 ^ 18 + va % 2 ^ 18) b else m) (va + 1) bs

/-- R212: writing bytes at device virtual addresses through the entries that the lookups of the IR cycle see. -/
def seenWrite (m : MemState) (va : Nat) (bs : List Byte) : MemState := { vaWrite (seenMem m) va bs with tmap := m.tmap }

/-- R218: the page whose translation fails first in a range of n bytes. -/
def failPage (m : MemState) (va n : Nat) (parts : List Nat) (write : Bool) : Nat :=
  match translate m va parts write with
  | .bad _ => va / 2 ^ 18
  | _ => (va + (n - 1)) / 2 ^ 18

/-- R218, R234: recording a translation failure in TMAP_FAULT: the first since VALID was last clear. -/
def tmapFault (m : MemState) (page status mover part : Nat) : MemState :=
  if m.faultOn then m
  else { m with faultOn := true, faultPage := page, faultSt := status, faultMov := mover, faultPart := part }

/-- The free queue of a tier (R222). -/
def freeQueue (m : MemState) (tier : Nat) : List Nat := if tier = 0 then m.hbmQ else m.ddrQ

/-- Setting the free queue of a tier. -/
def setFreeQueue (m : MemState) (tier : Nat) (q : List Nat) : MemState :=
  if tier = 0 then { m with hbmQ := q } else { m with ddrQ := q }

/-- The frames a tier's Kiln side still holds free: returned ones, then the never-taken ones. -/
def kilnBack (m : MemState) (tier : Nat) : List Nat := if tier = 0 then m.hbmBack else m.ddrBack

/-- The first never-taken frame of a tier. -/
def kilnNext (m : MemState) (tier : Nat) : Nat := if tier = 0 then m.hbmNext else m.ddrNext

/-- A frame is retired (R226, R228). -/
def isRetired (m : MemState) (tier frame : Nat) : Bool := m.retired.contains (tier, frame)

/-- Taking one free frame from Kiln's side, skipping retired ones; fuel bounds the skips by the retired frames. -/
def takeFresh (m : MemState) (tier limit : Nat) : Nat → Nat → Option (Nat × MemState)
  | 0, _ => none
  | k + 1, f =>
    if f ≥ limit then none
    else
      let m1 := if tier = 0 then { m with hbmNext := f + 1 } else { m with ddrNext := f + 1 }
      if isRetired m tier f then takeFresh m tier limit k (f + 1) else some (f, m1)

/-- One free frame from Kiln's side. -/
def kilnTake (m : MemState) (tier : Nat) (ddr : Bool) : Option (Nat × MemState) :=
  match kilnBack m tier with
  | f :: fs => some (f, if tier = 0 then { m with hbmBack := fs } else { m with ddrBack := fs })
  | [] => takeFresh m tier (tierFrames tier ddr) (m.retired.length + 1) (kilnNext m tier)

/-- Returning a frame to Kiln (R222); a retired frame never returns (R226). -/
def kilnReturn (m : MemState) (tier frame : Nat) : MemState :=
  if isRetired m tier frame then m
  else if tier = 0 then { m with hbmBack := m.hbmBack ++ [frame] } else { m with ddrBack := m.ddrBack ++ [frame] }

/-- R222: refilling a tier's free queue with up to n frames, never past 1,024. -/
def refillQueue (m : MemState) (tier : Nat) (ddr : Bool) : Nat → MemState
  | 0 => m
  | n + 1 =>
    if (freeQueue m tier).length ≥ 1024 then m
    else
      match kilnTake m tier ddr with
      | none => m
      | some (f, m1) => refillQueue (setFreeQueue m1 tier (freeQueue m1 tier ++ [f])) tier ddr n

/-- The frames free in a tier (TMAP_FREE, R234): queued, returned, or never taken, and not retired. -/
def freeFrames (m : MemState) (tier : Nat) (ddr : Bool) : Nat :=
  (freeQueue m tier).length + (kilnBack m tier).length + (tierFrames tier ddr - kilnNext m tier)
    - (m.retired.filter (fun r => r.1 == tier && decide (kilnNext m tier ≤ r.2))).length

/-- A frame for a mapping: from Kiln's side first, then from the queue. -/
def takeFrame (m : MemState) (tier : Nat) (ddr : Bool) : Option (Nat × MemState) :=
  match kilnTake m tier ddr with
  | some r => some r
  | none =>
    match freeQueue m tier with
    | f :: fs => some (f, setFreeQueue m tier fs)
    | [] => none

/-- R207: the stack or channel of a frame. -/
def devOf (tier frame : Nat) : Nat := if tier = 0 then frame % 16 else frame % 12

/-- The registers of a frame's controller. -/
def memDevOf (m : MemState) (tier i : Nat) : MemDev := smGet memDev0 (if tier = 0 then m.hbmDev else m.ddrDev) i

/-- Setting the registers of a controller. -/
def setMemDev (m : MemState) (tier i : Nat) (d : MemDev) : MemState :=
  if tier = 0 then { m with hbmDev := smSet memDev0 m.hbmDev i d } else { m with ddrDev := smSet memDev0 m.ddrDev i d }

/-- R225: an uncorrectable error of a frame, counted and recorded. -/
def countUe (m : MemState) (tier frame : Nat) : MemState :=
  let i := devOf tier frame
  let d := memDevOf m tier i
  setMemDev m tier i { d with ue := min (d.ue + 1) 0xFFFF, lastue := frame }

/-- R224: a corrected error of a frame. -/
def countCe (m : MemState) (tier frame n : Nat) : MemState :=
  let i := devOf tier frame
  let d := memDevOf m tier i
  setMemDev m tier i { d with ce := min (d.ce + n) 0xFFFF }

/-- The pages that name a frame. -/
def pagesOf (m : MemState) (tier frame : Nat) : List Nat :=
  (m.tmap.filter (fun p => teValid p.2 && teTier p.2 == tier && teFrame p.2 == frame)).map (·.1)

/-- R222: the page copy of a migration: 256 KiB from the old frame to the new; the blocks of the list are written as
zeros (R226). -/
def copyFrame (m : MemState) (g : Migr) (bad : List Nat) : MemState :=
  let src := if g.tierOld = 0 then m.hbm else m.ddr
  let lo := g.old * 2 ^ 18
  let cells := src.filter (fun p => decide (lo ≤ p.1) && decide (p.1 < lo + 2 ^ 18)
    && !bad.contains ((p.1 - lo) / 256))
  let nlo := g.new * 2 ^ 18
  let clear := fun (x : SMap Byte) => x.filter (fun p => !(decide (nlo ≤ p.1) && decide (p.1 < nlo + 2 ^ 18)))
  let m1 := if g.tierNew = 0 then { m with hbm := clear m.hbm } else { m with ddr := clear m.ddr }
  cells.foldl (fun x p => memSetByte x g.tierNew (p.1 - lo + nlo) p.2) m1

/-- Writing zeros into a frame (R391). -/
def zeroFrame (m : MemState) (tier frame : Nat) : MemState :=
  let lo := frame * 2 ^ 18
  let clear := fun (x : SMap Byte) => x.filter (fun p => !(decide (lo ≤ p.1) && decide (p.1 < lo + 2 ^ 18)))
  if tier = 0 then { m with hbm := clear m.hbm } else { m with ddr := clear m.ddr }

/-- Unmapping a page: its entry reads 0 and its frame returns to Kiln (R391, R457). -/
def unmapNow (m : MemState) (page : Nat) (zero : Bool) : MemState :=
  let e := tmapGet m page
  let m1 := if zero then zeroFrame m (teTier e) (teFrame e) else m
  kilnReturn (tmapSet m1 page 0) (teTier e) (teFrame e)

/-- R213: at the end of a page's migration an unmap that waited applies to the entry as the migration left it. -/
def unmapWaiting (m : MemState) (page : Nat) : MemState :=
  match m.unmapWait.find? (fun u => u.1 == page) with
  | none => m
  | some u => unmapNow { m with unmapWait := m.unmapWait.filter (fun v => v.1 != page) } page u.2

/-- Retiring a frame (R226): it never returns to a free queue. -/
def retireFrame (m : MemState) (tier frame : Nat) : MemState :=
  if isRetired m tier frame then m
  else { m with
    retired := m.retired ++ [(tier, frame)]
    hbmQ := if tier = 0 then m.hbmQ.filter (· != frame) else m.hbmQ
    ddrQ := if tier = 1 then m.ddrQ.filter (· != frame) else m.ddrQ
    hbmBack := if tier = 0 then m.hbmBack.filter (· != frame) else m.hbmBack
    ddrBack := if tier = 1 then m.ddrBack.filter (· != frame) else m.ddrBack }

/-- R223: the completion record of MIGRATE as 64 bytes. -/
def migrRecord (status tier old new : Nat) : List Byte :=
  leBytes 64 (new + old * 2 ^ 24 + tier * 2 ^ 55 + status * 2 ^ 56)

/-- R229: the bound of a mover operation in IR cycles (0.625 ns each). words is the number of words, ddr says the data
lies in DDR5. -/
def moverBound (op words : Nat) (ddr : Bool) : Nat :=
  match op with
  | 0 => if words ≤ 4 then (if ddr then 2560 else 1440) else (if ddr then 3200 else 1920)
  | 1 => 1600
  | 2 => (if words ≤ 4 then (if ddr then 2560 else 1440) else (if ddr then 3200 else 1920)) + 320
  | 3 => 960
  | 4 => 960
  | _ => 1440

/-- HBM_ERR and DDR_ERR (R234). -/
def memErrWord (d : MemDev) : Word := BitVec.ofNat 32 (d.ce * 2 ^ 16 + d.ue)

/-- HBM_STAT and DDR_STAT (R234); HBM PRESENT reads 1. -/
def memStatWord (tier : Nat) (d : MemDev) : Word :=
  BitVec.ofNat 32 (b2n d.trained * 2 ^ 31 + (if tier = 0 then b2n d.throttled else 0) * 2 ^ 30
    + (if tier = 0 then 1 else b2n d.present) * 2 ^ 29 + d.lastue)

/-- MOV_ERR (R234). -/
def movErrWord (m : Mover) : Word :=
  BitVec.ofNat 32 (b2n m.errOn * 2 ^ 31 + m.errSt * 2 ^ 16 + m.errOp * 2 ^ 13 + m.errRow * 2 ^ 6 + m.errCol)

/-- R218: recording the first refusal since VALID was last clear. -/
def movError (m : Mover) (status op tile : Nat) : Mover :=
  if m.errOn then m
  else { m with errOn := true, errSt := status, errOp := op, errRow := tile / 64, errCol := tile % 64 }

end Sys2Proof.Machine
end

