-- ==== Sys2Proof/Machine/Fabric.lean ====
section
/-! DEFINITION. Addresses, link maps, routing, cords and phase groups of the fabric (spec/10_fabric_and_cords.md R260 to R279). -/

namespace Sys2Proof.Machine

/-- A cord that is not set up. -/
def cord0 : CordEntry := ⟨false, 0, false, false, 1, 1, 1, 0, 0, 0, 0, 0, 0, 0, 0⟩

/-- A barrier channel with nothing counted. -/
def bar0 : BarState := ⟨0, none, 0, [], []⟩

/-- The reduction engines with nothing held. -/
def redInit : RedState := ⟨[], [], [], [], [], []⟩

/-- The fabric side after VIN comes on. -/
def fabInit : FabState where
  addrOn := false
  root := false
  addr := 0
  sxm := 0
  sym := 0
  szm := 0
  map := []
  lines := []
  mine := []
  ftime := 0
  corr := 0
  ftValid := false
  stepped := false
  depth := 0
  parent := 0
  offset := 0
  rate := 0
  period := 0
  acc := 0
  lastX := none
  t1 := none
  seqs := []
  out := []
  gathers := []
  cords := []
  bars := []
  red := redInit
  hiLatch := 0

/-- Coordinate d (0 x, 1 y, 2 z) of a fabric address (R263). -/
def coord (a : BitVec 16) (d : Nat) : Nat := bits a.toNat (5 * d) 5

/-- GW of a fabric address. -/
def isGw (a : BitVec 16) : Bool := a.getLsbD 15

/-- A fabric address with coordinate d replaced. -/
def setCoord (a : BitVec 16) (d c : Nat) : BitVec 16 :=
  BitVec.ofNat 16 (a.toNat - coord a d * 32 ^ d + c % 32 * 32 ^ d)

/-- S_d of the fabric. -/
def dimSize (f : FabState) (d : Nat) : Nat := (if d = 0 then f.sxm else if d = 1 then f.sym else f.szm) + 1

/-- LINK_MAP of a link. -/
def mapOf (f : FabState) (l : Nat) : Nat := (smGet 0 f.map l).toNat

/-- ROLE of a LINK_MAP entry (R292). -/
def mapRole (w : Nat) : Nat := bits w 29 2
/-- DIM. -/
def mapDim (w : Nat) : Nat := bits w 27 2
/-- OFS. -/
def mapOfs (w : Nat) : Nat := bits w 22 5
/-- EDGE. -/
def mapEdge (w : Nat) : Nat := bits w 20 2
/-- PLINK. -/
def mapPlink (w : Nat) : Nat := bits w 13 7

/-- Making a LINK_MAP entry. -/
def mapMake (role dim ofs edge plink : Nat) : Word :=
  BitVec.ofNat 32 (2 ^ 31 + role * 2 ^ 29 + dim * 2 ^ 27 + ofs * 2 ^ 22 + edge * 2 ^ 20 + plink * 2 ^ 13)

/-- R261, R292: the default link map for the three sizes. -/
def defaultMap (sx sy sz l : Nat) : Word :=
  if 93 ≤ l then mapMake 2 0 0 (l - 93) 0
  else
    let d := l / 31
    let s := if d = 0 then sx else if d = 1 then sy else sz
    if s = 1 then mapMake 0 0 0 0 0 else mapMake 1 d (l % 31 % (s - 1) + 1) 0 l

/-- The default map applies to sizes 1, 2, 4, 8, 16 and 32 (R261). -/
def defaultSize (s : Nat) : Bool := [1, 2, 4, 8, 16, 32].contains s

/-- R292: an explicit map is refused where a dimension entry has OFS 0 or names a coordinate outside its dimension, a ROLE or
DIM is reserved, or two gateway entries share an EDGE. -/
def mapOk (addr : BitVec 16) (sx sy sz : Nat) (m : Nat → Nat) : Bool :=
  let size := fun (d : Nat) => if d = 0 then sx else if d = 1 then sy else sz
  let gws := (List.range 96).filter (fun l => mapRole (m l) == 2)
  (List.range 96).all (fun l =>
      (mapRole (m l) != 1 || (mapDim (m l) != 3 && mapOfs (m l) != 0
        && decide ((coord addr (mapDim (m l)) ^^^ mapOfs (m l)) < size (mapDim (m l)))))
      && mapRole (m l) != 3)
    && (gws.map (fun l => mapEdge (m l))).eraseDups.length == gws.length

/-- R265: the address that an admitted peer must have. -/
def expectedPeer (f : FabState) (l : Nat) : BitVec 16 :=
  let w := mapOf f l
  if mapRole w = 2 then f.addr ||| 0x8000 else setCoord f.addr (mapDim w) (coord f.addr (mapDim w) ^^^ mapOfs w)

/-- R265: the admission test of a link in IDENT. -/
def admitOk (f : FabState) (l : Nat) (r : IdentRec) : Bool :=
  let w := mapOf f l
  f.addrOn && r.fvalid && (mapRole w == 1 || mapRole w == 2) && r.link == mapPlink w && r.faddr == expectedPeer f l

/-- R270: the UP links of a bundle, ascending. -/
def bundle (k : LinkState) (f : FabState) (d v : Nat) : List Nat :=
  (List.range 96).filter (fun l =>
    let w := mapOf f l
    mapRole w == 1 && mapDim w == d && mapOfs w == v && (portOf k l).st == lsUp && !(portOf k l).lockstep)

/-- R271: this module's bundle mask of a dimension. -/
def bundleMask (k : LinkState) (f : FabState) (d : Nat) : Nat :=
  foldRange 31 (fun m i => if (bundle k f d (i + 1)).isEmpty then m else m + 2 ^ i) 0

/-- R271: the row of a coordinate in a line state table. -/
def lineRow (f : FabState) (d m : Nat) : Nat := smGet 0 f.lines (32 * d + m)

/-- R270: the detour target of dimension d towards coordinate c. -/
def detourTarget (k : LinkState) (f : FabState) (d c : Nat) : Option Nat :=
  let own := coord f.addr d
  (List.range (dimSize f d)).find? (fun m =>
    m != own && m != c && !(bundle k f d (m ^^^ own)).isEmpty && (lineRow f d m).testBit ((m ^^^ c) - 1))

/-- Where a packet goes from here (R270). -/
inductive RouteRes where
  | here
  | link (l vc : Nat) (dtr : Bool)
  | refuse (status : Nat)
  deriving DecidableEq, Repr

/-- R270: dimension-order routing with one detour per dimension; hash is h(p). -/
def route (k : LinkState) (f : FabState) (dst : BitVec 16) (hash edge : Nat) (dtr : Bool) : RouteRes :=
  match (List.range 3).find? (fun d => coord dst d != coord f.addr d) with
  | some d =>
    let v := coord dst d ^^^ coord f.addr d
    let b := bundle k f d v
    if dtr then (if b.isEmpty then .refuse 0x27 else .link (nth0 b (hash % b.length)) 2 false)
    else if !b.isEmpty then .link (nth0 b (hash % b.length)) 1 false
    else
      match detourTarget k f d (coord dst d) with
      | none => .refuse 0x27
      | some m =>
        let b2 := bundle k f d (m ^^^ coord f.addr d)
        .link (nth0 b2 (hash % b2.length)) 1 true
  | none =>
    if isGw dst then (if edge < 3 ∧ ¬ (portOf k (93 + edge)).lockstep then .link (93 + edge) 1 false else .refuse 0x27) else .here

/-- The destination of a packet. -/
def packetDst (p : Packet) : BitVec 16 :=
  match p with
  | .bulk _ h _ => h.dst
  | .compl (c :: _) => c.dst
  | .compl [] => 0
  | .barrier h _ _ _ => h.dst
  | .lineState d _ _ _ _ => d
  | .time d _ _ _ _ _ _ => d
  | .ident _ => 0
  | .fence _ => 0

/-- The source of a packet. -/
def packetSrc (p : Packet) : BitVec 16 :=
  match p with
  | .bulk _ h _ => h.src
  | .compl (c :: _) => c.src
  | .compl [] => 0
  | .barrier h _ _ _ => h.src
  | .lineState _ x _ _ _ => x
  | .time _ x _ _ _ _ _ => x
  | .ident _ => 0
  | .fence _ => 0

/-- The number of the target tile of a packet; one without a target tile has 0 there. -/
def packetTile (p : Packet) : Nat :=
  match p with
  | .bulk _ h _ => 64 * h.trow + h.tcol
  | .barrier h _ _ _ => 64 * h.trow + h.tcol
  | _ => 0

/-- h(p) of R270. -/
def packetHash (p : Packet) : Nat := (packetSrc p).toNat ^^^ (packetDst p).toNat ^^^ packetTile p

/-- EDGE of a packet. -/
def packetEdge (p : Packet) : Nat :=
  match p with
  | .bulk _ h _ => h.edge
  | .compl (c :: _) => c.edge
  | _ => 0

/-- DTR of a packet. -/
def packetDtr (p : Packet) : Bool :=
  match p with
  | .bulk _ h _ => h.dtr
  | .barrier h _ _ _ => h.dtr
  | .compl (c :: _) => c.dtr
  | .lineState _ _ _ _ b => b
  | .time _ _ _ _ _ _ b => b
  | _ => false

/-- Setting DTR of a packet. -/
def setDtr (p : Packet) (b : Bool) : Packet :=
  match p with
  | .bulk c h w => .bulk c { h with dtr := b } w
  | .barrier h c g k => .barrier { h with dtr := b } c g k
  | .compl cs => .compl (cs.map (fun c => { c with dtr := b }))
  | .lineState d x m k _ => .lineState d x m k b
  | .time d x t1 t2 t3 a _ => .time d x t1 t2 t3 a b
  | q => q

/-- A bulk packet uses a bulk VC (R267). -/
def isBulk (p : Packet) : Bool :=
  match p with
  | .bulk _ _ _ => true
  | _ => false

/-- A cord entry. -/
def cordOf (f : FabState) (c : Nat) : CordEntry := smGet cord0 f.cords c

/-- N of a cord. -/
def cordN (c : CordEntry) : Nat := c.rx * c.ry * c.rz

/-- The digits of a rank (spec/10_fabric_and_cords.md, Cords). -/
def rankX (c : CordEntry) (r : Nat) : Nat := r % c.rx
/-- r_y. -/
def rankY (c : CordEntry) (r : Nat) : Nat := r / c.rx % c.ry
/-- r_z. -/
def rankZ (c : CordEntry) (r : Nat) : Nat := r / (c.rx * c.ry)

/-- The rank of three digits. -/
def rankOf (c : CordEntry) (x y z : Nat) : Nat := x + c.rx * y + c.rx * c.ry * z

/-- R276: the fabric address of a rank, from the member table in HBM. -/
def memberAddr (m : MemState) (c : CordEntry) (r : Nat) : BitVec 16 :=
  BitVec.ofNat 16 (leNat (memRead m 0 (c.mframe * 2 ^ 18 + 2 * r) 2))

/-- Writing a row of a member table. -/
def setMember (m : MemState) (c : CordEntry) (r : Nat) (a : BitVec 16) : MemState :=
  memWrite m 0 (c.mframe * 2 ^ 18 + 2 * r) (leBytes 2 a.toNat)

/-- The ranks of a rank's phase group, itself included, ascending. -/
def phaseGroup (c : CordEntry) (phase r : Nat) : List Nat :=
  match phase with
  | 1 => (List.range c.rx).map (fun x => rankOf c x (rankY c r) (rankZ c r))
  | 2 => (List.range c.ry).map (fun y => rankOf c (rankX c r) y (rankZ c r))
  | _ => (List.range c.rz).map (fun z => rankOf c (rankX c r) (rankY c r) z)

/-- The other members of a rank's phase group. -/
def phasePeers (c : CordEntry) (phase r : Nat) : List Nat := (phaseGroup c phase r).filter (· != r)

/-- R276: reading a cord entry from its 256 bits. -/
def decCord (w : Nat) : CordEntry :=
  { valid := bitAt w 255, part := bits w 252 3, ember := bitAt w 251, digest := bitAt w 250
    rx := bits w 245 5 + 1, ry := bits w 240 5 + 1, rz := bits w 235 5 + 1, myrank := bits w 220 15
    ifmt := bits w 216 4, ofmt := bits w 212 4, rmode := bits w 210 2, anchor := signedOf 10 (bits w 200 10)
    btiles := bits w 188 12, mframe := bits w 160 24, gens := bits w 128 32 }

/-- R276: the 256 bits of a cord entry; an entry that is not set up reads 0. -/
def encCord (c : CordEntry) : Nat :=
  if !c.valid then 0
  else
    2 ^ 255 + c.part * 2 ^ 252 + b2n c.ember * 2 ^ 251 + b2n c.digest * 2 ^ 250 + (c.rx - 1) * 2 ^ 245 + (c.ry - 1) * 2 ^ 240
      + (c.rz - 1) * 2 ^ 235 + c.myrank * 2 ^ 220 + c.ifmt * 2 ^ 216 + c.ofmt * 2 ^ 212 + c.rmode * 2 ^ 210
      + wrapInt 10 c.anchor * 2 ^ 200 + c.btiles * 2 ^ 188 + c.mframe * 2 ^ 160 + c.gens * 2 ^ 128

/-- IFMT and OFMT of a cord are long formats that a reduction may use (R276, R277). -/
def longFmt (c : Nat) : Bool :=
  match fmtOfCode c with
  | some .fp32 => true
  | some .bf16 => true
  | some .fp16 => true
  | _ => false

/-- R277: a set-up is accepted. tiles is the tile count of PART. -/
def cordSetupOk (f : FabState) (m : MemState) (c : CordEntry) (tiles : Nat) : Bool :=
  let addrs := (List.range (cordN c)).map (memberAddr m c)
  decide (c.myrank < cordN c) && addrs.all (fun a => !isGw a) && memberAddr m c c.myrank == f.addr
    && addrs.eraseDups.length == addrs.length && decide (c.rmode < 2) && longFmt c.ifmt && longFmt c.ofmt
    && decide (c.btiles ≤ tiles)

/-- GEN of a channel (R276, R286). -/
def cordGen (c : CordEntry) (ch : Nat) : Nat := bits c.gens (8 * ch) 8

/-- Advancing GEN of a channel. -/
def cordGenStep (c : CordEntry) (ch : Nat) : CordEntry :=
  { c with gens := c.gens - cordGen c ch * 256 ^ ch + (cordGen c ch + 1) % 256 * 256 ^ ch }

/-- Setting GEN of a channel (R312). -/
def cordGenSet (c : CordEntry) (ch g : Nat) : CordEntry :=
  { c with gens := c.gens - cordGen c ch * 256 ^ ch + g % 256 * 256 ^ ch }

/-- The key of a barrier channel. -/
def barKey (cord ch : Nat) : Nat := 4 * cord + ch

/-- A barrier channel. -/
def barOf (f : FabState) (cord ch : Nat) : BarState := smGet bar0 f.bars (barKey cord ch)

/-- Setting a barrier channel. -/
def setBar (f : FabState) (cord ch : Nat) (b : BarState) : FabState := { f with bars := smSet bar0 f.bars (barKey cord ch) b }

/-- R298: combining two Kiln barrier records: the highest STATUS, its FRANK and CAUSE from the lowest rank among those. -/
def combineRec (a b : Nat × KRec) : Nat × KRec :=
  if a.2.status.val < b.2.status.val then b
  else if b.2.status.val < a.2.status.val then a
  else if a.1 ≤ b.1 then a else b

/-- FTIME in ns (R288, R292). -/
def ftimeNs (f : FabState) : Nat := f.ftime / 16000

/-- R288: the rate's share of the correction in one IR cycle: rate units in every period cycles. -/
def rateStep (f : FabState) : Int × Int :=
  if f.period = 0 then (0, 0) else ((f.acc + f.rate) / (f.period : Int), (f.acc + f.rate) % (f.period : Int))

/-- R288, R289: one IR cycle of fabric time: 0.625 ns, slewed by at most 100 ppm toward the correction, to which the rate adds. -/
def ftimeTick (f : FabState) : FabState :=
  let r := rateStep f
  let c := f.corr + r.1
  let d : Int := if 0 < c then 1 else if c < 0 then -1 else 0
  { f with ftime := (((f.ftime : Int) + 10000 + d) % (2 ^ 64 * 16000 : Nat)).toNat, corr := c - d, acc := r.2 }

/-- R288: the time parent's address: the first coordinate in which this module differs from the root is set to the root's. The
root is at root. -/
def timeParent (f : FabState) (rootAddr : BitVec 16) : BitVec 16 :=
  match (List.range 3).find? (fun d => coord f.addr d != coord rootAddr d) with
  | some d => setCoord f.addr d (coord rootAddr d)
  | none => f.addr

/-- LINK_FTSTAT (R292). -/
def ftstatWord (f : FabState) : Word :=
  BitVec.ofNat 32 (b2n f.ftValid * 2 ^ 31 + f.depth * 2 ^ 29 + f.parent * 2 ^ 22 + wrapInt 16 f.offset)

/-- LINK_FADDR (R292). -/
def faddrWord (f : FabState) : Word := BitVec.ofNat 32 (b2n f.addrOn * 2 ^ 31 + b2n f.root * 2 ^ 30 + f.addr.toNat)

/-- LINK_FSIZE (R292). -/
def fsizeWord (f : FabState) : Word := BitVec.ofNat 32 (f.szm * 2 ^ 10 + f.sym * 2 ^ 5 + f.sxm)

end Sys2Proof.Machine
end

