-- ==== Sys2Proof/Machine/Reduce.lean ====
section
/-! DEFINITION. The reduction engines (spec/10_fabric_and_cords.md R280 to R285): slots, exact addition of contributions and
partials, completion and rounding. -/

namespace Sys2Proof.Machine

/-- R280: the engine that serves a key. -/
def redEngine (trow tcol offset : Nat) : Nat := (64 * trow + tcol + offset / 4096) % 24

/-- The slots of an engine. -/
def redSlots (r : RedState) (k : Nat) : List RedSlot := smGet [] r.slots k

/-- Setting the slots of an engine. -/
def setRedSlots (r : RedState) (k : Nat) (l : List RedSlot) : RedState := { r with slots := smSet [] r.slots k l }

/-- A slot holds the key of a header (R280). -/
def sameKey (s : RedSlot) (h : PktHdr) : Bool :=
  s.cord == h.cord && s.owner == h.drank && s.trow == h.trow && s.tcol == h.tcol && s.win == h.win && s.offset == h.offset

/-- R282: one contribution element added as one term under the window rules R83 to R85, with T in place of T_s + T_w. -/
def addContribElem (a : LAcc) (e : Elem) : LAcc × NumEv :=
  match e.cls with
  | .nan => ({ a with nanf := if a.nanf = .created then .created else .propagated }, evNone)
  | .infinite => (if e.sign then { a with ninf := true } else { a with pinf := true }, evNone)
  | .finite =>
    if e.n = 0 then (a, evNone)
    else if elemT e > a.anchor + 1 then
      (if e.sign then { a with ninf := true } else { a with pinf := true }, ⟨1, 0, 0⟩)
    else
      let sh : Int := e.e - (a.anchor - 138)
      let m : Int := shiftTrunc e.n sh
      ({ a with sum := a.sum + BitVec.ofInt 160 (if e.sign then -m else m) }, ⟨0, b2n (dropsBits e.n sh), 0⟩)

/-- NANF codes (R82). -/
def nanfCode (f : NanFlag) : Nat :=
  match f with
  | .none => 0
  | .propagated => 1
  | .created => 2

/-- The flag of a NANF code. -/
def nanfOf (n : Nat) : NanFlag := if n = 0 then .none else if n = 1 then .propagated else .created

/-- R283: an element in partial form: 24 bytes. -/
def partBytes (a : LAcc) : List Byte :=
  leBytes 24 (a.sum.toNat + b2n a.pinf * 2 ^ 160 + b2n a.ninf * 2 ^ 161 + nanfCode a.nanf * 2 ^ 162)

/-- R282: adding an element in partial form. -/
def addPartElem (a : LAcc) (w : Nat) : LAcc :=
  { a with
    sum := a.sum + BitVec.ofNat 160 w
    pinf := a.pinf || bitAt w 160
    ninf := a.ninf || bitAt w 161
    nanf := nanfOf (max (nanfCode a.nanf) (bits w 162 2)) }

/-- The elements that a packet carries: the first and how many. -/
def packetElems (cls : PClass) (h : PktHdr) : Nat × Nat :=
  match cls with
  | .part => (h.elem, h.nwords * 8 / 3)
  | _ => (0, h.kelem)

/-- The mask of 16-element groups of a range of elements. -/
def groupMask (first n : Nat) : Nat := foldRange ((n + 15) / 16) (fun m i => m ||| 2 ^ (first / 16 + i)) 0

/-- R282: the first phase whose radix is not 1; a phase of radix 1 is skipped. -/
def firstPhase (c : CordEntry) : Nat := if c.rx ≠ 1 then 1 else if c.ry ≠ 1 then 2 else if c.rz ≠ 1 then 3 else 1

/-- R282: the aggregator of a phase for an owner on the way of rank r. -/
def aggregator (c : CordEntry) (owner phase r : Nat) : Nat :=
  match phase with
  | 1 => rankOf c (rankX c owner) (rankY c r) (rankZ c r)
  | 2 => rankOf c (rankX c owner) (rankY c owner) (rankZ c r)
  | _ => owner

/-- The ranks whose terms a module's slot waits for (R282): the contributions of its group of the first phase, and, where the module is
also the aggregator of a later phase, the partials of the other members of that group. -/
def expectRanks (c : CordEntry) (owner : Nat) : List Nat :=
  let me := c.myrank
  let f := firstPhase c
  if aggregator c owner f me ≠ me then []
  else
    phaseGroup c f me ++ ([2, 3].filter (fun p => decide (f < p) && aggregator c owner p me == me)).flatMap (fun p => phasePeers c p me)

/-- A slot holds every group of every rank that it waits for. -/
def slotDone (c : CordEntry) (s : RedSlot) : Bool :=
  (expectRanks c s.owner).all (fun r => smGet 0 s.masks r == groupMask 0 s.kelem)

/-- R282: where a finished slot's sum goes: none at the owner, else the next aggregator and its phase. -/
def nextAggregator (c : CordEntry) (owner : Nat) : Option (Nat × Nat) :=
  let me := c.myrank
  if me = owner then none
  else if rankY c me = rankY c owner then some (owner, 3)
  else some (rankOf c (rankX c owner) (rankY c owner) (rankZ c me), 2)

/-- R281, R282: the aggregator that a contribution goes to. -/
def firstAggregator (c : CordEntry) (owner : Nat) : Nat := aggregator c owner (firstPhase c) c.myrank

/-- A new slot for a key (R280): cleared accumulators under the cord's ANCHOR. -/
def newSlot (c : CordEntry) (h : PktHdr) (clock : Nat) : RedSlot :=
  ⟨h.cord, h.drank, h.trow, h.tcol, h.win, h.offset, h.kelem,
    List.replicate h.kelem { laccZero with anchor := c.anchor, aset := true }, [], clock⟩

/-- R44, R65, R282, R283: adding a packet's elements to a slot; a subnormal contribution read as zero is a flush. -/
def addPacket (c : CordEntry) (cls : PClass) (h : PktHdr) (words : List (List Byte)) (s : RedSlot) : RedSlot × NumEv :=
  let bs := words.flatten
  let r := packetElems cls h
  let step := fun (acc : List LAcc × NumEv) (i : Nat) =>
    let a := s.accs.getD i laccZero
    if i < r.1 ∨ r.1 + r.2 ≤ i then (acc.1 ++ [a], acc.2)
    else
      match cls with
      | .part => (acc.1 ++ [addPartElem a (leNat ((bs.drop (24 * (i - r.1))).take 24))], acc.2)
      | _ =>
        match fmtOfCode c.ifmt with
        | some f =>
          let e := decodeElem f (elemCode f bs i) 0
          let x := addContribElem a e.1
          (acc.1 ++ [x.1], evAdd acc.2 (evAdd ⟨0, b2n e.2, 0⟩ x.2))
        | none => (acc.1 ++ [a], acc.2)
  let x := (List.range s.accs.length).foldl step ([], evNone)
  ({ s with
    accs := x.1
    masks := smSet 0 s.masks h.srank (smGet 0 s.masks h.srank ||| groupMask r.1 r.2) }, x.2)

/-- What a reduction packet meets at its engine. -/
inductive RedRes where
  | added | duplicate | refused (status : Nat)
  deriving DecidableEq, Repr

/-- R280, R283: a CONTRIB or PARTIAL at its engine, before completion is tested. -/
def redTake (r : RedState) (c : CordEntry) (cls : PClass) (h : PktHdr) (words : List (List Byte)) (clock : Nat) :
    RedState × RedRes :=
  let k := redEngine h.trow h.tcol h.offset
  let slots := redSlots r k
  let e := packetElems cls h
  let gm := groupMask e.1 e.2
  if h.kelem % 16 ≠ 0 ∨ h.kelem = 0 ∨ 1024 < h.kelem ∨ e.2 % 16 ≠ 0 ∨ e.1 % 16 ≠ 0 ∨ h.kelem < e.1 + e.2 then (r, .refused 0x29)
  else if !(expectRanks c h.drank).contains h.srank then (r, .refused 0x29)
  else
    match slots.find? (fun s => sameKey s h) with
    | none =>
      if 128 ≤ slots.length then (r, .refused 0x28)
      else
        let x := addPacket c cls h words (newSlot c h clock)
        ({ setRedSlots r k (slots ++ [x.1]) with
          sat := smSet 0 r.sat c.part (satAdd32 (smGet 0 r.sat c.part) x.2.sat)
          flush := smSet 0 r.flush c.part (satAdd32 (smGet 0 r.flush c.part) x.2.flush) }, .added)
    | some s =>
      let have_ := smGet 0 s.masks h.srank &&& gm
      if s.kelem ≠ h.kelem then (r, .refused 0x29)
      else if have_ = gm then ({ r with dup := smSet 0 r.dup k (min (smGet 0 r.dup k + 1) 0xFFFF) }, .duplicate)
      else if have_ ≠ 0 then (r, .refused 0x29)
      else
        let x := addPacket c cls h words s
        ({ setRedSlots r k (slots.map (fun o => if sameKey o h then x.1 else o)) with
          sat := smSet 0 r.sat c.part (satAdd32 (smGet 0 r.sat c.part) x.2.sat)
          flush := smSet 0 r.flush c.part (satAdd32 (smGet 0 r.flush c.part) x.2.flush) }, .added)

/-- R284: rounding one element at the owner. -/
def redRound (fmt : Fmt) (rm : RMode) (a : LAcc) : Nat × NumEv :=
  if a.nanf = .created ∨ (a.nanf = .none ∧ a.pinf ∧ a.ninf) then (nanCode fmt, ⟨0, 0, 1⟩)
  else if a.nanf = .propagated then (nanCode fmt, if a.pinf && a.ninf then ⟨0, 0, 1⟩ else evNone)
  else if a.pinf then (infCode fmt false, evNone)
  else if a.ninf then (infCode fmt true, evNone)
  else
    let v := a.sum.toInt
    roundFin fmt rm 0 (decide (v < 0)) v.natAbs (a.anchor - 138)

/-- R284: the result of a finished slot in OFMT. -/
def redResult (c : CordEntry) (s : RedSlot) : List Byte × NumEv :=
  match fmtOfCode c.ofmt, rmodeOf c.rmode with
  | some f, some rm =>
    let rs := s.accs.map (redRound f rm)
    (rs.flatMap (fun x => leBytes (fmtWidth f / 8) x.1), rs.foldl (fun e x => evAdd e x.2) evNone)
  | _, _ => ([], evNone)

/-- Cutting a byte string into 64-byte words, the last one filled with zeros. -/
def wordsOfBytes (bs : List Byte) : List (List Byte) :=
  (List.range ((bs.length + 63) / 64)).map (fun i =>
    let w := (bs.drop (64 * i)).take 64
    w ++ List.replicate (64 - w.length) 0)

/-- R283: the PARTIAL packets of a finished slot, at most 160 elements each. -/
def partialPackets (f : FabState) (m : MemState) (c : CordEntry) (s : RedSlot) (dest phase tag : Nat) : List Packet :=
  (List.range ((s.kelem + 159) / 160)).map (fun i =>
    let es := (s.accs.drop (160 * i)).take 160
    let ws := wordsOfBytes (es.flatMap partBytes)
    .bulk .part ⟨memberAddr m c dest, f.addr, s.cord, c.myrank, s.owner, s.trow, s.tcol, s.win, s.offset, ws.length, false, 0,
      phase, tag + i, 160 * i, s.kelem⟩ ws)

/-- Freeing the slot of a key. -/
def freeSlot (r : RedState) (s : RedSlot) : RedState :=
  let k := redEngine s.trow s.tcol s.offset
  setRedSlots r k ((redSlots r k).filter (fun o => !(o.cord == s.cord && o.owner == s.owner && o.trow == s.trow
    && o.tcol == s.tcol && o.win == s.win && o.offset == s.offset)))

/-- Freeing every slot of the cords of a list (R303, R428). -/
def freeCordSlots (r : RedState) (cords : List Nat) : RedState :=
  foldRange 24 (fun x k => setRedSlots x k ((redSlots x k).filter (fun s => !cords.contains s.cord))) r

/-- Adding number counts of a partition's reductions (R285). -/
def redCount (r : RedState) (part : Nat) (e : NumEv) : RedState :=
  { r with
    sat := smSet 0 r.sat part (satAdd32 (smGet 0 r.sat part) e.sat)
    flush := smSet 0 r.flush part (satAdd32 (smGet 0 r.flush part) e.flush)
    nan := smSet 0 r.nan part (satAdd32 (smGet 0 r.nan part) e.nan) }

/-- R285: clearing a partition's counts at a step boundary. -/
def redClear (r : RedState) (part : Nat) : RedState :=
  { r with sat := smSet 0 r.sat part 0, flush := smSet 0 r.flush part 0, nan := smSet 0 r.nan part 0 }

/-- RED_STAT (R293). -/
def redStatWord (r : RedState) (k : Nat) : Word :=
  BitVec.ofNat 32 (smGet 0 r.stall k * 2 ^ 31 + (redSlots r k).length * 2 ^ 16 + smGet 0 r.dup k)

end Sys2Proof.Machine
end

