-- ==== Sys2Proof/Machine/BootState.lean ====
section
/-! DEFINITION. The state of bring-up, module flash, firmware update, SPDM and the side-band (spec/16_bringup_and_reset.md,
spec/17_identity_and_update.md, spec/19_module_hardware.md, spec/01_stitched_die.md R30 to R39). Plain data. -/

namespace Sys2Proof.Machine

/-- A firmware image in flash (R441): its 4 KiB header and its body, and whether they verify under R442 and BODY_DIGEST. -/
structure FwImage where
  header : List Byte
  body   : List Byte
  sigOk  : Bool
  deriving DecidableEq, Repr

/-- A copy of a record of module flash (R30, R439): its sequence number, whether its CRC and signature both check, its content. -/
structure RecCopy (α : Type) where
  sequence : Nat
  ok       : Bool
  data     : α
  deriving DecidableEq, Repr

/-- Copies A and B of a record (R30, R439). -/
structure RecPair (α : Type) where
  a : RecCopy α
  b : RecCopy α
  deriving DecidableEq, Repr

/-- B is the current copy: the valid copy with the higher sequence number (R30). -/
def RecPair.onB {α : Type} (p : RecPair α) : Bool := p.b.ok && (!p.a.ok || decide (p.a.sequence < p.b.sequence))

/-- The current copy (R30); copy A where neither is valid. -/
def RecPair.current {α : Type} (p : RecPair α) : RecCopy α := if p.onB then p.b else p.a

/-- A copy is valid. -/
def RecPair.valid {α : Type} (p : RecPair α) : Bool := p.a.ok || p.b.ok

/-- The content of the current copy. -/
def RecPair.value {α : Type} (p : RecPair α) : α := p.current.data

/-- R30: a write goes into the copy that is not current, with the next sequence number. -/
def RecPair.write {α : Type} (p : RecPair α) (x : α) : RecPair α :=
  if p.onB then { p with a := ⟨p.b.sequence + 1, true, x⟩ } else { p with b := ⟨p.a.sequence + 1, true, x⟩ }

/-- The identity record (R439): UNIT_ID and the stepping code (R483). Its public key meets the PUF's in STAGE_1's operand (R434). -/
structure IdentData where
  unit     : DWord
  stepping : Nat
  deriving DecidableEq, Repr

/-- A defect map record (R31): UNIT_ID, GRADE and the entries. -/
structure DefectData where
  unit    : DWord
  grade   : Nat
  entries : List DWord
  deriving DecidableEq, Repr

/-- The saved settings record (R422): its format generation, UNIT_ID, RDIMM serials, saving time in ns, saving temperature, the
settings of the links, the replica-path results (by region, target step and VDDL) and the training results of the memory devices. -/
structure SavedRec where
  fmt     : Nat
  unit    : DWord
  serials : List Nat
  time    : Nat
  temp    : Int
  links   : List (Nat × LinkSaved)
  paths   : SMap Nat
  train   : SMap Nat
  deriving DecidableEq, Repr

/-- The service settings (R452): their format generation, DHCPv4, SLAAC, the NTP server from DHCP, and the transfer port where it is
enabled. -/
structure SvcData where
  fmt     : Nat
  dhcp    : Bool
  slaac   : Bool
  ntpDhcp : Bool
  port    : Option Nat
  deriving DecidableEq, Repr

/-- The update state record (R443, R449): STAGING 0 EMPTY, 1 RECEIVING, 2 VERIFIED, 3 FAILED; COPY 0 IDLE to 5 REVERTED; TRIES. -/
structure UpdData where
  staging : Nat
  copy    : Nat
  tries   : Nat
  deriving DecidableEq, Repr

/-- Module flash (R439): the records, each as copies A and B, the three image regions, and the anti-rollback counter in its own
device (R440). model is 0 GT8-A-2560, 1 GT8-B-2560, 2 GT8-A-1024. trimRec lists the trim records: the two letters of the code and
the revision (R326); expelled, the model's own, that the module was expelled from its job and has made no full start since (R314);
retiredRec the retired frames by tier (R228); fullRec the format generation of the full-start request and the request. -/
structure Flash where
  model      : Nat
  identRec   : RecPair IdentData
  helperRec  : RecPair (List Byte)
  chainRec   : RecPair (List Byte)
  factoryRec : RecPair DefectData
  fieldRec   : RecPair DefectData
  gradeRec   : RecPair Nat
  trimRec    : RecPair (List (Nat × Nat × Nat))
  retiredRec : RecPair (List (Nat × Nat))
  savedRec   : RecPair (Option SavedRec)
  svcRec     : RecPair SvcData
  fullRec    : RecPair (Nat × Bool)
  updRec     : RecPair UpdData
  active     : Option FwImage
  previous   : Option FwImage
  staged     : Option FwImage
  counter    : Nat
  expelled   : Bool
  deriving DecidableEq, Repr

/-- UNIT_ID. -/
def Flash.unit (f : Flash) : DWord := f.identRec.value.unit
/-- The stepping code. -/
def Flash.stepping (f : Flash) : Nat := f.identRec.value.stepping
/-- The module's grade: 0x0A or 0x0B. -/
def Flash.grade (f : Flash) : Nat := f.gradeRec.value
/-- The entries of the factory record. -/
def Flash.factory (f : Flash) : List DWord := f.factoryRec.value.entries
/-- The entries of the field record. -/
def Flash.field (f : Flash) : List DWord := f.fieldRec.value.entries
/-- The listed trims. -/
def Flash.trims (f : Flash) : List (Nat × Nat × Nat) := f.trimRec.value
/-- The retired frame record. -/
def Flash.retired (f : Flash) : List (Nat × Nat) := f.retiredRec.value
/-- The saved settings. -/
def Flash.saved (f : Flash) : Option SavedRec := f.savedRec.value
/-- STAGING. -/
def Flash.staging (f : Flash) : Nat := f.updRec.value.staging
/-- COPY. -/
def Flash.copy (f : Flash) : Nat := f.updRec.value.copy
/-- TRIES. -/
def Flash.tries (f : Flash) : Nat := f.updRec.value.tries
/-- A full start is requested (R424). -/
def Flash.fullReq (f : Flash) : Bool := f.fullRec.value.2

/-- Writing the update state record. -/
def Flash.putUpd (f : Flash) (g : UpdData → UpdData) : Flash := { f with updRec := f.updRec.write (g f.updRec.value) }
/-- R445, R453: STAGING is EMPTY. -/
def Flash.dropStaged (f : Flash) : Flash := { f.putUpd (fun u => { u with staging := 0 }) with staged := none }
/-- Writing the saved settings record. -/
def Flash.putSaved (f : Flash) (x : Option SavedRec) : Flash := { f with savedRec := f.savedRec.write x }
/-- Writing the full-start request. -/
def Flash.putFull (f : Flash) (fmt : Nat) (x : Bool) : Flash := { f with fullRec := f.fullRec.write (fmt, x) }
/-- Writing the retired frame record. -/
def Flash.putRetired (f : Flash) (x : List (Nat × Nat)) : Flash := { f with retiredRec := f.retiredRec.write x }
/-- Writing the field record (R30, R31). -/
def Flash.putField (f : Flash) (x : List DWord) : Flash := { f with fieldRec := f.fieldRec.write ⟨f.unit, f.grade, x⟩ }

/-- Bring-up (R412 to R426, R432). stage and state are MBX_START's; booted 0 ACTIVE, 1 PREVIOUS, 2 STAGING; led the blink count of
R415; bootPosts the ports still to be told of a start from PREVIOUS (R449); serials the RDIMM serials read at Stage 1; waited says
that the wait of R423 ended without a time; decided that the kind of start stands (R422); header is the header of the image
started; paths and train the replica-path and memory training results in use (R192, R422); unrep that an unrepairable defect was
found (R39); sparePosts the ports still to be told SPARE_READY of an expelled module (R314); lanes holds the bad lanes that the
lane map of a lane group passes over (R23), by SEAM and GROUP, 63 for none. -/
structure BootState where
  stage     : Nat
  state     : Nat
  code      : Nat
  began     : Nat
  stageAt   : Nat
  reports   : SMap Word
  running   : Bool
  booted    : Nat
  bootPosts : List Nat
  led       : Nat
  recovery  : Bool
  savedOn   : Bool
  reason    : Nat
  age       : Nat
  stemp     : Int
  mtemp     : Int
  serials   : List Nat
  waited    : Bool
  decided   : Bool
  header    : List Byte
  idValid   : Bool
  pufCorr   : Nat
  rLevel    : Nat
  rSelf     : Bool
  rActive   : Bool
  rStatus   : Nat
  rCount    : Nat
  strap     : Nat
  paths     : SMap Nat
  train     : SMap Nat
  unrep     : Bool
  sparePosts : List Nat
  lanes     : SMap (Nat × Nat)
  deriving DecidableEq, Repr

/-- Transfer service and activation (R443 to R448, R454): the connection, the header being received, the body so far, the
scheduled activation (actSt 0 none, 1 scheduled, 2 due, 4 cancelled; time in ns, window in s, the first unmet condition of a
cancelled one). outMsg is the last message sent: TYPE, STATUS
and payload. -/
structure UpdState where
  conn     : Bool
  header   : Option (List Byte × Bool)
  body     : List Byte
  rxKib    : Nat
  outMsg   : Option (Nat × Nat × List Byte)
  actSt    : Nat
  actTime  : DWord
  actWin   : Nat
  unmet    : Nat
  hiLatch  : Word
  deriving DecidableEq, Repr

/-- An SPDM response (R437, R438): the versions listed (as major × 16 + minor); the capability flags with CTExponent; the
algorithms chosen, as the sizes in bits of the asymmetric key and of the hash; total is the number of indices, given on a query
for it. -/
inductive SpdmResp where
  | version (listed : List Nat)
  | capabilities (cert chal : Bool) (meas ctExp : Nat)
  | algorithms (asym hash : Nat)
  | digests (d : List Byte)
  | certificate (part : List Byte) (rest : Nat)
  | challengeAuth (summary sig : List Byte)
  | measurements (total : Nat) (blocks : List (Nat × Nat × List Byte)) (sig : Option (List Byte))
  | error (code : Nat)
  deriving DecidableEq, Repr

/-- The SPDM connection state of one port. -/
structure SpdmConn where
  version : Bool
  caps    : Bool
  algs    : Bool
  last    : Option SpdmResp
  deriving DecidableEq, Repr

/-- The side-band (R472): whether the last transaction was acknowledged, and the data of the last read. -/
structure SmbState where
  acked : Bool
  data  : List Byte
  deriving DecidableEq, Repr

end Sys2Proof.Machine
end

