-- ==== Sys2Proof/Machine/HostState.lean ====
section
/-! DEFINITION. The state of the two host ports (spec/14_host_interface.md). Plain data. -/

namespace Sys2Proof.Machine

/-- One mailbox (R378, R379): state, CODE, COALESCED, command area, response area, latched command, the IR cycle of its doorbell,
that of Kiln's last wake for it, that in which its RETRY_AFTER ends (R380), and whether it was rung before that. -/
structure Mbx where
  st        : Nat
  code      : Nat
  coalesced : Nat
  cmd       : SMap Byte
  resp      : SMap Byte
  latched   : List Byte
  rungAt    : Nat
  wakeAt    : Option Nat
  busyTill  : Nat
  early     : Bool
  deriving DecidableEq, Repr

/-- A ring that Kiln knows (R382): its address, LOGSZ and the watermark in entries. -/
structure Ring where
  addr  : Nat
  logsz : Nat
  wmark : Nat
  deriving DecidableEq, Repr

/-- An MSI-X table entry (R386, PCIe): message address, data and the mask bit. -/
structure MsixVec where
  addr   : DWord
  data   : Word
  masked : Bool
  deriving DecidableEq, Repr

/-- A posted write that waits behind a BAR2 write to a moving page (R376, R377): memory at a virtual address, or a BAR0 register. -/
inductive HostWr where
  | mem (va : Nat) (data : List Byte)
  | reg (off : Nat) (v : Word)
  deriving DecidableEq, Repr

/-- One port (R369 to R391). st is MBX_HOST.STATE; hold the IR cycle in which the hold ends; beat the last HOST_BEAT sampled and
same the unchanged samples; evDrop the events dropped and not yet reported; rd the data of the last completed read, and ca that it
was a Completer Abort; msg the last MSI-X message sent; waitWr the posted writes that wait; barLog the size of BAR2 as a power of
two of GiB (R369); aer says that an AER uncorrectable error is logged (R225). -/
structure HostPort where
  mbx      : SMap Mbx
  st       : Nat
  hostId   : DWord
  hold     : Option Nat
  ev       : Option Ring
  log      : Option Ring
  trace    : Option Ring
  foreign  : Nat
  beat     : Option Word
  same     : Nat
  evDrop   : Nat
  bar2     : Option Nat
  b2On     : Bool
  b2Write  : Bool
  b2Status : Nat
  b2Count  : Nat
  perst    : Bool
  linkUp   : Bool
  d3hot    : Bool
  busMaster : Bool
  msixOn   : Bool
  fmask    : Bool
  vecs     : SMap MsixVec
  pend     : List Nat
  sentAt   : SMap Nat
  msg      : Option (DWord × Word)
  rd       : List Byte
  ca       : Bool
  waitWr   : List HostWr
  barLog   : Nat
  aer      : Bool
  deriving DecidableEq, Repr

end Sys2Proof.Machine
end

