-- ==== Sys2Proof/Machine/KilnState.lean ====
section
/-! DEFINITION. The state of Kiln's firmware: contexts and their steps, partitions, Ember and digest streams, lock-step, records
(spec/15_kiln_firmware.md, spec/11_surviving_failures.md, spec/12_determinism.md R331 to R335, spec/06_die_mesh_and_groupings.md
R176). Plain data. -/

namespace Sys2Proof.Machine

/-- Where a step stands (R299 to R303, R311): its tiles run; Kiln has arrived with a KIND; it is quiescing; it waits for its QUIET
barrier; it waits for a HOST page's refill; its tiles are halting before the next section. -/
inductive CPhase where
  | run | arrived (kind : Nat) | quiesce | quiet | held | halting
  deriving DecidableEq, Repr

/-- The step that a context runs (R297, R459). voted holds the vote cords whose vote has ended (R317); resume the section that runs after
a restore section, and recov the lost rank and the restore source (R312), whose loss was an expulsion where expel says so. -/
structure StepRun where
  tag      : Nat
  step     : Word
  mb       : BitVec 16
  seed     : DWord
  sect     : Nat
  attempt  : Nat
  attA     : Nat
  attB     : Nat
  phase    : CPhase
  done     : List Nat
  cause    : Nat
  status   : Nat
  excused  : Bool
  mcopy    : Bool
  ncontrib : Nat
  peer     : Nat
  mage     : Nat
  resume   : Nat
  startAt  : Nat
  energy0  : Nat
  energy   : Nat
  capAct   : Bool
  thrAct   : Bool
  thmAct   : Bool
  refused  : Nat
  voted    : List Nat
  recov    : Option (Nat × Nat)
  expel    : Bool
  deriving DecidableEq, Repr

/-- A submission that Kiln has read and not yet taken (R385, R458). -/
inductive Sub where
  | load (tag addr len : Nat)
  | step (tag : Nat) (n : Word) (mb : BitVec 16) (seed : DWord)
  | bad (tag op : Nat)
  deriving DecidableEq, Repr

/-- State of a context (R399). -/
inductive CtxSt where
  | idle | ready | running | paused
  deriving DecidableEq, Repr

/-- A context (R399 to R402, R309, R310, R318). ran is the time run since it was switched in; stepTimes the wall times of the last
steps without a moment copy, copyTime that of the last step with one; interval the moment interval taken at the last commit. late
is the gravest status and cause that arose where no attempt could take it; refill the lost HOST pages that the host has not
rewritten (R305); mheld the valid moment copies held for other ranks: rank, buffer, step (R310); dbAt the IR cycle of Kiln's last
wake for its RING_DB and dbWait that a write to it waits for the next (R381). -/
structure Ctx where
  port     : Nat
  part     : Nat
  prio     : Nat
  quantum  : Nat
  sub      : Ring
  cpl      : Ring
  vector   : Nat
  timeout  : Nat
  cord     : Option Nat
  st       : CtxSt
  image    : Option Image
  queue    : List Sub
  pauseReq : Bool
  dropReq  : Bool
  ran      : Nat
  born     : Nat
  run      : Option StepRun
  restore  : Option (DWord × Word × BitVec 16)
  mtbf     : Option Nat
  losses   : Nat
  commits  : Nat
  stepTimes : List Nat
  copyTime : Option Nat
  lastCopy : Option Nat
  mbuf     : Nat
  holderNew : Bool
  excused  : List Nat
  actPaused : Bool
  late     : Nat × Nat
  refill   : List Nat
  mheld    : List (Nat × Nat × Nat)
  interval : Nat
  dbAt     : Option Nat
  dbWait   : Bool
  deriving DecidableEq, Repr

/-- A partition (R176, R178, R183, R366): its fields, mode (0 independent, 1 ganged, 2 clustered), gang size code, owner, whether
it is powered, whether it is being switched on or off, its current context, and the digest of the image its stores hold. -/
structure PartSt where
  on       : Bool
  fmask    : Nat
  mode     : Nat
  gang     : Nat
  port     : Nat
  powered  : Bool
  powering : Bool
  draining : Bool
  cur      : Option Nat
  loaded   : Option Nat
  deriving DecidableEq, Repr

/-- An Ember and digest stream (R306 to R308, R316, R320); bad says that the write buffer was made invalid in this attempt. -/
structure EmberSt where
  valid  : Bool
  part   : Nat
  ewin   : Nat
  cord   : Nat
  bofs   : Nat
  brank  : Nat
  wspan  : Nat
  shard  : Nat
  count  : Nat
  buf0   : Nat
  buf1   : Nat
  valid0 : Bool
  valid1 : Bool
  wbuf   : Bool
  range  : Bool
  xlate  : Bool
  ue     : Bool
  vstep0 : Word
  vstep1 : Word
  digEn  : Bool
  vcord  : Nat
  every  : Nat
  key    : DWord
  acc    : DWord
  dcount : Nat
  accHi  : Word
  bad    : Bool
  deriving DecidableEq, Repr

/-- A comparison window's record (R333): the step it belongs to and the stream digests, kept sparsely. -/
structure LsWin where
  step    : Word
  sect    : Nat
  attempt : Nat
  win     : Nat
  streams : SMap DWord
  deriving DecidableEq, Repr

/-- A window in the lock-step log (R333, R334): its record, its tile digests, and whether the partner's record has been compared with it. -/
structure LsLog where
  own   : LsWin
  tiles : SMap DWord
  met   : Bool
  deriving DecidableEq, Repr

/-- A lock-step start that waits for the partner on its link (R331). -/
structure LsWant where
  part    : Nat
  link    : Nat
  logsz   : Nat
  port    : Nat
  partner : DWord
  key     : DWord
  deriving DecidableEq, Repr

/-- Lock-step comparison (R331 to R335). sec names the section compared (STEP, SECTION, ATTEMPT); sums holds the tile digests
being summed, keyed by window × 4,096 + 2 × tile + kind; next is the next window of the section to complete; log the completed
windows; theirs the partner's records not yet compared, with the tile digests of their differing streams; sentRec the last record
sent. -/
structure LsState where
  enable   : Bool
  want     : Option LsWant
  part     : Nat
  link     : Nat
  logsz    : Nat
  port     : Nat
  key      : DWord
  diverged : Bool
  lost     : Bool
  mismatch : Nat
  rep0     : Word
  rep1     : Word
  rep2     : Word
  sec      : Option (Word × Nat × Nat)
  sums     : SMap DWord
  next     : Nat
  log      : List LsLog
  theirs   : List (LsWin × SMap DWord)
  sentRec  : Option LsWin
  deriving DecidableEq, Repr

/-- A reset in progress (R428, R431). -/
structure ResetJob where
  level    : Nat
  target   : Nat
  selftest : Bool
  port     : Nat
  tiles    : List Nat
  deriving DecidableEq, Repr

/-- What a defect map entry records (R32): a bad tile and a bypassed array column, by physical row, physical column and physical array
column, or a bad lane, by SEAM, GROUP and lane. -/
inductive Finding where
  | tile (prow pcol : Nat)
  | column (prow pcol acol : Nat)
  | lane (seam group lane : Nat)
  deriving DecidableEq, Repr

/-- What a detected error is attributed to (R35): a physical tile, a physical array column, a lane group by SEAM and GROUP. -/
inductive Blame where
  | tile (prow pcol : Nat)
  | column (prow pcol acol : Nat)
  | group (seam group : Nat)
  deriving DecidableEq, Repr

/-- Kiln. stat is KLN_STAT.STATE; logBuf and traceBuf hold the records of the SRAM buffers, oldest first, with the mark of those
written to an attached ring; utc is the current time in ns at IR cycle utcAt; regIn the last register data returned by a tile
(R170); errs the IR cycles of detected errors by what they are attributed to (R35); newDefects the recurrences that the step in
progress has shown (R36); samples counts telemetry ticks; dclass is the determinism class string (R327); cordWait the cord entries
that wait for a step boundary (R277). -/
structure KilnState where
  stat      : Nat
  ctxs      : SMap Ctx
  parts     : SMap PartSt
  embers    : SMap EmberSt
  ls        : LsState
  logBuf    : List (List Byte × Bool)
  logSeq    : Word
  logLost   : Word
  traceEn   : DWord
  traceBuf  : List (List Byte × Bool)
  traceSeq  : Word
  traceLost : Word
  wdTotal   : Nat
  wdTimes   : List Nat
  wdCause   : Nat
  wdCore    : Nat
  busy      : Nat
  cbusy     : List Nat
  queued    : List Nat
  decim     : Nat
  tick      : Nat
  telem     : Option (List Word)
  resp      : List Byte
  regIn     : Option (Nat × Nat × Word)
  respSt    : Nat
  resets    : List ResetJob
  utc       : Option Nat
  utcAt     : Nat
  errs      : List (Blame × Nat)
  fenced    : List Nat
  newDefects : List Finding
  dclass    : List Byte
  cordWait  : List (Nat × CordEntry)
  deriving DecidableEq, Repr

end Sys2Proof.Machine
end

