-- ==== Sys2Proof/Machine/FlashInit.lean ====
section
/-! DEFINITION. The module flash as the model takes it to be shipped (DESIGN CHOICE: the spec gives a flash no reset value), and
the cleared state of the ports, Kiln, bring-up, update and the side-band. -/

namespace Sys2Proof.Machine

/-- A big-endian field of n bytes (R441). -/
def beBytes (n x : Nat) : List Byte := (leBytes n x).reverse

/-- A big-endian number (R441). -/
def beNat (l : List Byte) : Nat := leNat l.reverse

/-- 48 bytes of a digest. -/
def fit48 (l : List Byte) : List Byte := (l ++ List.replicate 48 0).take 48

/-- SHA-384 as 48 bytes. -/
def digest48 (l : List Byte) : List Byte := fit48 (Config.sha384 l)

/-- The body of the shipped image: the smallest that R441 allows. -/
def shippedBody : List Byte := List.replicate 4096 0

/-- The header of the shipped image (R441): version 0, ROLLBACK 0, every stepping, any unit, format generation 1. -/
def shippedHeader : List Byte :=
  beBytes 4 0x47543846 ++ beBytes 2 1 ++ beBytes 2 0x7A08 ++ beBytes 1 0x0F ++ beBytes 1 1 ++ beBytes 4 0 ++ beBytes 4 0
    ++ beBytes 4 4096 ++ beBytes 2 0 ++ beBytes 2 1 ++ beBytes 2 0 ++ digest48 shippedBody ++ List.replicate 4020 0

/-- The shipped image. -/
def shippedImage : FwImage := ⟨shippedHeader, shippedBody, true⟩

/-- A record as shipped: copy A holds it, copy B was never written. -/
def shippedRec {α : Type} (x : α) : RecPair α := ⟨⟨0, true, x⟩, ⟨0, false, x⟩⟩

/-- The default service settings (R452). -/
def svcDefault (fmt : Nat) : SvcData := ⟨fmt, true, true, true, some 7438⟩

/-- The flash as shipped: a GT8-A-2560 of grade A and stepping B0 with the trims FQ42 and HM03 (R326), valid records and no
findings; the counter is 0 (R440). -/
def flashInit : Flash where
  model := 0
  identRec := shippedRec ⟨0, 2⟩
  helperRec := shippedRec Config.helperData
  chainRec := shippedRec Config.chain
  factoryRec := shippedRec ⟨0, 0x0A, []⟩
  fieldRec := shippedRec ⟨0, 0x0A, []⟩
  gradeRec := shippedRec 0x0A
  trimRec := shippedRec [(0x46, 0x51, 42), (0x48, 0x4D, 3)]
  retiredRec := shippedRec []
  savedRec := shippedRec none
  svcRec := shippedRec (svcDefault 1)
  fullRec := shippedRec (1, false)
  updRec := shippedRec ⟨0, 0, 0⟩
  active := some shippedImage
  previous := none
  staged := none
  counter := 0
  expelled := false

/-- Bring-up before Stage 0 (R432). -/
def bootInit : BootState where
  stage := 0
  state := 0
  code := 0
  began := 0
  stageAt := 0
  reports := []
  running := false
  booted := 0
  bootPosts := []
  led := 0
  recovery := false
  savedOn := false
  reason := 0
  age := 0
  stemp := 0
  mtemp := 0
  serials := []
  waited := false
  decided := false
  header := []
  idValid := false
  pufCorr := 0
  rLevel := 0
  rSelf := false
  rActive := false
  rStatus := 0
  rCount := 0
  strap := 0
  paths := []
  train := []
  unrep := false
  sparePosts := []
  lanes := []

/-- The update registers at reset (R454). -/
def updInit : UpdState := ⟨false, none, [], 0, none, 0, 0, 0, 0, 0⟩

/-- An SPDM connection before any request. -/
def spdmInit : SpdmConn := ⟨false, false, false, none⟩

/-- The side-band before any transaction. -/
def smbInit : SmbState := ⟨false, []⟩

/-- A mailbox after a port reset: idle, both areas 0 (R379). Before Stage 8 MBX_STATUS shows STARTING (R372). -/
def mbx0 : Mbx := ⟨0, 0, 0, [], [], [], 0, none, 0, false⟩

/-- An MSI-X entry after a port reset: masked (PCIe). -/
def vec0 : MsixVec := ⟨0, 0, true⟩

/-- A port after VIN comes on. -/
def portInit0 : HostPort where
  mbx := []
  st := 0
  hostId := 0
  hold := none
  ev := none
  log := none
  trace := none
  foreign := 0
  beat := none
  same := 0
  evDrop := 0
  bar2 := none
  b2On := false
  b2Write := false
  b2Status := 0
  b2Count := 0
  perst := false
  linkUp := false
  d3hot := false
  busMaster := false
  msixOn := false
  fmask := false
  vecs := []
  pend := []
  sentAt := []
  msg := none
  rd := []
  ca := false
  waitWr := []
  barLog := 6
  aer := false

/-- An Ember stream that is not set up (R320): EVERY resets to 0x10. -/
def ember0 : EmberSt where
  valid := false
  part := 0
  ewin := 0
  cord := 0
  bofs := 0
  brank := 0
  wspan := 0
  shard := 0
  count := 0
  buf0 := 0
  buf1 := 0
  valid0 := false
  valid1 := false
  wbuf := false
  range := false
  xlate := false
  ue := false
  vstep0 := 0
  vstep1 := 0
  digEn := false
  vcord := 0
  every := 16
  key := 0
  acc := 0
  dcount := 0
  accHi := 0
  bad := false

/-- Lock-step comparison off (R335). -/
def lsInit : LsState := ⟨false, none, 0, 0, 0, 0, 0, false, false, 0, 0, 0, 0, none, [], 0, [], [], none⟩

/-- A partition that does not exist. -/
def part0 : PartSt := ⟨false, 0, 0, 0, 0, false, false, false, none, none⟩

/-- A ring that is not registered. -/
def ring0 : Ring := ⟨0, 0, 0⟩

/-- A context number without a context: the default of the context table. -/
def ctx0 : Ctx where
  port := 2
  part := 0
  prio := 0
  quantum := 0
  sub := ring0
  cpl := ring0
  vector := 0
  timeout := 0
  cord := none
  st := .idle
  image := none
  queue := []
  pauseReq := false
  dropReq := false
  ran := 0
  born := 0
  run := none
  restore := none
  mtbf := none
  losses := 0
  commits := 0
  stepTimes := []
  copyTime := none
  lastCopy := none
  mbuf := 0
  holderNew := false
  excused := []
  actPaused := false
  late := (0, 0)
  refill := []
  mheld := []
  interval := 8
  dbAt := none
  dbWait := false

/-- Kiln before it boots (R411). -/
def kilnInit : KilnState where
  stat := 0
  ctxs := []
  parts := []
  embers := []
  ls := lsInit
  logBuf := []
  logSeq := 0
  logLost := 0
  traceEn := 0
  traceBuf := []
  traceSeq := 0
  traceLost := 0
  wdTotal := 0
  wdTimes := []
  wdCause := 0
  wdCore := 0
  busy := 0
  cbusy := []
  queued := []
  decim := 0
  tick := 0
  telem := none
  resp := []
  regIn := none
  respSt := 0
  resets := []
  utc := none
  utcAt := 0
  errs := []
  fenced := []
  newDefects := []
  dclass := []
  cordWait := []

end Sys2Proof.Machine
end

