-- ==== Sys2Proof/Machine/PowerState.lean ====
section
/-! DEFINITION. The state of power delivery, the cap loop, thermal control and the region monitors
(spec/13_power_and_thermal.md, spec/07_clocks_and_logical_time.md R188 to R192). Plain data. -/

namespace Sys2Proof.Machine

/-- One region: its frequency target, raise_wait and warning count (R190), whether a margin warning stands, its thermal ceiling
(R359), its charge injector and shunt clamp (R348, R349), the IR cycle of its last oscillator calibration, and the warning level set at
Stage 3 (R192). -/
structure RegionSt where
  target    : Nat
  raiseWait : Nat
  warn      : Nat
  warnNow   : Bool
  thermCeil : Nat
  inject    : Nat
  injOn     : Bool
  injEmpty  : Bool
  clamp     : Nat
  clampOn   : Bool
  calAt     : Nat
  level     : Nat
  deriving DecidableEq, Repr

/-- One field (R340 to R346, R364, R367): state (0 off, 1 ramping up, 2 on, 3 ramping down), its own current limit and the
10 ms mark of R362, soft-start waiting, VDDL setpoint in mV, VDDL current in 0.1 A, active phases, faults. -/
structure FieldSt where
  st      : Nat
  ownLim  : Bool
  persist : Bool
  waiting : Bool
  qrate   : Bool
  vset    : Nat
  ivddl   : Nat
  lact    : Nat
  mact    : Nat
  oact    : Nat
  pact    : Nat
  faults  : Nat
  deriving DecidableEq, Repr

/-- The power policy of a partition (R355): fixed-frequency mode and its step, a pending change, the step that the partition's
target stands at (R360), and its energy in µJ (R356). -/
structure PolicySt where
  fixed   : Bool
  step    : Nat
  pending : Option (Bool × Nat)
  target  : Nat
  energy  : Nat
  deriving DecidableEq, Repr

/-- Power and thermal state. Sensors are keyed 128 × kind + index (kind as THM_TRIP.KIND) with stage and temperature;
hot holds the keys of the sensors that have tripped and not yet left stage 1 (R361). -/
structure PwrState where
  qualifier : Bool
  vinMv     : Nat
  vinCurr   : Nat
  pwrEn     : Bool
  mustCycle : Bool
  lowSeen   : Bool
  forceOff  : Bool
  isOn      : Bool
  handshake : Bool
  watts     : Nat
  convBad   : Nat
  ivpkg     : Nat
  capP0     : Nat
  capP1     : Nat
  capBmc    : Nat
  capStatus : Nat
  ceil      : Nat
  hgap      : Nat
  overs     : Nat
  under     : Nat
  unmet     : Bool
  trip      : Bool
  vinoor    : Bool
  iinLim    : Bool
  vpkgLim   : Bool
  throttle  : Bool
  thrSecs   : Nat
  anyOn     : Bool
  anyAt     : Nat
  fields    : SMap FieldSt
  regions   : SMap RegionSt
  policies  : SMap PolicySt
  idle      : Nat
  sensors   : SMap (Nat × Int)
  tripOn    : Bool
  tripKind  : Nat
  tripIdx   : Nat
  hot       : List Nat
  hbmDown   : List Nat
  vtable    : SMap Nat
  hiLatch   : SMap Word
  deriving DecidableEq, Repr

end Sys2Proof.Machine
end

