-- ==== Sys2Proof/Machine/Power.lean ====
section
/-! DEFINITION. Power delivery, the cap loop, region monitors and thermal stages as operations on their own state
(spec/13_power_and_thermal.md, spec/07_clocks_and_logical_time.md R188 to R192). -/

namespace Sys2Proof.Machine

/-- A region of an unpowered field. -/
def region0 : RegionSt := ⟨20, 0, 0, false, 46, 0, false, false, 0, false, 0, 0⟩

/-- A field after VIN comes on: off, nothing counted (R367). -/
def field0 : FieldSt := ⟨0, false, false, false, false, 0, 0, 0, 0, 0, 0, 0⟩

/-- A partition without a policy: dynamic mode. -/
def policy0 : PolicySt := ⟨false, 0, none, 0, 0⟩

/-- The power state while VIN is absent. -/
def pwrInit : PwrState where
  qualifier := false
  vinMv := 0
  vinCurr := 0
  pwrEn := false
  mustCycle := false
  lowSeen := false
  forceOff := false
  isOn := false
  handshake := false
  watts := 0
  convBad := 0
  ivpkg := 0
  capP0 := 0
  capP1 := 0
  capBmc := 0
  capStatus := 0
  ceil := 46
  hgap := 0
  overs := 0
  under := 0
  unmet := false
  trip := false
  vinoor := false
  iinLim := false
  vpkgLim := false
  throttle := false
  thrSecs := 0
  anyOn := false
  anyAt := 0
  fields := []
  regions := []
  policies := []
  idle := 0
  sensors := []
  tripOn := false
  tripKind := 0
  tripIdx := 0
  hot := []
  hbmDown := []
  vtable := []
  hiLatch := []

/-- A field. -/
def fieldOf (p : PwrState) (n : Nat) : FieldSt := smGet field0 p.fields n
/-- Setting a field. -/
def setField (p : PwrState) (n : Nat) (x : FieldSt) : PwrState := { p with fields := smSet field0 p.fields n x }
/-- A region. -/
def regionOf (p : PwrState) (n : Nat) : RegionSt := smGet region0 p.regions n
/-- Setting a region. -/
def setRegion (p : PwrState) (n : Nat) (x : RegionSt) : PwrState := { p with regions := smSet region0 p.regions n x }
/-- A partition's policy. -/
def policyOf (p : PwrState) (n : Nat) : PolicySt := smGet policy0 p.policies n
/-- Setting a partition's policy. -/
def setPolicy (p : PwrState) (n : Nat) (x : PolicySt) : PwrState := { p with policies := smSet policy0 p.policies n x }

/-- R7: the field of a region. -/
def regionField (n : Nat) : Nat := 4 * (n / 64) + n % 16 / 4

/-- R7: the field of a tile. -/
def tileField (t : Nat) : Nat := 4 * (t / 64 / 16) + t % 64 / 16

/-- R7: the region of a tile. -/
def tileRegion (t : Nat) : Nat := 16 * (t / 64 / 4) + t % 64 / 4

/-- R7: the cluster of a tile. -/
def tileCluster (t : Nat) : Nat := 8 * (t / 64 / 4) + t % 64 / 8

/-- The 16 regions of a field. -/
def fieldRegions (n : Nat) : List Nat := (List.range 128).filter (fun i => regionField i == n)

/-- The sensor key (R368). -/
def sensorKey (kind idx : Nat) : Nat := 128 * kind + idx

/-- A sensor's stage and temperature. -/
def sensorOf (p : PwrState) (kind idx : Nat) : Nat × Int := smGet (0, 0) p.sensors (sensorKey kind idx)

/-- Setting a sensor; one below stage 1 has left the trip behind it (R361). -/
def setSensor (p : PwrState) (kind idx : Nat) (x : Nat × Int) : PwrState :=
  { p with
    sensors := smSet (0, 0) p.sensors (sensorKey kind idx) x
    hot := if x.1 = 0 then p.hot.erase (sensorKey kind idx) else p.hot }

/-- The sensors of a kind (R358): 0 region, 1 HBM4 stack, 2 optical engine, 3 field IVR, 4 module converter. -/
def sensorCount (kind : Nat) : Nat := [128, 16, 12, 8, 16].getD kind 0

/-- R358: the threshold of a stage. -/
def stageThr (kind stage : Nat) : Int :=
  match kind, stage with
  | 0, 1 => 95
  | 0, 2 => 105
  | 0, _ => 115
  | 1, 1 => 85
  | 1, 2 => 95
  | 1, _ => 105
  | 2, 1 => 70
  | 2, 2 => 80
  | 2, _ => 85
  | 3, 1 => 110
  | 3, 2 => 120
  | 3, _ => 125
  | _, 1 => 100
  | _, 2 => 110
  | _, _ => 120

/-- R358: the stage whose threshold a reading has reached. -/
def stageReached (kind : Nat) (temp : Int) : Nat :=
  if stageThr kind 3 ≤ temp then 3 else if stageThr kind 2 ≤ temp then 2 else if stageThr kind 1 ≤ temp then 1 else 0

/-- R358: the stage that still holds at a falling reading: a stage is left 5 °C below its threshold. -/
def stageHeld (kind : Nat) (temp : Int) : Nat :=
  if stageThr kind 3 - 5 < temp then 3 else if stageThr kind 2 - 5 < temp then 2
  else if stageThr kind 1 - 5 < temp then 1 else 0

/-- The stages of the sensors of a kind. -/
def stagesOf (p : PwrState) (kind : Nat) : List Nat := (List.range (sensorCount kind)).map (fun i => (sensorOf p kind i).1)

/-- PWR_EMERG.THM2 (R367). -/
def thm2 (p : PwrState) : Bool := p.sensors.any (fun s => decide (2 ≤ s.2.1))

/-- Working module converters (R339). -/
def convWorking (p : PwrState) : Nat := if p.isOn then 16 - p.convBad else 0

/-- R339, R359: the VPKG current limit in A. -/
def vpkgLimit (p : PwrState) : Nat :=
  let hot := (stagesOf p 4).foldl (fun n s => n + (if s = 1 then 200 else if s = 2 then 400 else 0)) 0
  min 3000 (200 * (convWorking p - 1)) - hot

/-- R346, R359: the VDDL current limit of a field in 0.1 A. -/
def fieldLimit (p : PwrState) (n : Nat) : Nat :=
  let f := fieldOf p n
  let s := (sensorOf p 3 n).1
  let base := if p.isOn then min 6400 (112 * f.lact) else 6400
  if s = 1 then base * 9 / 10 else if 2 ≤ s then base / 2 else base

/-- The current limit of a field is asserted (R343). -/
def fieldLimited (p : PwrState) (n : Nat) : Bool := (fieldOf p n).ownLim || p.iinLim || p.vpkgLim

/-- PWR_EMERG.FLIMIT (R362). -/
def flimit (p : PwrState) : Bool := p.fields.any (fun f => f.2.persist)

/-- PWR_EMERG.ANY (R362). -/
def emergAny (p : PwrState) : Bool :=
  p.trip || thm2 p || p.vinoor || p.iinLim || p.vpkgLim || p.throttle || flimit p

/-- Keeping the instant at which ANY last read 1 (R362, R367). -/
def syncEmerg (clock : Nat) (p : PwrState) : PwrState :=
  if emergAny p then { p with anyOn := true } else if p.anyOn then { p with anyOn := false, anyAt := clock } else p

/-- PWR_EMERG.CLEARS: whole seconds since ANY last read 1; 1 s is 1.6 × 10^9 IR cycles. -/
def emergClears (clock : Nat) (p : PwrState) : Nat :=
  if emergAny p then 0 else min 0xFFFF ((clock - p.anyAt) / 1600000000)

/-- ALERT_N is asserted (R362). -/
def alertOn (p : PwrState) : Bool := emergAny p || p.unmet

/-- R351: a source's cap; one that has set none counts as 6,400 W. -/
def capVal (w : Nat) : Nat := if w = 0 then 6400 else w

/-- R351: the effective cap. -/
def effectiveCap (p : PwrState) : Nat := min (capVal p.capP0) (min (capVal p.capP1) (capVal p.capBmc))

/-- PWR_CAP.SRC (R351, R367): the lowest source among equal caps, 3 where none has set one. -/
def capSrc (p : PwrState) : Nat :=
  let c := effectiveCap p
  if p.capP0 = 0 ∧ p.capP1 = 0 ∧ p.capBmc = 0 then 3
  else if p.capP0 ≠ 0 ∧ p.capP0 = c then 0
  else if p.capP1 ≠ 0 ∧ p.capP1 = c then 1
  else if p.capBmc ≠ 0 ∧ p.capBmc = c then 2
  else 3

/-- R352: one tick of the cap loop with mean power w; dyn are the modes of the powered partitions (true dynamic). The Bool says
that CAP_UNMET is posted. -/
def capTick (p : PwrState) (w : Nat) (dyn : List Bool) : PwrState × Bool :=
  let q := { p with watts := min w 0xFFFF }
  if effectiveCap p < w then
    let u := { q with under := 0 }
    if 28 < p.ceil ∧ dyn.any id then ({ u with ceil := p.ceil - 1 }, false)
    else if dyn.all id ∧ p.hgap < 8 then ({ u with hgap := p.hgap + 1 }, false)
    else
      let n := p.overs + 1
      ({ u with overs := n, unmet := p.unmet || decide (10 ≤ n) }, decide (10 ≤ n) && !p.unmet)
  else
    let v := { q with overs := 0 }
    if 100 * w < 97 * effectiveCap p then
      if 10 ≤ p.under + 1 then
        ({ v with
          under := 0
          unmet := false
          hgap := p.hgap - 1
          ceil := if p.hgap = 0 ∧ p.ceil < 46 then p.ceil + 1 else p.ceil }, false)
      else ({ v with under := p.under + 1 }, false)
    else ({ v with under := 0 }, false)

/-- R354: the ceiling of a region whose partition's policy is given. -/
def regionCeil (p : PwrState) (n : Nat) (pol : PolicySt) : Nat :=
  let thr := if p.throttle then 20 else 46
  if pol.fixed then min pol.target thr
  else min 46 (min p.ceil (min (regionOf p n).thermCeil thr))

/-- A region in thermal stage 2 or above goes to step 20 at once (R359). -/
def regionHot (p : PwrState) (n : Nat) : Bool := decide (2 ≤ (sensorOf p 0 n).1)

/-- R190, R191, R354, R359: one CF cycle of a region monitor. -/
def monitorTick (p : PwrState) (n : Nat) (warn : Bool) (pol : PolicySt) : PwrState :=
  let r := regionOf p n
  let c := regionCeil p n pol
  let cnt := if warn then min 0xFFFF (r.warn + 1) else r.warn
  if pol.fixed then setRegion p n { r with target := c, warn := cnt, warnNow := warn }
  else if regionHot p n then setRegion p n { r with target := 20, warn := cnt, warnNow := warn, raiseWait := 1000 }
  else if warn then
    setRegion p n { r with target := max (r.target - 1) 20, warn := cnt, warnNow := true, raiseWait := 1000 }
  else if c < r.target then setRegion p n { r with target := c, warnNow := false }
  else if 0 < r.raiseWait then setRegion p n { r with raiseWait := r.raiseWait - 1, warnNow := false }
  else if r.target < c then setRegion p n { r with target := r.target + 1, raiseWait := 1000, warnNow := false }
  else setRegion p n { r with warnNow := false }

/-- R189, R191, R343, R359: every period of a region's tiles is a limit stretch. -/
def regionStretch (p : PwrState) (n : Nat) (pol : PolicySt) : Bool :=
  fieldLimited p (regionField n) || regionHot p n || (pol.fixed && (regionOf p n).warnNow)

/-- R341: the VDDL setpoint of a field: the table's value for its highest target. -/
def syncVset (p : PwrState) (n : Nat) : PwrState :=
  let f := fieldOf p n
  if f.st = 0 ∨ f.st = 3 then setField p n { f with vset := 0 }
  else
    let t := (fieldRegions n).foldl (fun m i => max m (regionOf p i).target) 0
    setField p n { f with vset := smGet 0 p.vtable (64 * n + t) / 5 * 5 }

/-- R364: the headroom test. -/
def headroom (p : PwrState) (mean : Nat) : Bool :=
  decide (mean + 120 ≤ vpkgLimit p) && (List.range 8).all (fun n => !fieldLimited p n)

/-- R365: the field that soft-starts next: the lowest that waits, where none is ramping up. -/
def nextSoftStart (p : PwrState) : Option Nat :=
  if (List.range 8).any (fun n => (fieldOf p n).st == 1) then none
  else (List.range 8).find? (fun n => (fieldOf p n).waiting)

/-- R364: starting the soft start of the next field, at full or quarter rate. -/
def softStart (p : PwrState) (quarter : Bool) : PwrState :=
  match nextSoftStart p with
  | none => p
  | some n => syncVset (setField p n { fieldOf p n with st := 1, waiting := false, qrate := quarter }) n

/-- R366, R190: a field at its setpoint: its regions start from the floor with their warnings cleared (R204). -/
def softStartDone (p : PwrState) (n : Nat) : PwrState :=
  let p1 := setField p n { fieldOf p n with st := 2 }
  syncVset ((fieldRegions n).foldl (fun s i =>
    setRegion s i { regionOf s i with target := 20, raiseWait := 0, warn := 0, warnNow := false }) p1) n

/-- R363: a field's VDDL and VDDM ramp to 0. -/
def fieldOff (p : PwrState) (n : Nat) : PwrState :=
  let f := fieldOf p n
  let p1 := setField p n { f with st := 0, waiting := false, vset := 0, ivddl := 0, ownLim := false, persist := false }
  (fieldRegions n).foldl (fun s i => setRegion s i { regionOf s i with
    target := 20, raiseWait := 0, warn := 0, warnNow := false, injOn := false, injEmpty := false, clampOn := false }) p1

/-- R361: latching the source of the first trip since VALID was last clear. -/
def latchTrip (p0 : PwrState) (kind idx : Nat) : PwrState :=
  let p := { p0 with trip := true, hot := setInsert p0.hot (sensorKey kind idx) }
  if p.tripOn then p else { p with tripOn := true, tripKind := kind, tripIdx := idx }

/-- R345: shedding a phase of a bank: domain 0 VDDL, 1 VDDM, 2 VDDO, 3 VDDP. -/
def shedPhase (p : PwrState) (n domain : Nat) : PwrState :=
  let f := fieldOf p n
  let g := { f with faults := min (f.faults + 1) 0x3FFF }
  setField p n (match domain with
    | 0 => { g with lact := f.lact - 1 }
    | 1 => { g with mact := f.mact - 1 }
    | 2 => { g with oact := f.oact - 1 }
    | _ => { g with pact := f.pact - 1 })

/-- R346: a field that cannot be sustained. -/
def unsustainable (f : FieldSt) : Bool :=
  decide (f.lact < 40) || decide (f.mact < 3) || decide (f.oact < 7) || decide (f.pact < 7)

/-- R346: the ring is lost with it: a VDDO or VDDP bank. -/
def ringUnsustainable (f : FieldSt) : Bool := decide (f.oact < 7) || decide (f.pact < 7)

/-- R356: one metering interval: the input energy, the energy of each field, and the fields of each powered partition. -/
def meterTick (p : PwrState) (ein : Nat) (fe : List Nat) (parts : List (Nat × List Nat)) : PwrState :=
  let direct := fun (fs : List Nat) => fs.foldl (fun e n => e + nth0 fe n) 0
  let total := parts.foldl (fun e x => e + direct x.2) 0
  let residual := ein - total
  let nf := parts.foldl (fun e x => e + x.2.length) 0
  if nf = 0 then { p with idle := (p.idle + ein) % 2 ^ 64 }
  else
    let share := fun (x : Nat × List Nat) => residual * x.2.length / nf
    let given := parts.foldl (fun e x => e + share x) 0
    let q := parts.foldl (fun s x =>
      let y := policyOf s x.1
      setPolicy s x.1 { y with energy := (y.energy + direct x.2 + share x) % 2 ^ 64 }) p
    match parts with
    | x :: _ =>
      let y := policyOf q x.1
      setPolicy q x.1 { y with energy := (y.energy + (residual - given)) % 2 ^ 64 }
    | [] => q

/-- PWR_CAP (R367). -/
def pwrCapWord (p : PwrState) : Word :=
  BitVec.ofNat 32 (b2n (decide (p.ceil < 46) || decide (0 < p.hgap)) * 2 ^ 31 + b2n p.unmet * 2 ^ 30 + capSrc p * 2 ^ 28
    + p.hgap * 2 ^ 24 + p.ceil * 2 ^ 16 + effectiveCap p)

/-- PWR_EMERG (R367). -/
def pwrEmergWord (clock : Nat) (p : PwrState) : Word :=
  BitVec.ofNat 32 (b2n (emergAny p) * 2 ^ 31 + emergClears clock p * 2 ^ 8 + b2n p.trip * 2 ^ 7 + b2n (thm2 p) * 2 ^ 6
    + b2n p.vinoor * 2 ^ 5 + b2n p.iinLim * 2 ^ 4 + b2n p.vpkgLim * 2 ^ 3 + b2n p.throttle * 2 ^ 2 + b2n (flimit p) * 2)

/-- PWR_CONV (R367). -/
def pwrConvWord (p : PwrState) : Word := BitVec.ofNat 32 (p.ivpkg * 2 ^ 20 + vpkgLimit p * 2 ^ 8 + convWorking p)

/-- PWR_FIELD STAT, CURR and PHASE (R367). -/
def pwrFieldWord (p : PwrState) (n off : Nat) : Word :=
  let f := fieldOf p n
  match off with
  | 0 => BitVec.ofNat 32 (f.st * 2 ^ 30 + b2n (fieldLimited p n) * 2 ^ 29 + b2n f.qrate * 2 ^ 28 + f.vset)
  | 4 => BitVec.ofNat 32 (f.ivddl * 2 ^ 16 + fieldLimit p n)
  | 8 => BitVec.ofNat 32 (f.lact * 2 ^ 25 + f.mact * 2 ^ 22 + f.oact * 2 ^ 18 + f.pact * 2 ^ 14 + f.faults)
  | _ => 0

/-- PWR_REGION (R367). -/
def pwrRegionWord (p : PwrState) (n : Nat) : Word :=
  BitVec.ofNat 32 ((regionOf p n).inject * 2 ^ 16 + (regionOf p n).clamp)

/-- PWR_POLICY (R367). -/
def pwrPolicyWord (p : PwrState) (n : Nat) : Word :=
  let y := policyOf p n
  BitVec.ofNat 32 (b2n y.fixed * 2 ^ 31 + b2n y.pending.isSome * 2 ^ 30 + y.step)

/-- CLK_REGION (R204): 0 while the region's field is unpowered. -/
def clkRegionWord (p : PwrState) (n : Nat) (pol : PolicySt) : Word :=
  if (fieldOf p (regionField n)).st = 2 then
    BitVec.ofNat 32 (2 ^ 31 + b2n pol.fixed * 2 ^ 30 + (regionOf p n).target * 2 ^ 24 + regionCeil p n pol * 2 ^ 16
      + (regionOf p n).warn)
  else 0

/-- A THM_ sensor register (R368). -/
def thmWord (p : PwrState) (kind idx : Nat) : Word :=
  let s := sensorOf p kind idx
  BitVec.ofNat 32 (s.1 * 2 ^ 30 + wrapInt 8 s.2)

/-- THM_TRIP (R368). -/
def thmTripWord (p : PwrState) : Word := BitVec.ofNat 32 (b2n p.tripOn * 2 ^ 31 + p.tripKind * 2 ^ 28 + p.tripIdx)

end Sys2Proof.Machine
end

