-- ==== Sys2Proof/Machine/State.lean ====
section
/-! DEFINITION. The state of the block: every register, buffer, counter, mode and pin that the spec gives a Tranu-8 module, and
the queue of the commands that wait. -/

namespace Sys2Proof.Machine

/-- Why a step stops in a fault. -/
inductive Fault where
  /-- A memory command names a frame that its tier does not have (R206, R207). Raised by MEM_UNCORRECTABLE,
  CORRECTED_ERROR_LIMIT and SCRUB_ERROR. Safe: the model stops where nothing exists that could act. -/
  | noSuchFrame
  deriving DecidableEq, Repr

/-- Why a command is refused. -/
inductive Refusal where
  /-- The command has no meaning yet, by its mnemonic. Raised by an arm of exec. Safe: the model stops. -/
  | notModelled (mnemonic : String)
  deriving DecidableEq, Repr

/-- The state. clock counts IR cycles of 0.625 ns since VIN came on (R186, R288); freeCtr counts the free values drawn. -/
structure State where
  clock   : Nat
  freeCtr : Nat
  tiles   : SMap Tile
  ring    : RingState
  mem     : MemState
  lk      : LinkState
  fab     : FabState
  pwr     : PwrState
  kiln    : KilnState
  p0      : HostPort
  p1      : HostPort
  boot    : BootState
  flash   : Flash
  upd     : UpdState
  spdm0   : SpdmConn
  spdm1   : SpdmConn
  smb     : SmbState
  pending : List Instr
  deriving DecidableEq, Repr

/-- The module before VIN comes on, with the flash as shipped (R336). -/
def State.reset : State where
  clock := 0
  freeCtr := 0
  tiles := []
  ring := ringInit
  mem := memInit
  lk := linkInit
  fab := fabInit
  pwr := pwrInit
  kiln := kilnInit
  p0 := portInit0
  p1 := portInit0
  boot := bootInit
  flash := flashInit
  upd := updInit
  spdm0 := spdmInit
  spdm1 := spdmInit
  smb := smbInit
  pending := []

end Sys2Proof.Machine
end

