-- ==== Sys2Proof/Machine/Ops.lean ====
section
/-! DEFINITION. The named operations over the state: its parts, tiles and partitions, contexts and ports, and one idle tick. -/

namespace Sys2Proof.Machine

/-- A tile. -/
def tileOf (s : State) (t : Nat) : Tile := smGet tileInit s.tiles t

/-- Setting a tile. -/
def setTile (s : State) (t : Nat) (x : Tile) : State := { s with tiles := smSet tileInit s.tiles t x }

/-- Changing a tile. -/
def updTile (s : State) (t : Nat) (f : Tile → Tile) : State := setTile s t (f (tileOf s t))

/-- Changing several tiles. -/
def updTiles (s : State) (ts : List Nat) (f : Nat → Tile → Tile) : State := ts.foldl (fun x t => updTile x t (f t)) s

/-- A partition. -/
def partOf (s : State) (p : Nat) : PartSt := smGet part0 s.kiln.parts p

/-- Setting a partition. -/
def setPart (s : State) (p : Nat) (x : PartSt) : State :=
  { s with kiln := { s.kiln with parts := smSet part0 s.kiln.parts p x } }

/-- The fields of a partition. -/
def partFields (x : PartSt) : List Nat := setBits 8 x.fmask

/-- The partition that a field lies in. -/
def partOfField (s : State) (f : Nat) : Option Nat :=
  (List.range 8).find? (fun p => (partOf s p).on && (partOf s p).fmask.testBit f)

/-- The partition that a tile lies in. -/
def partOfTile (s : State) (t : Nat) : Option Nat := partOfField s (tileField t)

/-- The tiles of a partition. -/
def partTiles (x : PartSt) : List Nat := (List.range 2048).filter (fun t => x.fmask.testBit (tileField t))

/-- The tile's partition is powered (R183). -/
def tilePowered (s : State) (t : Nat) : Bool :=
  match partOfTile s t with
  | some p => (partOf s p).powered
  | none => false

/-- The power policy that governs a region: its partition's (R191). -/
def regionPolicy (s : State) (n : Nat) : PolicySt :=
  match partOfField s (regionField n) with
  | some p => policyOf s.pwr p
  | none => policy0

/-- The tile in a direction, on the die. -/
def neighbour (t : Nat) (d : Dir) : Option Nat :=
  match d with
  | .n => if t < 64 then none else some (t - 64)
  | .s => if 1984 ≤ t then none else some (t + 64)
  | .w => if t % 64 = 0 then none else some (t - 1)
  | .e => if t % 64 = 63 then none else some (t + 1)
  | .x => none

/-- The neighbour in a direction within the tile's own partition (R177, R193). -/
def partnerOf (s : State) (t : Nat) (d : Dir) : Option Nat :=
  match neighbour t d with
  | some u => if (partOfTile s t).isSome && partOfTile s u == partOfTile s t then some u else none
  | none => none

/-- The beat partners of a tile (R193). -/
def partnerDirs (s : State) (t : Nat) : List Dir := meshDirs.filter (fun d => (partnerOf s t d).isSome)

/-- The edge port at a tile (R174): EN 0–63, ES 64–127, EW 128–157, EE 158–187. -/
def edgeOfTile (t : Nat) : Option Nat :=
  if t < 64 then some t
  else if 1984 ≤ t then some (64 + t % 64)
  else if t % 64 = 0 then some (128 + t / 64 - 1)
  else if t % 64 = 63 then some (158 + t / 64 - 1)
  else none

/-- The tile of an edge port. -/
def tileOfEdge (e : Nat) : Nat :=
  if e < 64 then e else if e < 128 then 1984 + (e - 64) else if e < 158 then 64 * (e - 127) else 64 * (e - 157) + 63

/-- A context. -/
def ctxOf (s : State) (c : Nat) : Ctx := smGet ctx0 s.kiln.ctxs c

/-- A context exists. -/
def ctxLive (s : State) (c : Nat) : Bool := decide ((ctxOf s c).port < 2)

/-- Setting a context. -/
def setCtx (s : State) (c : Nat) (x : Ctx) : State :=
  { s with kiln := { s.kiln with ctxs := smSet ctx0 s.kiln.ctxs c x } }

/-- Changing a context. -/
def updCtx (s : State) (c : Nat) (f : Ctx → Ctx) : State := setCtx s c (f (ctxOf s c))

/-- The contexts that exist, ascending. -/
def liveCtxs (s : State) : List Nat := s.kiln.ctxs.map (·.1)

/-- The contexts of a partition. -/
def partCtxs (s : State) (p : Nat) : List Nat := (liveCtxs s).filter (fun c => (ctxOf s c).part == p)

/-- The context whose step runs on a partition. -/
def runningCtx (s : State) (p : Nat) : Option Nat := (partCtxs s p).find? (fun c => (ctxOf s c).run.isSome)

/-- A host port. -/
def hostOf (s : State) (p : Nat) : HostPort := if p = 0 then s.p0 else s.p1

/-- Setting a host port. -/
def setHost (s : State) (p : Nat) (x : HostPort) : State := if p = 0 then { s with p0 := x } else { s with p1 := x }

/-- Changing a host port. -/
def updHost (s : State) (p : Nat) (f : HostPort → HostPort) : State := setHost s p (f (hostOf s p))

/-- R377: a failed BAR2 access; the first since VALID was last clear is kept. A failed read completes with Completer Abort. -/
def bar2Fault (x : HostPort) (write : Bool) (st : Nat) : HostPort :=
  { x with
    ca := x.ca || !write
    rd := if write then x.rd else []
    b2On := true
    b2Write := if x.b2On then x.b2Write else write
    b2Status := if x.b2On then x.b2Status else st
    b2Count := min (x.b2Count + 1) 0xFFFF }

/-- A port is attached and not lost (R390). -/
def attached (x : HostPort) : Bool := x.st == 1

/-- The DDR5 tier is fitted (R4, R206). -/
def ddrFitted (s : State) : Bool := s.flash.model != 2

/-- An Ember stream. -/
def emberOf (s : State) (i : Nat) : EmberSt := smGet ember0 s.kiln.embers i

/-- Setting an Ember stream. -/
def setEmber (s : State) (i : Nat) (x : EmberSt) : State :=
  { s with kiln := { s.kiln with embers := smSet ember0 s.kiln.embers i x } }

/-- A free value and its counter's advance. -/
def drawFree (s : State) : Nat × State := (Config.freeValue s.freeCtr, { s with freeCtr := s.freeCtr + 1 })

/-- Changing the links. -/
def updLinks (s : State) (f : LinkState → LinkState) : State := { s with lk := f s.lk }

/-- Changing one port of the links. -/
def updLink (s : State) (l : Nat) (f : LinkPort → LinkPort) : State := { s with lk := setPort s.lk l (f (portOf s.lk l)) }

/-- Changing the power state, and keeping the emergency clock (R362). -/
def updPwr (s : State) (f : PwrState → PwrState) : State := { s with pwr := syncEmerg s.clock (f s.pwr) }

/-- The partitions that exist. -/
def allParts (s : State) : List Nat := (List.range 8).filter (fun p => (partOf s p).on)

/-- The partitions that a sensor's stage bears on: the region's or field's, else all (R359). -/
def sensorParts (s : State) (kind idx : Nat) : List Nat :=
  if kind = 0 then (partOfField s (regionField idx)).toList
  else if kind = 3 then (partOfField s idx).toList
  else allParts s

/-- A mover. -/
def moverOf (s : State) (m : Nat) : Mover := smGet mover0 s.ring.movers m

/-- Setting a mover. -/
def setMover (s : State) (m : Nat) (x : Mover) : State :=
  { s with ring := { s.ring with movers := smSet mover0 s.ring.movers m x } }

/-- The block idles for one IR cycle (DESIGN CHOICE: the table has no row for a tick): the clock and fabric time advance, and
Tier Map updates take effect (R212). -/
def idleTick (s : State) : State :=
  { s with clock := s.clock + 1, fab := ftimeTick s.fab, mem := { s.mem with stale := [], tmapBy := 0 } }

/-- R212: within one IR cycle Tier Map updates apply in the order of the movers, with Kiln last; a mover whose turn is over in
this cycle updates in the next one. -/
def tmapTurn (s : State) (m : Nat) : State := if m + 1 < s.mem.tmapBy then idleTick s else s

/-- Changing the fabric side. -/
def updFab (s : State) (f : FabState → FabState) : State := { s with fab := f s.fab }

/-- R406, R407: what Kiln's firmware does; while it restarts, nothing. -/
def whileKiln (s t : State) : State := if s.kiln.stat = 2 then s else t

/-- Kiln takes commands: its firmware has started and is not restarting (R372, R406). -/
def kilnUp (s : State) : Bool := s.boot.running && decide (1 ≤ s.boot.stage) && (s.kiln.stat == 1 || s.kiln.stat == 3)

end Sys2Proof.Machine
end

