-- ==== Sys2Proof/Machine/CtlMsg.lean ====
section
/-! DEFINITION. Control messages between tiles and the ring (spec/06_die_mesh_and_groupings.md R170, R171): their 128 bits, the
edge port of a tile's column that carries them, and the tiles that they pass. -/

namespace Sys2Proof.Machine

/-- R171: the edge port of a tile's control messages: EN of its column for rows 0 to 15, ES for rows 16 to 31. -/
def ctlPort (t : Nat) : Nat := if t / 64 < 16 then t % 64 else 64 + t % 64

/-- R171: the tiles that a message passes between its edge port and a tile, that tile last. -/
def ctlPath (t : Nat) : List Nat :=
  if t / 64 < 16 then (List.range (t / 64 + 1)).map (fun r => 64 * r + t % 64)
  else (List.range (32 - t / 64)).map (fun r => 64 * (31 - r) + t % 64)

/-- The tile at the far end of the column half behind an EN or ES port. -/
def ctlFar (e : Nat) : Nat := if e < 64 then 64 * 15 + e else 64 * 16 + (e - 64)

/-- R170: the TYPE of a control message. -/
inductive CtlType where
  | notify | barArrive | barRelease | regWrite | regRead | regData
  deriving DecidableEq, Repr

/-- The code of a TYPE. -/
def ctlCode (k : CtlType) : Nat :=
  match k with
  | .notify => 1
  | .barArrive => 2
  | .barRelease => 3
  | .regWrite => 4
  | .regRead => 5
  | .regData => 6

/-- R170: the 128 bits of a control message of a tile; inward says that it comes from the edge port (DIR 1). -/
def ctlMsg (k : CtlType) (inward : Bool) (t : Nat) (bcast : Bool) (payload : Nat) : BitVec 128 :=
  BitVec.ofNat 128 (ctlCode k * 2 ^ 120 + b2n inward * 2 ^ 119 + t / 64 % 32 * 2 ^ 114 + t % 64 * 2 ^ 108 + b2n bcast * 2 ^ 107
    + payload % 2 ^ 96)

/-- R170: the payload of a BAR_ARRIVE; a BAR_RELEASE has no COUNT. -/
def barPayload (cord ch count : Nat) : Nat := ch * 2 ^ 94 + cord * 2 ^ 82 + count * 2 ^ 70

/-- R170: the payload of a message about a register. -/
def regPayload (off data : Nat) : Nat := off % 2 ^ 10 * 2 ^ 86 + data % 2 ^ 32

/-- R171: a message of a tile crosses the edge port of its column; the port keeps the last one. -/
def crossCtl (s : State) (t : Nat) (m : BitVec 128) : State :=
  { s with ring := { s.ring with ctl := smSet 0 s.ring.ctl (ctlPort t) m } }

/-- R170: the payload of a NOTIFY: the register image of its notice in bits 31 to 0 (DESIGN CHOICE), and a cause whose coding the
spec does not give (a free value). -/
def noticePayload (n : Notice) (cause : Nat) : Nat :=
  cause % 2 ^ 64 * 2 ^ 32 + (match n with
    | .event code count => count * 2 ^ 16 + code
    | .fault code slot fpc => 2 ^ 31 + code * 2 ^ 16 + slot * 2 ^ 14 + fpc
    | .parity path bits word => 2 ^ 31 + path * 2 ^ 28 + bits * 2 ^ 20 + word
    | _ => 0)

/-- The EN and ES ports of a partition. -/
def ctlPorts (s : State) (p : Nat) : List Nat := (List.range 128).filter (fun e => partOfTile s (ctlFar e) == some p)

/-- R170: a BAR_RELEASE goes in at every EN and ES port of the partition, to every tile that it passes. -/
def bcastTiles (s : State) (p : Nat) : List Nat := (ctlPorts s p).flatMap (fun e => ctlPath (ctlFar e))

end Sys2Proof.Machine
end

