-- ==== Sys2Proof/Machine/KilnTasks.lean ====
section
/-! DEFINITION. Kiln's tasks and the order in which its cores take them (spec/15_kiln_firmware.md R393 to R395). -/

namespace Sys2Proof.Machine

/-- A waiting task: its class (R393), the IR cycle in which its cause reached Kiln, and its index among causes of one cycle: for a mailbox
16 × port + number (R389). -/
structure KTask where
  cls   : Nat
  since : Nat
  idx   : Nat
  deriving DecidableEq, Repr

/-- R394, R395: a task goes before another: of a higher class (a lower number), older, or of a lower index. -/
def taskBefore (a b : KTask) : Bool :=
  decide (a.cls < b.cls) || (a.cls == b.cls && (decide (a.since < b.since) || (a.since == b.since && decide (a.idx < b.idx))))

/-- R394: core 0 takes tasks of classes 1 to 3 only. -/
def coreTakes (core : Nat) (a : KTask) : Bool := core != 0 || decide (a.cls ≤ 3)

/-- R394: the task that a core takes next. -/
def nextTask (core : Nat) (ws : List KTask) : Option KTask :=
  ws.foldl (fun r a => if coreTakes core a && (match r with | some b => taskBefore a b | none => true) then some a else r) none

/-- R394: the core that a task of a class runs on, from a free number. -/
def taskCore (cls free : Nat) : Nat := if cls ≤ 3 then free % 4 else 1 + free % 3

end Sys2Proof.Machine
end

