-- ==== Sys2Proof/Machine/Records.lean ====
section
/-! DEFINITION. Rings, log, trace and event records, MSI-X (spec/14_host_interface.md R382 to R387, spec/15_kiln_firmware.md R403 to
R405). -/

namespace Sys2Proof.Machine

/-- A little-endian field of a ring header. -/
def ringField (m : MemState) (r : Ring) (off n : Nat) : Nat := leNat (vaRead m (r.addr + off) n)

/-- PROD (R382). -/
def ringProd (m : MemState) (r : Ring) : Nat := ringField m r 52 4
/-- CONS. -/
def ringCons (m : MemState) (r : Ring) : Nat := ringField m r 48 4
/-- HOST_BEAT. -/
def ringHostBeat (m : MemState) (r : Ring) : Nat := ringField m r 44 4
/-- DEV_BEAT. -/
def ringDevBeat (m : MemState) (r : Ring) : Nat := ringField m r 40 4
/-- DROPPED. -/
def ringDropped (m : MemState) (r : Ring) : Nat := ringField m r 36 4

/-- Writing a 32-bit field of a ring header. -/
def setRingField (m : MemState) (r : Ring) (off v : Nat) : MemState := vaWrite m (r.addr + off) (leBytes 4 v)

/-- R383: PROD − CONS modulo 2^32. -/
def ringFill (m : MemState) (r : Ring) : Nat := (ringProd m r + 2 ^ 32 - ringCons m r) % 2 ^ 32

/-- R383: the ring is full. -/
def ringFull (m : MemState) (r : Ring) : Bool := decide (2 ^ r.logsz ≤ ringFill m r)

/-- R382: the header that Kiln writes when it creates a ring. -/
def ringHeader (kind ctx : Nat) (r : Ring) : List Byte :=
  leBytes 64 (0x52494E47 * 2 ^ 480 + kind * 2 ^ 472 + r.logsz * 2 ^ 467 + ctx * 2 ^ 448)

/-- Creating a ring. -/
def ringCreate (m : MemState) (kind ctx : Nat) (r : Ring) : MemState := vaWrite m r.addr (ringHeader kind ctx r)

/-- The address of entry i. -/
def ringEntry (r : Ring) (i : Nat) : Nat := r.addr + 64 + 64 * (i % 2 ^ r.logsz)

/-- R383: writing an entry, then PROD. -/
def ringPut (m : MemState) (r : Ring) (e : List Byte) : MemState :=
  let p := ringProd m r
  setRingField (vaWrite m (ringEntry r p) e) r 52 ((p + 1) % 2 ^ 32)

/-- DROPPED + 1, holding at its largest value (R382). -/
def ringDrop (m : MemState) (r : Ring) : MemState := setRingField m r 36 (min (ringDropped m r + 1) (2 ^ 32 - 1))

/-- R383: writing into a log or trace ring: the oldest entry is overwritten when full. -/
def ringPutOver (m : MemState) (r : Ring) (e : List Byte) : MemState :=
  if ringFull m r then
    ringPut (ringDrop (setRingField m r 48 ((ringCons m r + 1) % 2 ^ 32)) r) r e
  else ringPut m r e

/-- The pages of a ring (R382): its header and entries. -/
def ringPages (r : Ring) : List Nat :=
  let last := (r.addr + 64 + 64 * 2 ^ r.logsz - 1) / 2 ^ 18
  (List.range (last + 1 - r.addr / 2 ^ 18)).map (fun i => r.addr / 2 ^ 18 + i)

/-- R387: a vector's event sets its pending bit; MSIX_SEND sends the message. While the port's host is lost nothing is sent. -/
def raiseVec (s : State) (p v : Nat) : State :=
  updHost s p (fun x => if x.st = 2 then x else { x with pend := setInsert x.pend v })

/-- R383, R387: writing a record into a port's log (kind 3) or trace (kind 4) ring; vector 17 or 18 at the watermark. -/
def putRecord (s : State) (p : Nat) (isTrace : Bool) (e : List Byte) : State :=
  let x := hostOf s p
  match (if isTrace then x.trace else x.log) with
  | some r =>
    let s1 := { s with mem := ringPutOver s.mem r e }
    if ringFill s.mem r < r.wmark ∧ r.wmark ≤ ringFill s1.mem r then raiseVec s1 p (if isTrace then 18 else 17) else s1
  | none => s

/-- A port has a ring for log records (or trace records). -/
def hasRing (x : HostPort) (isTrace : Bool) : Bool := attached x && (if isTrace then x.trace.isSome else x.log.isSome)

/-- R403: writing a record to every attached port's ring. -/
def putAll (s : State) (isTrace : Bool) (e : List Byte) : State :=
  (List.range 2).foldl (fun x p => if hasRing (hostOf x p) isTrace then putRecord x p isTrace e else x) s

/-- The class of the task that generates an event (R393). -/
def eventClass (code : Nat) : Nat :=
  if [0x0E, 0x0F, 0x10, 0x1F, 0x81].contains code then 1
  else if [2, 3, 4, 0x82, 0x83, 0x84].contains code then 2
  else if [5, 6, 7, 0xB, 0xC, 0xD, 0x14, 0x15, 0x16, 0x17, 0x18, 0x80, 0x85].contains code then 3
  else if [8, 9, 0xA].contains code then 5
  else 4

/-- R394, R404: a log record. SEVERITY is a free value, and so is CORE among the cores that may run the task: the spec gives neither. -/
def logRecord (s : State) (code : Nat) (ctx : Option (Nat × Nat)) (args : List Nat) (sev core : Nat) : List Byte :=
  let c := ctx.getD (0, 0)
  let a := args.zipIdx.foldl (fun n x => n + x.1 % 2 ^ 64 * 2 ^ (64 * x.2)) 0
  leBytes 64 (ftimeNs s.fab * 2 ^ 448 + s.kiln.logSeq.toNat * 2 ^ 416 + b2n s.fab.ftValid * 2 ^ 415 + sev % 6 * 2 ^ 412
    + eventClass code * 2 ^ 409 + taskCore (eventClass code) core * 2 ^ 407 + code * 2 ^ 384 + c.1 * 2 ^ 376 + c.2 * 2 ^ 373
    + b2n ctx.isSome * 2 ^ 372 + a)

/-- Adding a record to an SRAM buffer of n records: the new buffer and whether an unwritten record was lost (R404). -/
def bufferAdd (n : Nat) (buf : List (List Byte × Bool)) (e : List Byte) (written : Bool) : List (List Byte × Bool) × Bool :=
  if buf.length < n then (buf ++ [(e, written)], false)
  else
    match buf with
    | b :: bs => (bs ++ [(e, written)], !b.2)
    | [] => ([(e, written)], false)

/-- R403, R404: writing a log record; the state and the record. -/
def postLog (s : State) (code : Nat) (ctx : Option (Nat × Nat)) (args : List Nat) : State × List Byte :=
  let a := drawFree s
  let b := drawFree a.2
  let s1 := b.2
  let e := logRecord s1 code ctx args a.1 b.1
  let w := (List.range 2).any (fun p => hasRing (hostOf s1 p) false)
  let r := bufferAdd 4096 s1.kiln.logBuf e w
  (putAll { s1 with kiln := { s1.kiln with
    logBuf := r.1
    logSeq := s1.kiln.logSeq + 1
    logLost := if r.2 then satAdd32 s1.kiln.logLost 1 else s1.kiln.logLost } } false e, e)

/-- R383: one attempt to put an entry into a port's event ring: EVENTS_LOST first where events were dropped. -/
def putEvent (s : State) (p : Nat) (e : List Byte) : State :=
  let x := hostOf s p
  match x.ev with
  | none => s
  | some r =>
    if ringFull s.mem r then
      updHost { s with mem := ringDrop s.mem r } p (fun y => { y with evDrop := y.evDrop + 1 })
    else raiseVec { s with mem := ringPut s.mem r e } p 16

/-- R383: the EVENTS_LOST entry is posted once an entry is free. -/
def flushLost (s : State) (p : Nat) : State :=
  let x := hostOf s p
  match x.ev with
  | none => s
  | some r =>
    if x.evDrop = 0 ∨ ringFull s.mem r then s
    else
      let l := postLog (updHost s p (fun y => { y with evDrop := 0 })) 0x12 none [x.evDrop]
      putEvent l.1 p l.2

/-- R403, R462: posting an event to ports: the log record, and its copy in each attached port's event ring. -/
def postEvent (s : State) (ports : List Nat) (code : Nat) (ctx : Option (Nat × Nat)) (args : List Nat) : State :=
  let l := postLog s code ctx args
  ports.foldl (fun x p => if attached (hostOf x p) then putEvent (flushLost x p) p l.2 else x) l.1

/-- Posting an event to every attached port. -/
def postAll (s : State) (code : Nat) (args : List Nat) : State := postEvent s [0, 1] code none args

/-- Posting an event about a context to its owner. -/
def postCtx (s : State) (c code : Nat) (args : List Nat) : State :=
  postEvent s [(ctxOf s c).port] code (some (c, (ctxOf s c).part)) args

/-- A log-only record (R462). -/
def logOnly (s : State) (code : Nat) (args : List Nat) : State := (postLog s code none args).1

/-- R405: a trace record where its point is enabled; data are bits [351:0]. -/
def trace (s : State) (point ctx part step data : Nat) : State :=
  if !s.kiln.traceEn.getLsbD point then s
  else
    let e := leBytes 64 (ftimeNs s.fab * 2 ^ 448 + s.kiln.traceSeq.toNat * 2 ^ 416 + b2n s.fab.ftValid * 2 ^ 415
      + point * 2 ^ 400 + ctx * 2 ^ 392 + part * 2 ^ 389 + step * 2 ^ 352 + data)
    let w := (List.range 2).any (fun p => hasRing (hostOf s p) true)
    let r := bufferAdd 1024 s.kiln.traceBuf e w
    putAll { s with kiln := { s.kiln with
      traceBuf := r.1
      traceSeq := s.kiln.traceSeq + 1
      traceLost := if r.2 then satAdd32 s.kiln.traceLost 1 else s.kiln.traceLost } } true e

/-- R405 point 0x0A: a link's state changed. -/
def traceLink (s : State) (l old : Nat) : State :=
  let new := (portOf s.lk l).st
  if old = new then s else trace s 0x0A 0 0 0 (l * 2 ^ 345 + old * 2 ^ 342 + new * 2 ^ 339)

/-- R384, R385: writing a completion entry into a context's completion ring, with its vector. -/
def complete (s : State) (c tag opcode status : Nat) (body : Nat) : State :=
  let x := ctxOf s c
  let e := leBytes 64 (opcode + status * 2 ^ 16 + tag * 2 ^ 32 + body * 2 ^ 64)
  raiseVec { s with mem := ringPut s.mem x.cpl e } x.port x.vector

/-- R403: writing a buffer's records into a new ring of a port, oldest first, and marking them written. -/
def replayBuffer (s : State) (p : Nat) (isTrace : Bool) : State :=
  let buf := if isTrace then s.kiln.traceBuf else s.kiln.logBuf
  let s1 := buf.foldl (fun x e => putRecord x p isTrace e.1) s
  let done := buf.map (fun e => (e.1, true))
  { s1 with kiln := if isTrace then { s1.kiln with traceBuf := done } else { s1.kiln with logBuf := done } }

end Sys2Proof.Machine
end

