-- ==== Sys2Proof/Machine/DefectMap.lean ====
section
/-! DEFINITION. The defect map and the placement that follows from it (spec/01_stitched_die.md R15 to R40), and the recurrences that Kiln
finds (R35, R37). -/

namespace Sys2Proof.Machine

/-- TYPE of a defect map entry (R32): 1 tile, 2 column, 3 lane. -/
def deType (e : Nat) : Nat := bits e 60 4
/-- FIELD. -/
def deField (e : Nat) : Nat := bits e 57 3
/-- PROW, or SEAM of a lane. -/
def deProw (e : Nat) : Nat := bits e 27 5
/-- LCOL. -/
def deLcol (e : Nat) : Nat := bits e 22 5
/-- ACOL. -/
def deAcol (e : Nat) : Nat := bits e 15 7
/-- GROUP of a lane. -/
def deGroup (e : Nat) : Nat := bits e 14 13
/-- LANE. -/
def deLane (e : Nat) : Nat := bits e 8 6

/-- R22: the lane groups of a seam. -/
def seamGroups (seam : Nat) : Nat := if seam < 6 then 2624 else if seam = 6 ∨ seam = 9 then 2756 else 2244

/-- R22: the mesh groups of a seam: 66 for each crossing and direction. -/
def seamMesh (seam : Nat) : Nat := if seam < 6 then 66 * 2 * 16 else 66 * 2 * 17

/-- R22: the number of a lane group: crossings from the west or north, east or south before west or north; ring groups follow. -/
def groupNumber (seam : Nat) (g : SeamGroup) : Nat :=
  match g with
  | .mesh c back i => 66 * (2 * c.val + b2n back) + i.val
  | .ring i => seamMesh seam + i.val

/-- R22: the seam has the group. -/
def hasGroup (seam : Nat) (g : SeamGroup) : Bool :=
  match g with
  | .mesh c _ _ => decide (seam < 6 → c.val < 16)
  | .ring _ => decide (seamMesh seam < seamGroups seam)

/-- The west or north field of a seam. -/
def seamField (seam : Nat) : Nat := if seam < 6 then seam / 3 * 4 + seam % 3 else seam - 6

/-- R24: the second field of a seam to be powered, east or south of the first. -/
def seamSecond (seam : Nat) : Nat := if seam < 6 then seamField seam + 1 else seamField seam + 4

/-- The seam between two fields that share one. -/
def seamBetween (f g : Nat) : Nat := if f / 4 = g / 4 then 3 * (f / 4) + min (f % 4) (g % 4) else 6 + f % 4

/-- R15: the field of a physical tile. -/
def physField (prow pcol : Nat) : Nat := 4 * (prow / 16) + pcol / 17

/-- R25, R26: how a defect is recorded: a failing cell or tree stage bypasses its column; a defect in any other unit makes the tile bad. -/
def findingOf (d : Defect) : Option Finding :=
  match d with
  | .unit r c _ => some (.tile r.val c.val)
  | .cell r c _ a => some (.column r.val c.val a.val)
  | .tree r c _ a => some (.column r.val c.val a.val)
  | .lane m g l => if hasGroup m.val g then some (.lane m.val (groupNumber m.val g) l.val) else none

/-- R32: the entry of a finding, written on a day from an origin; payload bits that its type does not use are 0. -/
def entryOf (origin day : Nat) (x : Finding) : Nat :=
  origin % 8 * 2 ^ 54 + day % 2 ^ 16 * 2 ^ 32 + (match x with
    | .tile r c => 2 ^ 60 + physField r c * 2 ^ 57 + r * 2 ^ 27 + c % 17 * 2 ^ 22
    | .column r c a => 2 * 2 ^ 60 + physField r c * 2 ^ 57 + r * 2 ^ 27 + c % 17 * 2 ^ 22 + a * 2 ^ 15
    | .lane m g l => 3 * 2 ^ 60 + seamField m * 2 ^ 57 + m * 2 ^ 27 + g * 2 ^ 14 + l * 2 ^ 8)

/-- What an entry records (R32); none for a reserved TYPE. -/
def entryFinding (e : Nat) : Option Finding :=
  match deType e with
  | 1 => some (.tile (deProw e) (17 * (deField e % 4) + deLcol e))
  | 2 => some (.column (deProw e) (17 * (deField e % 4) + deLcol e) (deAcol e))
  | 3 => some (.lane (deProw e) (deGroup e) (deLane e))
  | _ => none

/-- The effective defect map (the union of both records). -/
def defects (f : Flash) : List Nat := (f.factory ++ f.field).map (·.toNat)

/-- The bad local columns of a field row. -/
def badLocals (es : List Nat) (field prow : Nat) : List Nat :=
  ((es.filter (fun e => deType e == 1 && deField e == field && deProw e == prow)).map deLcol).eraseDups

/-- R16: bad_local. -/
def badLocal (es : List Nat) (field prow : Nat) : Nat := (badLocals es field prow).headD 16

/-- R16: the local physical column of local logical column j. -/
def localCol (es : List Nat) (field prow j : Nat) : Nat := if badLocal es field prow ≤ j then j + 1 else j

/-- R25: the bypassed physical array columns of a physical tile. -/
def badCols (es : List Nat) (field prow lcol : Nat) : List Nat :=
  ((es.filter (fun e => deType e == 2 && deField e == field && deProw e == prow && deLcol e == lcol)).map deAcol).eraseDups

/-- R25: the physical array column of a presented column. -/
def physAcol (bad : List Nat) (w : Nat) : Nat := ((List.range 128).filter (fun c => !bad.contains c)).getD w 0

/-- The bad lanes of a lane group. -/
def badLanes (es : List Nat) (seam group : Nat) : List Nat :=
  ((es.filter (fun e => deType e == 3 && deProw e == seam && deGroup e == group)).map deLane).eraseDups

/-- R28: the grade's minimum presented width. -/
def gradeMin (f : Flash) : Nat := if f.grade = 0x0A then 124 else 116

/-- R39: a field row has a second bad tile. -/
def twoBadTiles (es : List Nat) : Bool :=
  es.any (fun e => deType e == 1 && decide (2 ≤ (badLocals es (deField e) (deProw e)).length))

/-- R39: a lane group has a third bad lane. -/
def threeBadLanes (es : List Nat) : Bool :=
  es.any (fun e => deType e == 3 && decide (3 ≤ (badLanes es (deProw e) (deGroup e)).length))

/-- R39: what no spare is left for. -/
def unrepairable (es : List Nat) : Bool := twoBadTiles es || threeBadLanes es

/-- R36: a finding is in the map. -/
def recorded (es : List Nat) (x : Finding) : Bool := es.any (fun e => entryFinding e == some x)

/-- R29: a new column that would leave its tile below the grade minimum records the tile instead. -/
def refine (f : Flash) (x : Finding) : Finding :=
  match x with
  | .column r c _ => if 128 - ((badCols (defects f) (physField r c) r (c % 17)).length + 1) < gradeMin f then .tile r c else x
  | _ => x

/-- R29, R36, R38: one finding beside the entries of the field record so far: nothing where the map has it, and nothing where the record
holds 1,024 entries, which the Bool says. -/
def addFinding (f : Flash) (origin day : Nat) (x : List DWord × Bool) (a : Finding) : List DWord × Bool :=
  let g := f.putField x.1
  let b := refine g a
  if recorded (defects g) a || recorded (defects g) b then x
  else if 1024 ≤ x.1.length then (x.1, true)
  else (x.1 ++ [BitVec.ofNat 64 (entryOf origin day b)], x.2)

/-- R30, R36, R38: findings are added in one write of the field record; the Bool says that one could not be recorded. -/
def addDefects (f : Flash) (origin day : Nat) (found : List Finding) : Flash × Bool :=
  let r := found.foldl (addFinding f origin day) (f.field, false)
  (if r.1.length = f.field.length then f else f.putField r.1, r.2)

/-- R23: the lane that carries logical bit i of a group whose bad lanes are bad0 < bad1, 63 for none. -/
def laneOf (i bad0 bad1 : Nat) : Nat :=
  let p := if bad0 ≠ 63 ∧ bad0 ≤ i then i + 1 else i
  if bad1 ≠ 63 ∧ bad1 ≤ p then p + 1 else p

/-- R23: the bad lanes of a group, ascending. -/
def lanePair (l : List Nat) : Nat × Nat :=
  match l with
  | [] => (63, 63)
  | [a] => (a, 63)
  | a :: b :: _ => (min a b, max a b)

/-- R23: the lane maps that the defect map gives, by 4,096 × SEAM + GROUP. -/
def laneMaps (es : List Nat) : SMap (Nat × Nat) :=
  (es.filter (fun e => deType e == 3)).foldl (fun m e =>
    smSet (63, 63) m (4096 * deProw e + deGroup e) (lanePair (badLanes es (deProw e) (deGroup e)))) []

/-- R16, R25, R40: the placement of a tile under the effective defect map. -/
def placePhys (es : List Nat) (t : Nat) (x : Tile) : Tile :=
  let f := tileField t
  let j := t % 64 % 16
  let l := localCol es f (t / 64) j
  { x with
    width := 128 - (badCols es f (t / 64) l).length
    bypass := badCols es f (t / 64) l
    shifted := decide (l ≠ j)
    pcol := 17 * (t % 64 / 16) + l
    physOk := true }

/-- The current time in ns since 1970, where it is known. -/
def utcNow (s : State) : Option Nat := s.kiln.utc.map (fun u => u + (s.clock - s.kiln.utcAt) * 5 / 8)

/-- DAY of an entry written now: days since 2024-01-01; 0 where the time is not known. -/
def dayNow (s : State) : Nat :=
  match utcNow s with
  | some u => u / 86400000000000 - 19723
  | none => 0

/-- R37: the defect map applied: the lane maps, and the placement of tiles. -/
def applyMap (s : State) (ts : List Nat) : State :=
  updTiles { s with boot := { s.boot with lanes := laneMaps (defects s.flash) } } ts (placePhys (defects s.flash))

/-- R34, R36, R38, R39: findings written into the field record, with the origin; an unrepairable defect stays known. -/
def recordFindings (s : State) (origin : Nat) (found : List Finding) : State :=
  let r := addDefects s.flash origin (dayNow s) found
  { s with
    flash := r.1
    boot := { s.boot with unrep := s.boot.unrep || r.2 || unrepairable (defects r.1) } }

/-- R36: the recurrences found in a step are written in one write, with ORIGIN 3. -/
def writeDefects (s : State) : State :=
  if s.kiln.newDefects.isEmpty then s
  else
    let t := recordFindings s 3 s.kiln.newDefects
    { t with kiln := { t.kiln with newDefects := [] } }

end Sys2Proof.Machine
end

