-- ==== Sys2Proof/Machine/StepOps.lean ====
section
/-! DEFINITION. Steps, images and tile resets as Kiln carries them out (spec/15_kiln_firmware.md R400, R401, spec/11_surviving_failures.md
R297, spec/16_bringup_and_reset.md R429, spec/18_command_catalogue.md R459). -/

namespace Sys2Proof.Machine

/-- R178: the distance D of a gang of a size code. -/
def gangD (gang : Nat) : Nat := [64, 96, 128, 192].getD gang 0

/-- R178: the head tile of the gang that a tile lies in. -/
def gangHead (gang t : Nat) : Nat :=
  let r := t / 64
  let c := t % 64
  match gang with
  | 0 => 64 * (r / 16 * 16 + 7) + (c / 16 * 16 + 7)
  | 1 => 64 * (r / 16 * 16 + 7) + (c / 32 * 32 + 15)
  | 2 => 64 * 15 + (c / 32 * 32 + 15)
  | _ => 64 * 15 + 31

/-- The fields of MESH_CFG that the partition configuration gives a tile (R184, R429). -/
def placeTile (s : State) (t : Nat) (x : Tile) : Tile :=
  match partOfTile s t with
  | none => x
  | some p =>
    let q := partOf s p
    { x with
      meshMode := q.mode
      part := p
      head := q.mode == 1 && gangHead q.gang t == t
      gdly := if q.mode = 1 then gangD q.gang else 0 }

/-- R429: a tile reset: every register, window, tag, accumulator and weight at its reset value; the stores and the scratchpad
keep their contents, and so do the fields that describe them. -/
def resetTile (s : State) (t : Nat) : State :=
  let x := tileOf s t
  let own := match partOfTile s t with
    | some p =>
      (match (partOf s p).cur with
       | some c => (match (ctxOf s c).image with | some i => i.owners | none => tileInit.own)
       | none => tileInit.own)
    | none => tileInit.own
  setTile s t (placeTile s t { tileInit with
    width := x.width
    shifted := x.shifted
    pcol := x.pcol
    bypass := x.bypass
    physOk := x.physOk
    rper := x.rper
    store := x.store
    routes := x.routes
    spad := x.spad
    badPar := x.badPar
    own := own
    oscOn := x.oscOn
    droopLow := x.droopLow
    arr := { tileInit.arr with wclass := x.arr.wclass } })

/-- R429: a compute reset of a tile: a tile reset, and every store and scratchpad word is zero with fresh parity. -/
def zeroTile (s : State) (t : Nat) : State :=
  updTile (resetTile s t) t (fun x => { x with
    store := []
    routes := []
    spad := []
    badPar := []
    rper := 0
    own := tileInit.own
    arr := { x.arr with wclass := 0 } })

/-- The occupied tiles of an image. -/
def imageTiles (i : Image) : List Nat := i.tiles.map (·.tile)

/-- R299, R303, R428: TILE_CTRL.ABORT in every tile of a partition. -/
def abortPart (s : State) (p : Nat) : State := updTiles s (partTiles (partOf s p)) (fun _ x => tileAbort x)

/-- R401: closing every window of a partition (R152). -/
def closeWindows (s : State) (p : Nat) : State := updTiles s (partTiles (partOf s p)) (fun _ x => { x with wins := [] })

/-- R182: the cluster window of every member opens from the image's descriptor. -/
def openCluster (s : State) (p : Nat) (i : Image) : State :=
  match i.cwin with
  | some w => updTiles s (partTiles (partOf s p)) (fun _ t => { t with
      wins := smSet window0 t.wins 15 { decWindow w.toNat with isOpen := true } })
  | none => s

/-- R132, R139, R175, R182, R401: loading an image's stores, route stores, edge slot tables, bank ownership and cluster window into a
partition. -/
def loadStores (s : State) (p : Nat) (i : Image) : State :=
  let q := partOf s p
  let s1 := i.tiles.foldl (fun x (g : TileImg) => updTile x g.tile (fun t => { t with
    store := g.store.foldl (fun m e => smSet pentry0 m e.1 ⟨e.2.1, e.2.2⟩) []
    routes := g.routes.foldl (fun m e => smSet 0 m e.1 e.2) []
    rper := i.rper })) s
  let s2 := updTiles s1 (partTiles q) (fun _ t => { t with own := i.owners, arr := { t.arr with wclass := i.widthClass } })
  let mine := fun (e : Nat) => partOfTile s (tileOfEdge e) == some p
  let old := s.ring.tables.filter (fun x => !mine (x.1 / 4 / 512))
  let s3 := { s2 with ring := { s2.ring with
    tables := i.edges.foldl (fun m e => smSet 0 m ((512 * e.1 + e.2.1) * 4 + e.2.2.1) (e.2.2.2 + 1)) old } }
  let s4 := openCluster s3 p i
  setPart s4 p { partOf s4 p with loaded := some i.digest }

/-- R297: the step record of a context's step. -/
def stepRecord (s : State) (c : Nat) (r : StepRun) : List Byte :=
  let x := ctxOf s c
  let rank := match x.cord with
    | some k => (cordOf s.fab k).myrank
    | none => 0
  let dig := (List.range 8).any (fun i => (emberOf s i).valid && (emberOf s i).part == x.part && (emberOf s i).digEn
    && decide ((emberOf s i).every ≠ 0) && r.step.toNat % (emberOf s i).every == 0)
  leBytes 64 (r.step.toNat * 2 ^ 480 + r.mb.toNat * 2 ^ 464 + r.sect * 2 ^ 460 + r.attempt * 2 ^ 458 + b2n r.excused * 2 ^ 457
    + b2n r.mcopy * 2 ^ 456 + (1 - x.mbuf) * 2 ^ 455 + b2n dig * 2 ^ 454 + rank * 2 ^ 439 + r.ncontrib % 2 ^ 16 * 2 ^ 423
    + r.peer * 2 ^ 408 + r.mage * 2 ^ 392)

/-- A bundle that holds DONE and nothing else (R109, R199). -/
def doneBundle : BitVec 128 := BitVec.ofNat 128 (13 * 2 ^ 122)

/-- R199: starting one tile: its beat −1 tokens go to its partners. -/
def startTile (s : State) (t : Nat) : State :=
  if (tileOf s t).st ≠ .idle then s
  else
    (partnerDirs s t).foldl (fun x d =>
      match partnerOf s t d with
      | some u => updTile x u (fun y => { y with
          tokWire := smSet [] y.tokWire (dirNum (dirOpp d)) (smGet [] y.tokWire (dirNum (dirOpp d)) ++ [⟨0, false⟩]) })
      | none => x) (updTile s t tileStart)

/-- R335: completed windows that await the partner's record. -/
def lsLag (x : LsState) : Nat := (x.log.filter (fun e => !e.met)).length

/-- R332, R333: comparison windows count from the start of a section. -/
def freshWindows (s : State) (p : Nat) (r : StepRun) : State :=
  if s.kiln.ls.enable && s.kiln.ls.part == p then
    { s with kiln := { s.kiln with ls := { s.kiln.ls with sec := some (r.step, r.sect, r.attempt), sums := [], next := 0 } } }
  else s

/-- R199, R297: starting a section on every tile of a partition: entries, TILE_STEP, TILE_MB and seed, the step record, START. A
tile that the image does not occupy gets an entry whose bundle holds DONE. -/
def startSection (s : State) (c : Nat) (r : StepRun) : State :=
  let x := ctxOf s c
  match x.image with
  | none => s
  | some i =>
    let ts := partTiles (partOf s x.part)
    let rec_ := stepRecord s c r
    let s1 := ts.foldl (fun y t =>
      match i.tiles.find? (fun g => g.tile == t) with
      | some g => updTile y t (fun u => { spadWrite u i.steprec rec_ with
          entry := nth0 g.entries r.sect, step := r.step, mb := r.mb, seed := r.seed })
      | none => updTile y t (fun u => { u with
          entry := 0, step := r.step, mb := r.mb, seed := r.seed
          store := smSet pentry0 u.store 0 ⟨false, doneBundle⟩ })) (freshWindows s x.part r)
    let s2 := ts.foldl startTile s1
    let s3 := updCtx s2 c (fun y => { y with st := .running, run := some { r with phase := .run, done := [] } })
    trace s3 0x01 c x.part r.step.toNat (r.sect * 2 ^ 348 + r.attempt * 2 ^ 346)

/-- R320: clearing the Ember and digest counts at the start of an attempt of section B. -/
def clearCounts (s : State) (c : Nat) : State :=
  let p := (ctxOf s c).part
  (List.range 8).foldl (fun x i =>
    let e := emberOf x i
    if e.valid && e.part == p then setEmber x i { e with count := 0, acc := 0, dcount := 0, bad := false } else x) s

/-- A sum of a 32-bit counter over tiles, holding at its largest value (R459). -/
def sumTiles (s : State) (ts : List Nat) (f : Tile → Nat) : Nat :=
  min (2 ^ 32 - 1) (ts.foldl (fun n t => n + f (tileOf s t)) 0)

/-- R459: bits [511:64] of the completion of a step. -/
def stepBody (s : State) (c : Nat) (r : StepRun) : Nat :=
  let x := ctxOf s c
  let ts := match x.image with
    | some i => imageTiles i
    | none => []
  let red := s.fab.red
  let add := fun (n : Nat) (m : SMap Word) => min (2 ^ 32 - 1) (n + (smGet 0 m x.part).toNat)
  let conf := sumTiles s ts (fun t => t.conflict.toNat)
  let foreign := min 0xFFFF (sumTiles s ts (fun t => t.foreign.toNat))
  let dig := match (List.range 8).find? (fun i => (emberOf s i).valid && (emberOf s i).part == x.part && (emberOf s i).digEn
      && decide ((emberOf s i).every ≠ 0) && r.step.toNat % (emberOf s i).every == 0) with
    | some i => (emberOf s i).acc.toNat
    | none => 0
  let cyc := ts.foldl (fun n t => max n ((tileOf s t).doneAt.getD 0)) 0
  r.step.toNat * 2 ^ 416 + r.mb.toNat * 2 ^ 400 + r.attA * 2 ^ 398 + r.attB * 2 ^ 396 + b2n (decide (0 < conf)) * 2 ^ 395
    + b2n r.capAct * 2 ^ 394 + b2n r.thrAct * 2 ^ 393 + b2n r.thmAct * 2 ^ 392 + b2n r.excused * 2 ^ 391
    + add (sumTiles s ts (fun t => t.numSat.toNat)) red.sat * 2 ^ 352
    + add (sumTiles s ts (fun t => t.numFlush.toNat)) red.flush * 2 ^ 320
    + add (sumTiles s ts (fun t => t.numNan.toNat)) red.nan * 2 ^ 288
    + sumTiles s ts (fun t => t.slackMiss.toNat) * 2 ^ 256 + conf * 2 ^ 224 + foreign * 2 ^ 208 + min r.refused 0xFFFF * 2 ^ 192
    + r.energy * 2 ^ 128 + dig * 2 ^ 64 + cyc * 2 ^ 32 + r.ncontrib % 2 ^ 16 * 2 ^ 16

/-- R67, R159, R233, R285, R355: what Kiln clears and applies at a step boundary of a partition. -/
def stepBoundary (s : State) (p : Nat) : State :=
  let s1 := updTiles s (partTiles (partOf s p)) (fun _ t => { t with
    numSat := 0, numFlush := 0, numNan := 0, conflict := 0, foreign := 0, slackMiss := 0 })
  let y := policyOf s1.pwr p
  let s2 := { s1 with fab := { s1.fab with red := redClear s1.fab.red p } }
  match y.pending with
  | some (f, k) => updPwr s2 (fun w => setPolicy w p { y with fixed := f, step := k, target := k, pending := none })
  | none => s2

/-- The state of a context after a step, by what waits for it (R399, R402). -/
def restState (x : Ctx) : CtxSt :=
  if x.pauseReq then .paused else if x.queue.isEmpty then .idle else .ready

/-- R356, R357: the energy of a step, from its partition's energy. -/
def stepEnergy (s : State) (p : Nat) (r : StepRun) : Nat := ((policyOf s.pwr p).energy + 2 ^ 64 - r.energy0) % 2 ^ 64

/-- R277: writing a cord entry. The barrier channels of a cord that was not set up, or is no more, hold nothing. -/
def writeCord (s : State) (k : Nat) (e : CordEntry) : State :=
  let keep := (cordOf s.fab k).valid && e.valid
  let f := { s.fab with cords := smSet cord0 s.fab.cords k (if e.valid then e else cord0) }
  trace { s with fab := if keep then f else (List.range 4).foldl (fun x ch => setBar x k ch bar0) f } 0x0B 0 0 0 (k * 2 ^ 340)

/-- R277, R301: a context that uses a cord, by its job or from the cord's partition, runs a step; a paused one stands at a step boundary. -/
def cordBusy (s : State) (k : Nat) : Bool :=
  (liveCtxs s).any (fun c =>
    let x := ctxOf s c
    x.run.isSome && x.st != .paused && (x.cord == some k || ((cordOf s.fab k).valid && (cordOf s.fab k).part == x.part)))

/-- R277: the cord entries that waited for a step boundary of every context that uses them. -/
def applyCords (s : State) : State :=
  s.kiln.cordWait.foldl (fun x w =>
    if cordBusy x w.1 then x
    else writeCord { x with kiln := { x.kiln with cordWait := x.kiln.cordWait.erase w } } w.1 w.2) s

/-- Tearing a context down: its number becomes free (R391, R457). -/
def dropCtx (s : State) (c : Nat) : State :=
  let p := (ctxOf s c).part
  let s1 := setCtx s c ctx0
  applyCords (if (partOf s1 p).cur = some c then setPart s1 p { partOf s1 p with cur := none } else s1)

/-- R36, R385, R402, R459: the completion of a context's step with a status, the step boundary after it, and the one write of the
entries that it found. pause says that the context
is paused. -/
def finishStep (s : State) (c status : Nat) (pause : Bool) : State :=
  let x := ctxOf s c
  match x.run with
  | none => s
  | some r0 =>
    let r := { r0 with energy := stepEnergy s x.part r0 }
    let s1 := complete s c r.tag 0x0101 status (stepBody s c r)
    let s2 := trace s1 0x03 c x.part r.step.toNat (status * 2 ^ 344 + r.energy * 2 ^ 256)
    let s3 := stepBoundary s2 x.part
    if x.dropReq then writeDefects (dropCtx s3 c)
    else
      writeDefects (applyCords (updCtx s3 c (fun y => { y with
        run := none
        pauseReq := false
        ran := y.ran + (s.clock - r.startAt)
        st := if pause then .paused else restState y })))

/-- A step that ends without a replay: the tiles stand still, and the completion carries the status (R112, R131, R148, R218). -/
def failStep (s : State) (c status : Nat) (pause : Bool) : State :=
  if (ctxOf s c).run.isNone then s else finishStep (abortPart s (ctxOf s c).part) c status pause

/-- The context whose step runs on a tile's partition. -/
def tileCtx (s : State) (t : Nat) : Option Nat :=
  match partOfTile s t with
  | some p => runningCtx s p
  | none => none

/-- Counting a window refusal in the step of a tile's partition (R155, R218). -/
def countRefused (s : State) (t : Nat) : State :=
  match tileCtx s t with
  | some c => updCtx s c (fun x => { x with run := x.run.map (fun r => { r with refused := r.refused + 1 }) })
  | none => s

/-- Ending the step of a tile's partition with a status (R218). -/
def failTileStep (s : State) (t status : Nat) : State :=
  match tileCtx s t with
  | some c => failStep s c status false
  | none => s

end Sys2Proof.Machine
end

