-- ==== Sys2Proof/Machine/KilnOps.lean ====
section
/-! DEFINITION. Causes that end or replay a step, as Kiln notes them before it acts (spec/11_surviving_failures.md R294, R302, R305,
spec/18_command_catalogue.md R460), and the partitions that refuse traffic while they are reset (R274, R303, R428). -/

namespace Sys2Proof.Machine

/-- STATUS codes of a Kiln barrier record (R298). -/
def krOk : Nat := 0
/-- REPLAY. -/
def krReplay : Nat := 1
/-- FAILED. -/
def krFailed : Nat := 2
/-- FAULT. -/
def krFault : Nat := 3

/-- The image of a context may be replayed (R296). -/
def isReplayable (x : Ctx) : Bool :=
  match x.image with
  | some i => i.replayable
  | none => false

/-- Changing the step that a context runs. -/
def updRun (s : State) (c : Nat) (f : StepRun → StepRun) : State := updCtx s c (fun x => { x with run := x.run.map f })

/-- R302: a cause with its status, in the given attempt: a third replay cause is REPLAY_LIMIT. -/
def limitCause (attempt status cause : Nat) : Nat × Nat :=
  if status = krReplay ∧ attempt = 2 then (krFailed, 0x13) else (status, cause)

/-- R427: the tiles in the scope of a reset: a tile, a cluster, a partition, or every tile of every powered partition. -/
def resetScope (s : State) (level target : Nat) : List Nat :=
  match level with
  | 1 => [target]
  | 2 => (List.range 2048).filter (fun t => tileCluster t == target)
  | 3 => partTiles (partOf s target)
  | _ => (List.range 2048).filter (tilePowered s)

/-- R428 step 1, R432: a reset is ordered: ABORT in every tile in scope, and the scope refuses inbound traffic until it is applied. port 2
stands for Kiln itself, 3 for Kiln on a module expelled from its job (R314). -/
def openReset (s : State) (level target : Nat) (selftest : Bool) (port : Nat) : State :=
  let ts := resetScope s level target
  let s1 := updTiles s ts (fun _ x => tileAbort x)
  { s1 with
    kiln := { s1.kiln with resets := s1.kiln.resets ++ [⟨level, target, selftest, port, ts⟩] }
    boot := { s1.boot with
      rLevel := level
      rSelf := if 4 ≤ level then selftest else s1.boot.rSelf
      rActive := true
      rStatus := 0 } }

/-- R315: the job falls back to its last snapshot. -/
def rollBack (s : State) (c status : Nat) : State :=
  match (ctxOf s c).run with
  | none => s
  | some r => finishStep (postCtx s c 0x0C [c, r.step.toNat, status]) c status true

/-- R37, R311, R314, R315: a module failure in a single-module job: no member is left to repair it, so the job falls back to its last
snapshot, and the module orders the compute reset with self-test of a lost module (DEDUCED). -/
def soleFailed (s : State) (c cause : Nat) : State :=
  openReset (rollBack (abortPart s (ctxOf s c).part) c (0x80 + cause)) 4 0 true 2

/-- A cause that no attempt can take now waits for the next section that starts; the gravest one stays. -/
def noteLate (s : State) (c status cause : Nat) : State :=
  updCtx s c (fun x => { x with late := if x.late.1 < status then (status, cause) else x.late })

/-- R294, R302, R460: a cause arises in a context's step. A multi-module context keeps the gravest cause for its arrival; an OK
arrival that still waits for its packets is taken back; between attempts a graver cause than a replay waits. A single-module step
is replayed where its image allows it (DEDUCED), else it completes with status 0x80 + CAUSE. -/
def noteCause (s : State) (c status cause : Nat) : State :=
  let x := ctxOf s c
  match x.run with
  | none => if status = krReplay then s else noteLate s c status cause
  | some r =>
    let k := limitCause r.attempt status cause
    match x.cord with
    | some n =>
      (match r.phase with
       | .run => if r.status < k.1 then updRun s c (fun y => { y with status := k.1, cause := k.2 }) else s
       | .arrived _ =>
         if r.status = 0 ∧ (barOf s.fab n 3).phase = 0 then
           updRun (updFab s (fun f => setBar f n 3 { barOf f n 3 with mine := none, waits := [] })) c (fun y => { y with
             phase := .run, status := k.1, cause := k.2 })
         else noteLate s c status cause
       | .halting => noteLate s c status cause
       | _ => if status = krReplay then s else noteLate s c status cause)
    | none =>
      if k.1 = krReplay ∧ isReplayable x then
        (if r.phase = .run then
          updRun (abortPart s x.part) c (fun y => { y with attempt := y.attempt + 1, cause := k.2, phase := .quiesce })
        else s)
      else if k.1 = krFailed then soleFailed s c k.2
      else failStep s c (0x80 + (if k.1 = krReplay then 0x13 else k.2)) false

/-- A section starts, and a cause that waited for it arises in it. -/
def beginSection (s : State) (c : Nat) (r : StepRun) : State :=
  let s1 := startSection s c r
  let l := (ctxOf s1 c).late
  if l.1 = 0 then s1 else noteCause (updCtx s1 c (fun x => { x with late := (0, 0) })) c l.1 l.2

/-- A cause in the step of a tile's partition. -/
def noteTile (s : State) (t status cause : Nat) : State :=
  match tileCtx s t with
  | some c => noteCause s c status cause
  | none => s

/-- A cause in the step of a partition. -/
def notePart (s : State) (p status cause : Nat) : State :=
  match runningCtx s p with
  | some c => noteCause s c status cause
  | none => s

/-- The step of a context is abandoned and not yet restarted (R303 steps 2 to 6). -/
def isQuiescing (x : Ctx) : Bool :=
  match x.run with
  | some r => r.phase == .quiesce || r.phase == .quiet || r.phase == .held
  | none => false

/-- R274, R303, R428: packets for a partition are refused with RESETTING. -/
def partResetting (s : State) (p : Nat) : Bool :=
  s.kiln.resets.any (fun j => decide (4 ≤ j.level) || (j.level == 3 && j.target == p))
    || (partCtxs s p).any (fun c => isQuiescing (ctxOf s c))

/-- The edge slot tables name a tile (R175). -/
def edgeNames (s : State) (t : Nat) : Bool := s.ring.tables.any (fun e => e.2 == t + 1)

/-- Why a write or delivery for a tile is refused before it reaches the tile (R175, R183, R274). -/
def targetRefusal (s : State) (t : Nat) : Option Nat :=
  match partOfTile s t with
  | none => some 0x21
  | some p =>
    if partResetting s p then some 0x22
    else if !(partOf s p).powered then some 0x21
    else if !edgeNames s t then some 0x23
    else none

/-- R308: an Ember buffer becomes invalid: Kiln posts EMBER_INVALID to the owner of the stream's partition. -/
def emberInvalid (s : State) (i buf : Nat) : State :=
  let e := emberOf s i
  let f := { e with bad := e.bad || b2n e.wbuf == buf }
  let s1 := setEmber s i (if buf = 0 then { f with valid0 := false } else { f with valid1 := false })
  postEvent s1 [(partOf s1 e.part).port] 0x08 none [i, buf]

end Sys2Proof.Machine
end

