-- ==== Sys2Proof/Machine/FabricOps.lean ====
section
/-! DEFINITION. The fabric side of the ring as operations on the state: packets sent and answered, the end of mover transfers, window
writes from the ring, GATHER copies, reductions, Ember taps and digests (spec/10_fabric_and_cords.md R269 to R285,
spec/08_memory_tiers.md R218, spec/11_surviving_failures.md R303, R307, R316). -/

namespace Sys2Proof.Machine

/-- OP of a mover descriptor (R215). -/
def dOp (d : MDesc) : Nat := bits d.w.toNat 121 3
/-- NWORDS + 1. -/
def dWords (d : MDesc) : Nat := bits d.w.toNat 115 6 + 1
/-- VA. -/
def dVa (d : MDesc) : Nat := bits d.w.toNat 73 42
/-- TDST. -/
def dTdst (d : MDesc) : Nat := bits d.w.toNat 72 1
/-- The slot of the descriptor's address. -/
def dSlot (d : MDesc) : Nat := d.addr / 4096 % 1024
/-- COP of a CORD descriptor (R278). -/
def dCop (d : MDesc) : Nat := bits d.w.toNat 112 3
/-- CORD. -/
def dCord (d : MDesc) : Nat := bits d.w.toNat 100 12
/-- RANK. -/
def dRank (d : MDesc) : Nat := bits d.w.toNat 85 15
/-- WIN of a CORD descriptor. -/
def dCwin (d : MDesc) : Nat := bits d.w.toNat 81 4
/-- OFFSET of a CORD descriptor. -/
def dCofs (d : MDesc) : Nat := bits d.w.toNat 59 22
/-- TROW of a CORD descriptor. -/
def dCrow (d : MDesc) : Nat := bits d.w.toNat 54 5
/-- TCOL of a CORD descriptor. -/
def dCcol (d : MDesc) : Nat := bits d.w.toNat 48 6

/-- Changing the ring. -/
def updRing (s : State) (f : RingState → RingState) : State := { s with ring := f s.ring }

/-- A fresh number for a transfer; 0 names none. -/
def freshId (s : State) : Nat × State := (s.ring.nextId + 1, updRing s (fun r => { r with nextId := r.nextId + 1 }))

/-- Handing a packet to a VC of a link port. -/
def pushLink (s : State) (l vc : Nat) (p : Packet) : State := updLink s l (fun x => portEnqueue x vc p)

/-- R270: routing a packet from this module. -/
def routePacket (s : State) (p : Packet) : RouteRes :=
  route s.lk s.fab (packetDst p) (packetHash p) (packetEdge p) (packetDtr p)

/-- R267, R270: sending a control packet to another module. One that no link can carry is lost. -/
def sendCtl (s : State) (p : Packet) : State :=
  match routePacket s p with
  | .link l _ dtr => pushLink s l 0 (setDtr p dtr)
  | _ => s

/-- R229, R232: counting an operation that a mover completed after its bound. -/
def countLate (s : State) (m enter bound : Nat) : State :=
  if enter + bound < s.clock then setMover s m { moverOf s m with late := satAdd32 (moverOf s m).late 1 } else s

/-- R146, R218, R221: the issuing tile's side of the end of a transfer whose slot is not filled by a delivery. -/
def slotEnd (t : Tile) (op slot : Nat) (refused : Bool) : Tile :=
  match mreqDir op with
  | some true => if refused then refuseDelivery t slot else t
  | some false => finishPull t slot refused
  | none => { t with mreqOut := t.mreqOut - 1 }

/-- The statuses of R211. -/
def isTransStatus (st : Nat) : Bool := st == 0x30 || st == 0x31 || st == 0x32

/-- The statuses of a window refusal (R153). -/
def isWindowStatus (st : Nat) : Bool := st == 0x21 || st == 0x23 || st == 0x24

/-- What Kiln does about a refused transfer (R218, R257, R294): a translation failure, or WINDOW_DENIED for a tile's own delivery, ends the
step; a window refusal is counted; LINK_DOWN starts a replay. -/
def refusalEffect (s : State) (d : MDesc) (op st : Nat) : State :=
  if isTransStatus st then failTileStep s d.tile st
  else if st = 0x23 ∧ mreqDir op = some true then failTileStep s d.tile st
  else if isWindowStatus st then countRefused s d.tile
  else if st = 0x25 then noteTile s d.tile krReplay 0x04
  else s

/-- R218: the refusal of a mover's transfer: MOV_ERR and TMAP_FAULT, the slot, and Kiln's action. -/
def refuseXfer (s : State) (m op : Nat) (d : MDesc) (st : Nat) : State :=
  let s1 := setMover s m (movError (moverOf s m) st op d.tile)
  let s2 := if isTransStatus st then
      let page := failPage (seenMem s.mem) (dVa d) (if op = 5 then 1 else 64 * dWords d) (partOfTile s d.tile).toList (op == 1 || op == 5)
      { s1 with mem := tmapFault s1.mem page st m ((partOfTile s d.tile).getD 0) }
    else s1
  refusalEffect (updTile s2 d.tile (fun t => slotEnd t op (dSlot d) true)) d op st

/-- The end of a mover's transfer: refused with a status, or complete and perhaps late. -/
def moverDone (s : State) (m op : Nat) (d : MDesc) (st enter bound : Nat) : State :=
  if st ≠ 0 then refuseXfer s m op d st
  else
    let s1 := updTile s d.tile (fun t => slotEnd t op (dSlot d) false)
    if op = 6 then s1 else countLate s1 m enter bound

/-- The packets of a CORD transfer that have not completed (R269). -/
def xferOut (s : State) (id : Nat) : List OutPkt := s.fab.out.filter (fun o => o.xfer == id)

/-- R269: a CORD transfer ends once every packet of it has completed. -/
def xferCheck (s : State) (id : Nat) : State :=
  match s.ring.pulls.find? (fun x => x.id == id) with
  | none => s
  | some x =>
    if x.op ≠ 6 ∨ x.got.length < x.need ∨ ¬ (xferOut s id).isEmpty then s
    else
      let s1 := updRing s (fun r => { r with pulls := r.pulls.filter (fun y => y.id != id) })
      if x.gone then s1 else moverDone s1 x.mover x.op x.d x.status x.enter x.bound

/-- The header of a bulk packet. -/
def bulkHdr (p : Packet) : Option PktHdr :=
  match p with
  | .bulk _ h _ => some h
  | _ => none

/-- A completion answers a packet (R269). -/
def answersPkt (c : Compl) (o : OutPkt) : Bool :=
  match bulkHdr o.pkt with
  | some h => h.tag == c.tag && h.cord == c.cord && h.srank == c.srank && !o.again
  | none => false

/-- R269: the completion of a GATHER copy goes to the module that sent it, once it has landed and every forwarded copy has completed. -/
def gatherCheck (s : State) (g : GatherCopy) : State :=
  if g.landing ∨ g.left ≠ 0 then updFab s (fun f => { f with gathers := f.gathers ++ [g] })
  else sendCtl s (.compl [⟨g.up, s.fab.addr, 0, g.cord, g.srank, g.tag, g.status, false⟩])

/-- A step of a GATHER copy: it has landed, or a forwarded copy has completed, with a status. -/
def gatherStep (s : State) (cord srank tag st : Nat) (landed : Bool) : State :=
  match s.fab.gathers.find? (fun g => g.cord == cord && g.srank == srank && g.tag == tag) with
  | none => s
  | some g =>
    gatherCheck (updFab s (fun f => { f with gathers := f.gathers.erase g })) { g with
      landing := g.landing && !landed
      left := if landed then g.left else g.left - 1
      status := if g.status = 0 then st else g.status }

/-- R269: an own packet has completed, or is refused for good. -/
def packetDone (s : State) (o : OutPkt) (st : Nat) : State :=
  let s1 := updFab s (fun f => { f with out := f.out.erase o })
  let s2 := if st = 0 then s1 else
    updRing s1 (fun r => { r with pulls := r.pulls.map (fun x =>
      if x.id = o.xfer ∧ x.status = 0 then { x with status := st } else x) })
  xferCheck s2 o.xfer

/-- The transfer of a packet was cancelled (R303, R428). -/
def isGone (s : State) (id : Nat) : Bool := s.ring.pulls.any (fun x => x.id == id && x.gone)

/-- R269: a completion that reaches this module. RESETTING and RED_FULL leave the packet to be resent. -/
def takeCompl (s : State) (c : Compl) : State :=
  match s.fab.out.find? (answersPkt c) with
  | some o =>
    if (c.status = 0x22 ∨ c.status = 0x28) ∧ ¬ isGone s o.xfer then
      let since := match o.refused with
        | some r => r.1
        | none => s.clock
      updFab s (fun f => { f with out := f.out.map (fun x =>
        if x = o then { x with refused := some (since, c.status), again := true } else x) })
    else packetDone s o c.status
  | none => gatherStep s c.cord c.srank c.tag c.status false

/-- The completion with which a module answers a packet. -/
def complOf (own : BitVec 16) (h : PktHdr) (st : Nat) : Compl := ⟨h.src, own, if isGw h.src then h.edge else 0, h.cord, h.srank, h.tag, st, false⟩

/-- R269: answering a packet with a completion. -/
def answer (s : State) (h : PktHdr) (st : Nat) : State :=
  if h.src = s.fab.addr then takeCompl s (complOf s.fab.addr h st) else sendCtl s (.compl [complOf s.fab.addr h st])

/-- The words of an inbound write as they travel to a tile (R149, R160). -/
def writeWords (h : InHdr) (ws : List (List Byte)) : List MWord :=
  match ws with
  | [] => []
  | w :: rest => .first h w :: rest.map .later

/-- A transfer of words joins those that the ring holds ready (R175). -/
def ringAdd (s : State) (tile : Nat) (words : Nat → List MWord) (org : Origin) : State :=
  let f := freshId s
  updRing f.2 (fun r => { r with ready := r.ready ++ [⟨f.1, tile, words f.1, none, some org⟩] })

/-- A window write of source CORD (R153, R269). -/
def ringWrite (s : State) (h : PktHdr) (ws : List (List Byte)) (org : Origin) : State :=
  ringAdd s (64 * h.trow + h.tcol) (fun id => writeWords ⟨h.trow, h.tcol, h.win, h.offset, ws.length, .cord h.cord, id⟩ ws) org

/-- The next TAG of a mover or engine (R268): its number and a sequence number of 16 bits. -/
def nextTag (s : State) (m : Nat) : Nat × State :=
  let q := smGet 0 s.fab.seqs m
  (m * 2 ^ 16 + q, updFab s (fun f => { f with seqs := smSet 0 f.seqs m ((q + 1) % 2 ^ 16) }))

/-- Setting the TAG of a packet. -/
def setTagOf (p : Packet) (tag : Nat) : Packet :=
  match p with
  | .bulk c h w => .bulk c { h with tag := tag } w
  | q => q

/-- R283, R284: sending a partial to another module; it stays outstanding until it has completed. -/
def sendPartial (s : State) (k part : Nat) (p : Packet) : State :=
  let n := nextTag s k
  let q := setTagOf p n.1
  let o : OutPkt := ⟨q, 0, part, none, false⟩
  let s1 := updFab n.2 (fun f => { f with out := f.out ++ [o] })
  match routePacket s1 q with
  | .link l vc dtr => pushLink s1 l vc (setDtr q dtr)
  | _ => packetDone s1 o 0x27

/-- R284: writing a finished result to the owner's window. A result for a tile that takes no delivery is dropped. -/
def writeResult (s : State) (c : CordEntry) (o : RedSlot) (bs : List Byte) : State :=
  match targetRefusal s (64 * o.trow + o.tcol) with
  | some _ => s
  | none =>
    let ws := wordsOfBytes bs
    ringWrite s ⟨s.fab.addr, s.fab.addr, o.cord, c.myrank, o.owner, o.trow, o.tcol, o.win, o.offset, ws.length, false, 0, 0, 0, 0, 0⟩ ws
      (.result c.part)

/-- R282, R284: a slot that holds every term it waits for: the owner rounds and writes, an aggregator sends its partial; the slot
is freed. -/
def redFinish (s : State) (c : CordEntry) (h : PktHdr) : State :=
  let k := redEngine h.trow h.tcol h.offset
  match (redSlots s.fab.red k).find? (fun o => sameKey o h) with
  | none => s
  | some o =>
    if !slotDone c o then s
    else
      let s1 := updFab s (fun f => { f with red := freeSlot f.red o })
      match nextAggregator c o.owner with
      | none =>
        let r := redResult c o
        writeResult (updFab s1 (fun f => { f with red := redCount f.red c.part r.2 })) c o r.1
      | some (dest, phase) =>
        (partialPackets s1.fab s1.mem c o dest phase 0).foldl (fun x p => sendPartial x k c.part p) s1

/-- R269, R274, R280 to R284: a CONTRIB or PARTIAL at its engine. -/
def arriveRed (s : State) (cls : PClass) (h : PktHdr) (ws : List (List Byte)) : State :=
  let c := cordOf s.fab h.cord
  if !c.valid then answer s h 0x29
  else if partResetting s c.part then answer s h 0x22
  else if !(partOf s c.part).powered then answer s h 0x21
  else
    let r := redTake s.fab.red c cls h ws s.clock
    let s1 := updFab s (fun f => { f with red := r.1 })
    match r.2 with
    | .refused st => answer s1 h st
    | _ => redFinish (answer s1 h 0) c h

/-- R277: a WRITE or GATHER names a cord and rank of this module; a gateway's names no rank (R275). -/
def cordHere (s : State) (h : PktHdr) (cls : PClass) : Bool :=
  isGw h.src || ((cordOf s.fab h.cord).valid && (cls == .gather || (cordOf s.fab h.cord).myrank == h.drank))

/-- R269, R274, R277: a WRITE at its module. -/
def arriveWrite (s : State) (h : PktHdr) (ws : List (List Byte)) : State :=
  if !cordHere s h .write then answer s h 0x29
  else
    match targetRefusal s (64 * h.trow + h.tcol) with
    | some st => answer s h st
    | none => ringWrite s h ws (.packet .write h ws)

/-- R279: the phases in which a copy that arrived in a phase is forwarded. -/
def forwardPhases (phase : Nat) : List Nat :=
  match phase with
  | 3 => [2, 1]
  | 2 => [1]
  | _ => []

/-- R279: the copies of a GATHER for the phases of a list. -/
def gatherCopies (s : State) (c : CordEntry) (h : PktHdr) (ws : List (List Byte)) (phases : List Nat) : List Packet :=
  phases.flatMap (fun p => (phasePeers c p c.myrank).map (fun r =>
    .bulk .gather { h with dst := memberAddr s.mem c r, src := s.fab.addr, dtr := false, phase := p } ws))

/-- R279: forwarding one copy of a GATHER. -/
def forwardCopy (s : State) (h : PktHdr) (p : Packet) : State :=
  match routePacket s p with
  | .link l vc dtr => pushLink s l vc (setDtr p dtr)
  | _ => gatherStep s h.cord h.srank h.tag 0x27 false

/-- R269, R279: a GATHER copy at a member: it is forwarded, and lands in the target window. -/
def arriveGather (s : State) (h : PktHdr) (ws : List (List Byte)) : State :=
  let c := cordOf s.fab h.cord
  if !cordHere s h .gather then answer s h 0x29
  else
    let copies := gatherCopies s c h ws (forwardPhases h.phase)
    let s1 := updFab s (fun f => { f with gathers := f.gathers ++ [⟨h.src, h.cord, h.srank, h.tag, true, copies.length, 0⟩] })
    let s2 := copies.foldl (fun x p => forwardCopy x h p) s1
    match targetRefusal s2 (64 * h.trow + h.tcol) with
    | some st => gatherStep s2 h.cord h.srank h.tag st true
    | none => ringWrite s2 h ws (.packet .gather h ws)

/-- A bulk packet at its destination. -/
def arriveBulk (s : State) (cls : PClass) (h : PktHdr) (ws : List (List Byte)) : State :=
  match cls with
  | .write => arriveWrite s h ws
  | .gather => arriveGather s h ws
  | _ => arriveRed s cls h ws

/-- R270: injecting an own bulk packet. -/
def injectBulk (s : State) (p : Packet) : State :=
  match routePacket s p, p with
  | .link l vc dtr, _ => pushLink s l vc (setDtr p dtr)
  | .here, .bulk cls h ws => arriveBulk s cls h ws
  | .refuse st, .bulk _ h _ => takeCompl s (complOf s.fab.addr h st)
  | _, _ => s

/-- R270, R272: a bulk packet that arrives on a link: delivered, forwarded, or refused. -/
def receiveBulk (s : State) (cls : PClass) (h : PktHdr) (ws : List (List Byte)) : State :=
  match routePacket s (.bulk cls h ws) with
  | .link l vc dtr => pushLink s l vc (.bulk cls { h with dtr := dtr } ws)
  | .here => arriveBulk s cls h ws
  | .refuse st => answer s h st

/-- R307: the write buffer's first page. -/
def emberPage (e : EmberSt) : Nat := if e.wbuf then e.buf1 else e.buf0

/-- R307: the Ember tap of one stream on an accepted GATHER payload. -/
def tapStream (s : State) (i : Nat) (h : PktHdr) (ws : List (List Byte)) : State :=
  let e := emberOf s i
  if !((cordOf s.fab h.cord).ember && e.valid && e.cord == h.cord && e.ewin == h.win && e.brank == h.srank) then s
  else if e.wspan * 4096 < h.offset + 64 * ws.length then
    emberInvalid (setEmber s i { e with range := true }) i (b2n e.wbuf)
  else
    let va := emberPage e * 2 ^ 18 + (64 * h.trow + h.tcol) * (e.wspan * 4096) + h.offset
    match translateRange (seenMem s.mem) va (64 * ws.length) [e.part] true with
    | .bad _ => emberInvalid (setEmber s i { e with xlate := true }) i (b2n e.wbuf)
    | _ => setEmber { s with mem := seenWrite s.mem va ws.flatten } i { e with count := min (e.count + ws.length) 0xFFFFFFF }

/-- R307: the taps of the eight streams. -/
def emberTap (s : State) (h : PktHdr) (ws : List (List Byte)) : State := foldRange 8 (fun x i => tapStream x i h ws) s

/-- R316: what the words of a payload at a position add to DIG_ACC. -/
def digestSum (key : DWord) (pos : Nat) (bs : List Byte) : DWord :=
  foldRange (bs.length / 4) (fun acc i =>
    acc + rng key (BitVec.ofNat 32 (leNat ((bs.drop (4 * i)).take 4))) 0 0 (pos / 4 + i)) 0

/-- R316: the step of a partition is a digest step of a stream. -/
def digestStep (s : State) (e : EmberSt) : Bool :=
  match runningCtx s e.part with
  | some c =>
    (match (ctxOf s c).run with
     | some r => decide (e.every ≠ 0) && r.step.toNat % e.every == 0
     | none => false)
  | none => false

/-- R316: hashing an own GATHER payload. -/
def digestSend (s : State) (h : PktHdr) (ws : List (List Byte)) : State :=
  foldRange 8 (fun x i =>
    let e := emberOf x i
    if (cordOf s.fab h.cord).digest && e.valid && e.digEn && e.cord == h.cord && e.ewin == h.win && digestStep x e then
      setEmber x i { e with
        acc := e.acc + digestSum e.key ((64 * h.trow + h.tcol) * (e.wspan * 4096) + h.offset) ws.flatten
        dcount := min (e.dcount + ws.length) 0xFFFFFFF }
    else x) s

/-- The ring transfer of a number. -/
def findXfer (s : State) (id : Nat) : Option RingXfer := (s.ring.ready ++ s.ring.live).find? (fun x => x.id == id)

/-- R153, R175, R183: a window write of source MOVER joins the ring or is refused. -/
def moverWrite (s : State) (m op : Nat) (d : MDesc) (h : InHdr) (ws rest : List (List Byte)) (enter bound : Nat) : State :=
  match targetRefusal s (64 * h.trow + h.tcol) with
  | some st => refuseXfer s m op d st
  | none => ringAdd s (64 * h.trow + h.tcol) (fun id => writeWords { h with sender := id } ws) (.mwrite m op d rest enter bound)

/-- R182: the member tile and scratchpad address of a cluster address. -/
def resolveCa (cl ca : Nat) : Nat × Nat :=
  let m := bits ca 12 5
  (64 * (4 * (cl / 8) + m / 8) + (8 * (cl % 8) + m % 8), bits ca 17 10 * 4096 + bits ca 0 12)

/-- The cluster address of word i of a CGET or CPUT (R215). -/
def dCa (d : MDesc) (i : Nat) : Nat := (bits (dVa d) 0 27 + 64 * i) % 2 ^ 27

/-- The resolved member and address of word i of a CGET or CPUT. -/
def dMember (d : MDesc) (i : Nat) : Nat × Nat := resolveCa (tileCluster d.tile) (dCa d i)

/-- The byte offset of a scratchpad address in a tile's cluster window; one below the window's base wraps and fails the range test. -/
def cputOffset (s : State) (t addr : Nat) : Nat := (addr + 2 ^ 22 - 64 * (winOf (tileOf s t) 15).basew) % 2 ^ 22

/-- R182: of n words of a CPUT from word i on, those that lie in one member's slot. -/
def cputPart (d : MDesc) (i n : Nat) : Nat := min n (64 - dCa d i / 64 % 64)

/-- R182, R217: the header of the write of a CPUT's n words from word i on to their member's window 15. -/
def cputHdr (s : State) (d : MDesc) (i n : Nat) : InHdr :=
  let t := dMember d i
  ⟨t.1 / 64, t.1 % 64, 15, cputOffset s t.1 t.2, cputPart d i n, .mover, 0⟩

/-- R182, R217: the words of a CPUT from word i on: those that lie in one member's slot are written to its window 15, the rest follow. -/
def cputFrom (s : State) (m : Nat) (d : MDesc) (i : Nat) (ws : List (List Byte)) (enter bound : Nat) : State :=
  let n := cputPart d i ws.length
  moverWrite s m 4 d (cputHdr s d i ws.length) (ws.take n) (ws.drop n) enter bound

/-- R155, R269: who learns the end of a ring transfer. -/
def reportEnd (s : State) (org : Option Origin) (st : Nat) : State :=
  match org with
  | some (.mwrite m op d rest enter bound) =>
    if st = 0 ∧ ¬ rest.isEmpty then cputFrom s m d (dWords d - rest.length) rest enter bound
    else moverDone s m op d st enter bound
  | some (.packet .gather h ws) => gatherStep (if st = 0 then emberTap s h ws else s) h.cord h.srank h.tag st true
  | some (.packet _ h _) => answer s h st
  | _ => s

/-- The end of a ring transfer is reported once: at its refusal, or when its last word has landed. Words still on their way of a refused
write are drained. -/
def xferEnd (s : State) (id st : Nat) : State :=
  match findXfer s id with
  | none => s
  | some x =>
    reportEnd (updRing s (fun r => { r with
      ready := r.ready.map (fun y => if y.id = id then { y with org := none } else y)
      live := r.live.filter (fun y => y.id != id) })) x.org st

/-- A tile lies in a partition. -/
def inPart (s : State) (p t : Nat) : Bool := partOfTile s t == some p

/-- The tile whose MREQ a ring transfer serves. -/
def orgTile (o : Option Origin) : Option Nat :=
  match o with
  | some (.deliver _ _ d _ _) => some d.tile
  | some (.mwrite _ _ d _ _ _) => some d.tile
  | _ => none

/-- R303 step 2, R428: a ring transfer that a cancel for a set of tiles drops. -/
def isCancelled (mine : Nat → Bool) (x : RingXfer) : Bool :=
  mine x.tile || (match orgTile x.org with | some t => mine t | none => false)

/-- R303 step 2, R428: cancelling the transfers of a set of tiles, and the packets of partition p that wait to be resent. Packets already
accepted for the tiles are refused with RESETTING. -/
def cancelTiles (s : State) (mine : Nat → Bool) (p : Option Nat) : State :=
  let dead := (s.ring.ready ++ s.ring.live).filter (isCancelled mine)
  let own := fun (x : PullXfer) => mine x.d.tile
  let goneIds := (s.ring.pulls.filter own).map (·.id)
  let out := s.fab.out.filter (fun o => !(o.again && (some o.part == p || goneIds.contains o.xfer)))
  let s1 := { s with
    ring := { s.ring with
      movers := (s.ring.movers.map (fun m => (m.1, { m.2 with queue := m.2.queue.filter (fun q => !mine q.1.tile) }))).filter
        (fun m => decide (m.2 ≠ mover0))
      outQ := s.ring.outQ.filter (fun q => !mine (tileOfEdge q.1))
      ready := s.ring.ready.filter (fun x => !isCancelled mine x)
      live := s.ring.live.filter (fun x => !isCancelled mine x)
      pulls := (s.ring.pulls.map (fun x => if own x then { x with gone := true } else x)).filter (fun x =>
        !own x || out.any (fun o => o.xfer == x.id)) }
    fab := { s.fab with out := out }
    mem := { s.mem with migr := s.mem.migr.map (fun g =>
      match g.who with
      | .mover _ d _ => if mine d.tile then { g with who := .kiln } else g
      | _ => g) } }
  dead.foldl (fun x y =>
    match y.org with
    | some (.packet _ _ _) => reportEnd x y.org 0x22
    | _ => x) s1

/-- R303 step 2: cancelling the transfers of a partition. -/
def cancelPart (s : State) (p : Nat) : State := cancelTiles s (inPart s p) (some p)

/-- R183, R303 step 4: the delivery queues, inbound paths and edge-port queues of a partition are empty. -/
def queuesEmpty (s : State) (p : Nat) : Bool :=
  (partTiles (partOf s p)).all (fun t => (tileOf s t).dq.isEmpty && (tileOf s t).inw.isNone)
    && s.ring.ready.all (fun x => !inPart s p x.tile)
    && s.ring.outQ.all (fun q => q.2.isEmpty || !inPart s p (tileOfEdge q.1))

/-- R303 step 4: nothing of a partition's abandoned attempt is left on the module. -/
def partQuiet (s : State) (p : Nat) : Bool :=
  queuesEmpty s p && s.ring.pulls.all (fun x => !inPart s p x.d.tile) && s.ring.live.all (fun x => !isCancelled (inPart s p) x)
    && s.fab.out.all (fun o => o.part != p)

end Sys2Proof.Machine
end

