-- ==== Sys2Proof/Machine/LinkOps.lean ====
section
/-! DEFINITION. What the module does when a link changes its state (spec/09_optical_links.md R253 to R257, spec/10_fabric_and_cords.md R265,
R271, R289): line state notices, detours, admission, discarded buffers, records. -/

namespace Sys2Proof.Machine

/-- R271: a LINKSTATE notice to every line peer of a dimension that is reached directly. -/
def sendLine (s : State) (d : Nat) : State :=
  let mask := bundleMask s.lk s.fab d
  (List.range 31).foldl (fun x i =>
    if mask.testBit i then
      sendCtl x (.lineState (setCoord s.fab.addr d (coord s.fab.addr d ^^^ (i + 1))) s.fab.addr d mask false)
    else x) (updFab s (fun f => { f with mine := smSet 0 f.mine d mask }))

/-- R271: after a change of links, the dimensions whose bundles changed are announced. -/
def syncLines (s : State) : State :=
  (List.range 3).foldl (fun x d => if bundleMask x.lk x.fab d = smGet 0 x.fab.mine d then x else sendLine x d) s

/-- R257: the packets of a VC that wait whole on a port. -/
def wholePackets (q : List LFlit) : List Packet := q.filterMap (fun f => if f.idx = 0 then f.pkt else none)

/-- The flits of a packet already begun stay. -/
def begunFlits (v : LinkVc) : List LFlit :=
  match v.mid with
  | none => []
  | some m => (List.range (packetFlits m.1)).filterMap (fun j =>
      if m.2 < j then v.queue.find? (fun f => f.pkt == some m.1 && f.idx == j) else none)

/-- R257, R270: routing a packet again that no longer fits its link; a second hop of a detour may not detour again. -/
def reroutePacket (s : State) (vc : Nat) (p : Packet) : State :=
  if isBulk p then
    let q := setDtr p (vc == 2)
    match routePacket s q, bulkHdr q with
    | .link l v dtr, _ => pushLink s l v (setDtr q dtr)
    | .refuse st, some h => answer s h st
    | _, _ => s
  else
    match p with
    | .ident _ => s
    | .fence _ => s
    | _ => sendCtl s (setDtr p false)

/-- R257: a port that left UP takes no more flits; packets not yet begun go over detours. -/
def reroute (s : State) (l : Nat) : State :=
  let p := portOf s.lk l
  let strip := fun (v : LinkVc) => { v with queue := begunFlits v }
  let s1 := updLink s l (fun x => { x with ctl := strip x.ctl, bulkA := strip x.bulkA, bulkB := strip x.bulkB })
  let s2 := (wholePackets p.ctl.queue).foldl (fun x k => reroutePacket x 0 k) s1
  let s3 := (wholePackets p.bulkA.queue).foldl (fun x k => reroutePacket x 1 k) s2
  (wholePackets p.bulkB.queue).foldl (fun x k => reroutePacket x 2 k) s3

/-- A port in a state that keeps traffic waiting on it (R253). -/
def keepsTraffic (st : Nat) : Bool := st == lsUp || st == lsPaused

/-- R254, R422: the module's saved settings are valid, so that a training may use a link's: they were at this start, or were
written since. -/
def useSaved (s : State) : Bool := s.boot.savedOn || (s.boot.state == 2 && s.flash.saved.isSome)

/-- R254: a training that starts without valid saved settings is a full one. -/
def trainFully (p0 p : LinkPort) : LinkPort := if p.st = lsTraining ∧ p0.st ≠ lsTraining then { p with fullTrain := true } else p

/-- What follows a change of a port's state: the kind of training, the trace point, RETRAIN and FENCED records, and detours. -/
def afterLink (s0 s : State) (l : Nat) : State :=
  let p0 := portOf s0.lk l
  let p := portOf s.lk l
  let s1 := traceLink (if useSaved s then s else updLink s l (trainFully p0)) l p0.st
  let s2 := if p.total ≠ p0.total then logOnly s1 0x83 [l] else s1
  let s3 := if p.st = lsFenced ∧ p0.st ≠ lsFenced then logOnly s2 0x84 [l, p.fenceLeft] else s2
  if keepsTraffic p0.st && !keepsTraffic p.st then reroute s3 l else s3

/-- Changing one port with everything that follows. -/
def linkStep (s : State) (l : Nat) (f : LinkPort → LinkPort) : State := syncLines (afterLink s (updLink s l f) l)

/-- Changing the links with everything that follows for a list of ports. -/
def linksStep (s : State) (ls : List Nat) (f : LinkState → LinkState) : State :=
  syncLines (ls.foldl (fun x l => afterLink s x l) (updLinks s f))

/-- R257: discarding a port's retry buffer: every transfer with a discarded flit is aborted with LINK_DOWN at its sender. -/
def dropBuffer (s : State) (l : Nat) : State :=
  let ps := heldPackets (portOf s.lk l)
  ps.foldl (fun x k =>
    match bulkHdr k with
    | some h => answer x h 0x25
    | none => x) (updLink s l dropHeld)

/-- The IDENT record that this module sends on a link (R255). -/
def ownIdent (s : State) (l : Nat) : IdentRec :=
  let p := portOf s.lk l
  ⟨s.flash.unit, BitVec.ofNat 7 l, s.fab.addrOn, s.fab.addr, BitVec.ofNat 12 p.ctl.rxSeq, BitVec.ofNat 12 p.bulkA.rxSeq, BitVec.ofNat 12 p.bulkB.rxSeq,
    !p.retry.isEmpty⟩

/-- R265: the MISWIRED event: addresses in bits [15:0], link numbers in bits [22:16] of an argument. -/
def miswired (s : State) (l : Nat) (r : IdentRec) : State :=
  postAll s 0x03 [l, (expectedPeer s.fab l).toNat + mapPlink (mapOf s.fab l) * 2 ^ 16, r.faddr.toNat + r.link.toNat * 2 ^ 16]

/-- R265, R289: admission of a link to UP; fabric time may be stepped forward once more. -/
def admitLink (s : State) (l : Nat) : State :=
  let s1 := updFab s (fun f => { f with stepped := false })
  linkStep s1 l (fun p => { p with st := lsUp, cause := 0 })

/-- R331: the partner link of lock-step has shown the named partner: comparison starts. -/
def admitLockstep (s : State) (l : Nat) (w : LsWant) : State :=
  let s1 := { s with kiln := { s.kiln with ls := { s.kiln.ls with
    enable := true, want := none, part := w.part, link := w.link, logsz := w.logsz, port := w.port, key := w.key
    sec := none, sums := [], next := 0, log := [], theirs := [], sentRec := none } } }
  let s2 := updLink s1 l (fun p => { p with st := lsUp, cause := 0, lockstep := true })
  postEvent (traceLink s2 l lsIdent) [w.port] 0x18 none [0]

/-- R331: a record on the waiting partner link names the partner. -/
def lockstepWaits (s : State) (l : Nat) (r : IdentRec) : Option LsWant :=
  s.kiln.ls.want.filter (fun w => w.link == l && r.unit == w.partner)

/-- R255: a record shows the same peer as the last one. -/
def samePeer (p : LinkPort) (r : IdentRec) : Bool := p.known && p.peerUnit == r.unit && p.peerLink == r.link.toNat

/-- R254: the saved settings used belong to another peer. -/
def wrongSaved (p : LinkPort) (r : IdentRec) : Bool :=
  match p.savedSet with
  | some v => p.saved && !(v.unit == r.unit && v.link == r.link.toNat)
  | none => false

/-- R257: the held flits meet the peer's record: they go on from what it has received, or are discarded, and both ends count afresh. -/
def meetPeer (s : State) (l : Nat) (r : IdentRec) (same : Bool) : State :=
  let p := portOf s.lk l
  if same && canResume p r then updLink s l (fun x => resumeFrom x r s.clock)
  else if same && p.inStep && !p.leftUp then s
  else updLink (if p.leftUp then dropBuffer s l else s) l freshVcs

/-- R254: the settings of a link that a full training found are saved with the module's, once those are written. -/
def saveLink (s : State) (l : Nat) (v : LinkSaved) : State :=
  if s.boot.state = 2 ∧ s.flash.saved.isSome then
    { s with flash := s.flash.putSaved (s.flash.saved.map (fun r => { r with links := r.links.filter (fun e => e.1 != l) ++ [(l, v)] })) }
  else s

/-- R254: the settings, peer and round trip of a full training. -/
def learnSettings (s : State) (l : Nat) (r : IdentRec) : State :=
  let p := portOf s.lk l
  let v : LinkSaved := ⟨r.unit, r.link.toNat, p.rtt⟩
  if !p.fullTrain || p.savedSet == some v then s else saveLink (updLink s l (fun x => { x with savedSet := some v })) l v

/-- R255, R257, R264: what a record tells about the peer: discovery, the retry buffer, the settings to be saved. -/
def learnPeer (s : State) (l : Nat) (r : IdentRec) : State :=
  let same := samePeer (portOf s.lk l) r
  let s1 := learnSettings (meetPeer s l r same) l r
  let s2 := updLink s1 l (fun x => { x with known := true, peerUnit := r.unit, peerLink := r.link.toNat })
  if same then s2 else postAll s2 0x02 [l, r.unit.toNat, r.link.toNat]

/-- IDENT (R255, R264 to R266, R331): an IDENT record on a link in IDENT. -/
def takeIdent (s : State) (l : Nat) (r : IdentRec) : State :=
  if (portOf s.lk l).st ≠ lsIdent then s
  else if wrongSaved (portOf s.lk l) r then
    let s1 := postAll (dropBuffer s l) 0x02 [l, r.unit.toNat, r.link.toNat]
    linkStep (updLink s1 l (fun p => { p with savedSet := none, known := true, peerUnit := r.unit, peerLink := r.link.toNat })) l
      (fun p => retrain p s.clock)
  else
    let s1 := learnPeer s l r
    match lockstepWaits s1 l r with
    | some w => admitLockstep s1 l w
    | none =>
    if admitOk s1.fab l r then admitLink s1 l else miswired s1 l r

/-- R331: the link carries only lock-step records: every other packet received on it is consumed. -/
def onPartner (s : State) (l : Nat) : Bool := (portOf s.lk l).lockstep

/-- R272: a flit of a packet that passes through goes on to its output at once; the last one ends the cut. -/
def passFlit (s : State) (l : Nat) (c : CutPkt) (idx : Nat) : State :=
  let s1 := updLink s c.link (fun p => portFlit p c.vc c.out idx)
  if idx + 1 < packetFlits c.out then s1 else updLink s1 l (fun p => { p with cut := p.cut.erase c })

/-- A packet that has arrived whole waits to be taken. -/
def keepPkt (s : State) (l : Nat) (k : Packet) (idx : Nat) : State :=
  if idx + 1 = packetFlits k then updLink s l (fun p => { p with rxPkts := p.rxPkts ++ [k] }) else s

/-- R272: the crossbar takes a flit: the first flit of a bulk packet is routed; one for another module goes on before the later
flits arrive. -/
def crossFlit (s : State) (l : Nat) (f : LFlit) : State :=
  match f.pkt with
  | none => s
  | some k =>
    if !isBulk k then keepPkt s l k f.idx
    else if f.idx = 0 then
      match onPartner s l, routePacket s k with
      | false, .link m vc dtr =>
        let c : CutPkt := ⟨k, setDtr k dtr, m, vc⟩
        passFlit (updLink s l (fun p => { p with cut := p.cut ++ [c] })) l c 0
      | _, _ => keepPkt s l k 0
    else
      match (portOf s.lk l).cut.find? (fun c => c.pkt == k) with
      | some c => passFlit s l c f.idx
      | none => keepPkt s l k f.idx

/-- A packet of a kind that heads a link's received packets is taken from there. -/
def takeRx (s : State) (l : Nat) (k : Packet) : State :=
  match (portOf s.lk l).rxPkts with
  | h :: rest => if h = k then updLink s l (fun p => { p with rxPkts := rest }) else s
  | [] => s

end Sys2Proof.Machine
end

