-- ==== Sys2Proof/Machine/Barriers.lean ====
section
/-! DEFINITION. Barrier channels of cords as the ring counts them (spec/10_fabric_and_cords.md R286, R287) and Kiln's records on channel 3
(spec/11_surviving_failures.md R298, R301). -/

namespace Sys2Proof.Machine

/-- The record that a barrier of the tiles carries: none of its fields apply. -/
def krec0 : KRec := ⟨0, 0, 0, 0, 0, 0, 0, 0⟩

/-- A context's job cord (R298). -/
def isJobCord (s : State) (k : Nat) : Bool := (liveCtxs s).any (fun c => (ctxOf s c).cord == some k)

/-- A vote cord (R298, R317). -/
def isVoteCord (s : State) (k : Nat) : Bool := (List.range 8).any (fun i => (emberOf s i).digEn && (emberOf s i).vcord == k)

/-- R298: channel 3 of the cord belongs to Kiln. -/
def isKilnChannel (s : State) (k ch : Nat) : Bool := ch == 3 && (isJobCord s k || isVoteCord s k)

/-- The record that a held packet carries. -/
def gotRec (g : BarGot) : KRec := g.krec.getD krec0

/-- Changing a barrier channel. -/
def updBar (s : State) (cord ch : Nat) (f : BarState → BarState) : State :=
  updFab s (fun x => setBar x cord ch (f (barOf x cord ch)))

/-- The arrivals of a generation that are held from a phase (R286); phase 0 marks a flooded record. -/
def heldIn (b : BarState) (gen phase : Nat) : List BarGot := b.got.filter (fun g => g.gen == gen && g.phase == phase)

/-- R298: this module's record combined with the records of the phases below p. -/
def recordTo (b : BarState) (gen p : Nat) : KRec :=
  let own := b.mine.getD krec0
  ((b.got.filter (fun g => g.gen == gen && decide (1 ≤ g.phase) && decide (g.phase < p))).foldl
    (fun a g => combineRec a ((gotRec g).frank, gotRec g)) (own.frank, own)).2

/-- R286, R298: BARRIER packets of a phase to ranks of a cord. -/
def sendBarrier (s : State) (cord ch phase : Nat) (ranks : List Nat) (k : KRec) : State :=
  let c := cordOf s.fab cord
  ranks.foldl (fun x r =>
    sendCtl x (.barrier ⟨memberAddr x.mem c r, x.fab.addr, cord, c.myrank, r, 0, 0, 0, 0, 0, false, 0, phase, 0, 0, 0⟩ ch
      (cordGen c ch) k)) s

/-- R286: the module enters a phase: its packets go to the other members of the phase's group. -/
def barEnter (s : State) (cord ch phase : Nat) : State :=
  let c := cordOf s.fab cord
  let k := recordTo (barOf s.fab cord ch) (cordGen c ch) phase
  sendBarrier (updBar s cord ch (fun b => { b with phase := phase })) cord ch phase (phasePeers c phase c.myrank) k

/-- The arrivals of the module's whole group of a phase are held. -/
def phaseFull (c : CordEntry) (b : BarState) (ch : Nat) : Bool :=
  (phasePeers c b.phase c.myrank).all (fun r => (heldIn b (cordGen c ch) b.phase).any (fun g => g.srank == r))

/-- R286: phase 3 is complete: the count clears and GEN advances; the release follows. -/
def barComplete (s : State) (cord ch : Nat) : State :=
  let s1 := updBar s cord ch (fun b => { b with phase := 4, count := 0, waits := [] })
  updFab s1 (fun f => { f with cords := smSet cord0 f.cords cord (cordGenStep (cordOf f cord) ch) })

/-- R286: phases follow one another as their groups become complete. -/
def barAdvance (s : State) (cord ch : Nat) : Nat → State
  | 0 => s
  | n + 1 =>
    let b := barOf s.fab cord ch
    let c := cordOf s.fab cord
    if b.phase = 0 ∨ 4 ≤ b.phase then s
    else if !phaseFull c b ch then s
    else if b.phase = 3 then barComplete s cord ch
    else barAdvance (barEnter s cord ch (b.phase + 1)) cord ch n

/-- R286: the module has arrived. -/
def barArrived (s : State) (cord ch : Nat) : State := barAdvance (barEnter s cord ch 1) cord ch 4

/-- The TAG of an outstanding packet. -/
def outTag (o : OutPkt) : Nat :=
  match bulkHdr o.pkt with
  | some h => h.tag
  | none => 0

/-- The CORD of an outstanding packet. -/
def outCord (o : OutPkt) : Nat :=
  match bulkHdr o.pkt with
  | some h => h.cord
  | none => 0

/-- The packets that a partition's movers sent and that have not completed, by TAG, under one cord or every cord (R286, R299). -/
def moverTags (s : State) (part : Nat) (cord : Option Nat) : List Nat :=
  (s.fab.out.filter (fun o => o.part == part && o.xfer != 0 && (match cord with | some k => outCord o == k | none => true))).map outTag

/-- Every packet that the arrival waits for has completed. -/
def waitsOver (s : State) (b : BarState) : Bool := b.waits.all (fun t => s.fab.out.all (fun o => outTag o != t))

/-- R286, R299: the module may arrive: the tiles' count or Kiln's record is there, and the packets that it waits for have completed. -/
def mayArrive (s : State) (cord ch : Nat) : Bool :=
  let c := cordOf s.fab cord
  let b := barOf s.fab cord ch
  c.valid && b.phase == 0 && waitsOver s b && (if isKilnChannel s cord ch then b.mine.isSome else decide (c.btiles ≤ b.count))

/-- R286: after the release a channel starts again; packets of the next generation stay held. -/
def barReset (s : State) (cord ch : Nat) : State :=
  let g := cordGen (cordOf s.fab cord) ch
  updBar s cord ch (fun b => { bar0 with got := b.got.filter (fun x => x.gen == g) })

/-- R286: a BARRIER packet at a member: of this generation or, early, of the next. -/
def takeBarrier (s : State) (h : PktHdr) (ch gen : Nat) (k : KRec) : State :=
  let c := cordOf s.fab h.cord
  let now := cordGen c ch
  if !c.valid || !(gen == now || gen == (now + 1) % 256) then s
  else
    let g : BarGot := ⟨h.phase, h.srank, gen, if isKilnChannel s h.cord ch then some k else none⟩
    let s1 := updBar s h.cord ch (fun b => if b.got.contains g then b else { b with got := b.got ++ [g] })
    barAdvance s1 h.cord ch 4

/-- R298, R299, R301: Kiln writes a record for channel 3. One that is not OK arrives at once and is flooded to the three phase groups; an OK
one waits for the packets of every cord of the context. -/
def kilnArrive (s : State) (cord : Nat) (k : KRec) : State :=
  let c := cordOf s.fab cord
  let bad := k.status.val != 0
  let s1 := updBar s cord 3 (fun b => { b with mine := some k, waits := if bad then [] else moverTags s c.part none })
  if bad then
    barArrived ([1, 2, 3].foldl (fun x p => sendBarrier x cord 3 0 (phasePeers c p c.myrank) k) s1) cord 3
  else s1

/-- Kiln has no record in channel 3 of a cord. -/
def kilnFree (s : State) (cord : Nat) : Bool :=
  (cordOf s.fab cord).valid && (barOf s.fab cord 3).mine.isNone && (barOf s.fab cord 3).phase == 0

/-- BAR_ARRIVE (R170 to R172, R286): a tile's arrival reaches the ring, which adds its COUNT; a tile has at most one outstanding
arrival per channel. -/
def execBarArrive (t : Fin 2048) (cord : Fin 4096) (ch : Fin 4) (count : Fin 4096) (s : State) : Host.Outcome State Fault Refusal :=
  let c := cordOf s.fab cord.val
  .next (if !c.valid || partOfTile s t.val != some c.part || !(smGet [] (tileOf s t.val).barOut ch.val).isEmpty
      || isKilnChannel s cord.val ch.val then s
    else
      let m := ctlMsg .barArrive false t.val false (barPayload cord.val ch.val count.val)
      let s1 := updTile (crossCtl s t.val m) t.val (fun x => { x with barOut := smSet [] x.barOut ch.val [(cord.val, count.val)] })
      updBar s1 cord.val ch.val (fun b => { b with count := b.count + count.val, waits := moverTags s c.part (some cord.val) }))

/-- MODULE_ARRIVED (R286): the module has arrived, and its BARRIER packets go to its phase 1 group. -/
def execModuleArrived (cord : Fin 4096) (ch : Fin 4) (s : State) : Host.Outcome State Fault Refusal :=
  .next (if mayArrive s cord.val ch.val then barArrived s cord.val ch.val else s)

/-- BARRIER (R286): a BARRIER packet arrives on a link; one for another module goes on. -/
def execBarrier (l : Fin 96) (h : PktHdr) (ch : Fin 4) (gen : Fin 256) (krec : KRec) (s : State) : Host.Outcome State Fault Refusal :=
  let k : Packet := .barrier h ch.val gen.val krec
  let s1 := takeRx s l.val k
  .next (if onPartner s l.val then s1 else if h.dst = s.fab.addr then takeBarrier s1 h ch.val gen.val krec else sendCtl s1 k)

/-- BAR_RELEASE (R170, R171, R286): the release is broadcast, through the partition's EN and ES ports, to the tiles of the cord's
partition. -/
def execBarRelease (part : Fin 8) (cord : Fin 4096) (ch : Fin 4) (s : State) : Host.Outcome State Fault Refusal :=
  .next (if (barOf s.fab cord.val ch.val).phase = 4 ∧ (cordOf s.fab cord.val).part = part.val ∧ ¬ isKilnChannel s cord.val ch.val then
      let s1 := (ctlPorts s part.val).foldl (fun x e =>
        crossCtl x (ctlFar e) (ctlMsg .barRelease true (ctlFar e) true (barPayload cord.val ch.val 0))) s
      barReset (updTiles s1 (bcastTiles s part.val) (fun _ x => { x with
        barOut := smSet [] x.barOut ch.val ((smGet [] x.barOut ch.val).filter (fun a => a.1 != cord.val))
        barRel := x.barRel ++ [(cord.val, ch.val)] })) cord.val ch.val
    else s)

end Sys2Proof.Machine
end

