-- ==== Sys2Proof/Machine/PowerOps.lean ====
section
/-! DEFINITION. What the module does as a whole when power, heat or a pin changes (spec/13_power_and_thermal.md R336 to R366,
spec/19_module_hardware.md R469 to R471): power-down, fields lost, partitions switched on and off. -/

namespace Sys2Proof.Machine

/-- R336, R344: the state after the rails are removed: module flash and what the standby qualifier holds remain (R337). -/
def powerDown (s : State) : State :=
  { State.reset with
    clock := s.clock
    freeCtr := s.freeCtr
    flash := s.flash
    pending := s.pending
    pwr := { pwrInit with
      qualifier := s.pwr.qualifier
      vinMv := s.pwr.vinMv
      pwrEn := s.pwr.pwrEn
      mustCycle := s.pwr.mustCycle
      lowSeen := s.pwr.lowSeen
      forceOff := s.pwr.forceOff } }

/-- A power-down, where the module is on. -/
def powerDownIf (s : State) (b : Bool) : State := if b && s.pwr.isOn then powerDown s else s

/-- The tiles of a field. -/
def fieldTiles (n : Nat) : List Nat := (List.range 2048).filter (fun t => tileField t == n)

/-- R17, R188: the oscillators of a field's tiles start or stop. -/
def setOsc (s : State) (n : Nat) (b : Bool) : State :=
  updTiles s (fieldTiles n) (fun _ x => if b then { x with oscOn := true } else { x with oscOn := false, clkOn := false })

/-- The module-fault path for every context of a list (R346, R361). -/
def failCtxs (s : State) (cs : List Nat) (cause : Nat) : State := cs.foldl (fun x c => noteCause x c krFailed cause) s

/-- R365, R457: the end of a partition's switching, as PART_POWERED tells its owner. -/
def partPowered (s : State) (p status : Nat) : State := postEvent s [(partOf s p).port] 0x1F none [p, status]

/-- R363: a field's oscillators stop and its VDDL and VDDM ramp to 0. -/
def dropField (s : State) (n : Nat) : State := updPwr (setOsc s n false) (fun w => fieldOff w n)

/-- R346, R361: a field is powered down in hardware; its partition refuses deliveries from now on, the other fields follow once Kiln has
drained them, and Kiln takes the module-fault path for the partition's contexts. A field lost in its soft start fails the switch-on. -/
def tripField (s : State) (n : Nat) : State :=
  let s1 := dropField s n
  match partOfField s n with
  | none => s1
  | some p =>
    let q := partOf s1 p
    let s2 := setPart s1 p { q with powered := false, powering := false, draining := true }
    failCtxs (if q.powering then partPowered s2 p 0x0B else s2) (partCtxs s2 p) 0x10

/-- R346: a powered field that cannot be sustained is lost; with a VDDO or VDDP bank every context on the module is. -/
def checkField (s : State) (n : Nat) : State :=
  let f := fieldOf s.pwr n
  if (f.st = 1 ∨ f.st = 2) ∧ unsustainable f then
    let s1 := tripField s n
    if ringUnsustainable f then failCtxs s1 (liveCtxs s1) 0x10 else s1
  else s

/-- R339, R344: a module converter is lost; with fewer than 13 working the module powers down. -/
def loseConverter (s : State) : State :=
  let s1 := updPwr s (fun w => { w with convBad := min (w.convBad + 1) 16 })
  powerDownIf s1 (decide (convWorking s1.pwr < 13))

/-- Marking the steps that run on the partitions of a list. -/
def markRuns (s : State) (ps : List Nat) (f : StepRun → StepRun) : State :=
  ps.foldl (fun x p => match runningCtx x p with
    | some c => updRun x c f
    | none => x) s

/-- The powered partitions. -/
def poweredParts (s : State) : List Nat := (allParts s).filter (fun p => (partOf s p).powered)

/-- R352, R355: the cap acts on the partitions in dynamic mode. -/
def capActs (s : State) : State :=
  if s.pwr.ceil < 46 ∨ 0 < s.pwr.hgap then
    markRuns s ((poweredParts s).filter (fun p => !(policyOf s.pwr p).fixed)) (fun r => { r with capAct := true })
  else s

/-- A log record of an event to which the spec gives no code (R359, R471): the code is a free value. -/
def logFree (s : State) (args : List Nat) : State :=
  let d := drawFree s
  logOnly d.2 (d.1 % 2 ^ 16) args

/-- R359, R360: a region in stage 2 goes to step 20 at once, with its whole partition in fixed-frequency mode. -/
def regionToFloor (s : State) (n : Nat) : State :=
  match partOfField s (regionField n) with
  | none => s
  | some p =>
    let y := policyOf s.pwr p
    if y.fixed then
      updPwr s (fun w => (((List.range 128).filter (fun i => (partOf s p).fmask.testBit (regionField i))).foldl
        (fun v i => setRegion v i { regionOf v i with target := 20 }) (setPolicy w p { y with target := 20 })))
    else updPwr s (fun w => setRegion w n { regionOf w n with target := 20 })

/-- The links of an optical engine. -/
def engineLinks (e : Nat) : List Nat := (List.range 8).map (fun i => 8 * e + i)

/-- R359: what a sensor's new stage does, after the stage it left, besides the limits and ceilings that follow from it; trips are
THERMAL_TRIP's. -/
def stageAction (s : State) (kind idx old stage : Nat) (temp : Int) : State :=
  match kind with
  | 0 => if stage = 2 ∨ stage = 3 then regionToFloor s idx else s
  | 1 => if 2 ≤ stage then { s with mem := setMemDev s.mem 0 idx { memDevOf s.mem 0 idx with throttled := true } } else s
  | 2 =>
    if stage = 1 then logFree s [idx, wrapInt 64 temp]
    else if old < 2 then postAll s 0x0F [idx, wrapInt 64 temp]
    else s
  | _ => s

/-- R361: the contexts that map a page on an HBM4 stack: those of the partitions whose entries name its frames. -/
def stackCtxs (s : State) (idx : Nat) : List Nat :=
  (liveCtxs s).filter (fun c => s.mem.tmap.any (fun e =>
    teValid e.2 && teTier e.2 == 0 && devOf 0 (teFrame e.2) == idx && tePart e.2 == (ctxOf s c).part))

/-- R359: an HBM4 stack without its supplies: what its frames held is gone. -/
def stackLost (s : State) (idx : Nat) : State :=
  { updPwr s (fun w => { w with hbmDown := setInsert w.hbmDown idx }) with
    mem := { s.mem with hbm := s.mem.hbm.filter (fun e => devOf 0 (e.1 / 2 ^ 18) != idx) } }

/-- R359, R361: the third stage of a sensor. -/
def tripSensor (s : State) (kind idx : Nat) : State :=
  let s1 := updPwr s (fun w => latchTrip w kind idx)
  match kind with
  | 0 => tripField s1 (regionField idx)
  | 1 => failCtxs (stackLost s1 idx) (stackCtxs s1 idx) 0x11
  | 2 => linksStep s1 (engineLinks idx) (fun k => updPorts k (engineLinks idx) (fun p => if p.st = lsDisabled then p else goDown p 4))
  | 3 => tripField s1 idx
  | _ => loseConverter s1

/-- R359: what leaving a stage does: an engine back below stage 1 trains its links, a stack below stage 2 is throttled no more. -/
def stageLeft (s : State) (kind idx stage : Nat) : State :=
  match kind with
  | 1 => if stage < 2 then { s with mem := setMemDev s.mem 0 idx { memDevOf s.mem 0 idx with throttled := false } } else s
  | 2 =>
    if stage = 0 then
      linksStep s (engineLinks idx) (fun k => updPorts k (engineLinks idx) (fun p =>
        if p.st = lsDown ∧ p.cause = 4 then startTraining p (useSaved s) else p))
    else s
  | _ => s

/-- R360: the region whose ticks move the target of a partition in fixed-frequency mode: its first region in stage 1 or above,
else its first. -/
def leadRegion (s : State) (p : Nat) : Option Nat :=
  let rs := (List.range 128).filter (fun i => (partOf s p).fmask.testBit (regionField i))
  match rs.find? (fun i => decide (1 ≤ (sensorOf s.pwr 0 i).1)) with
  | some i => some i
  | none => rs.head?

/-- R359, R360: one tick of a region's thermal ceiling, or of the target of its partition in fixed-frequency mode. -/
def ceilingTick (s : State) (n : Nat) : State :=
  match partOfField s (regionField n) with
  | none => s
  | some p =>
    let y := policyOf s.pwr p
    if y.fixed then
      if leadRegion s p ≠ some n then s else
      let stages := ((List.range 128).filter (fun i => (partOf s p).fmask.testBit (regionField i))).map (fun i => (sensorOf s.pwr 0 i).1)
      let t := if stages.any (fun x => decide (2 ≤ x)) then 20
        else if stages.any (· == 1) then max 20 (y.target - 1)
        else min y.step (y.target + 1)
      updPwr s (fun w => setPolicy w p { y with target := t })
    else
      let r := regionOf s.pwr n
      let st := (sensorOf s.pwr 0 n).1
      let c := if st = 1 then max 20 (r.thermCeil - 1) else if st = 0 then min 46 (r.thermCeil + 1) else r.thermCeil
      updPwr s (fun w => setRegion w n { r with thermCeil := c })

/-- R183, R366: every field of a partition stands at its setpoint: the partition is powered and its tiles are reset; their stores must be
loaded again. -/
def partReady (s : State) (p : Nat) : State :=
  let q := partOf s p
  if q.powering && (partFields q).all (fun n => (fieldOf s.pwr n).st == 2) then
    let s1 := setPart s p { q with powering := false, powered := true, loaded := none }
    partPowered ((partTiles q).foldl resetTile s1) p 0
  else s

/-- R183: the partition's queues are empty: its windows close, its oscillators stop, its rails are lowered. -/
def partOff (s : State) (p : Nat) : State :=
  let q := partOf s p
  let s1 := (partFields q).foldl dropField (closeWindows s p)
  setPart s1 p { q with powered := false, powering := false, draining := false, loaded := none }

/-- Removing a partition switches its fields off (R176, R391, R429); its power policy goes with it. -/
def removePart (s : State) (p : Nat) : State :=
  let s1 := partOff s p
  updPwr (setPart s1 p part0) (fun w => setPolicy w p { policy0 with energy := (policyOf w p).energy })

/-- R457: ending a context at once: its tiles are aborted and its transfers cancelled. -/
def endCtx (s : State) (c : Nat) : State :=
  let p := (ctxOf s c).part
  dropCtx (if (ctxOf s c).run.isSome then cancelPart (abortPart s p) p else s) c

end Sys2Proof.Machine
end

