-- ==== Sys2Proof/Machine/MoverOps.lean ====
section
/-! DEFINITION. The movers as operations on the state (spec/08_memory_tiers.md R214 to R232, spec/10_fabric_and_cords.md R278 to R281,
spec/06_die_mesh_and_groupings.md R175, R182, spec/12_determinism.md R332): the choice of a descriptor, pulls, deliveries and visibility
points, migrations, and what uncorrectable errors lead to. -/

namespace Sys2Proof.Machine

/-- The partition that an access of a tile is checked against (R211). -/
def tileParts (s : State) (t : Nat) : List Nat := (partOfTile s t).toList

/-- R219: a descriptor reads or writes device memory. -/
def touchesMem (d : MDesc) : Bool := decide (dOp d ≤ 2) || dOp d == 5

/-- The 256-byte blocks that a descriptor touches: first and last; MIGRATE touches its page. -/
def dBlocks (d : MDesc) : Nat × Nat :=
  if dOp d = 5 then (dVa d / 2 ^ 18 * 1024, dVa d / 2 ^ 18 * 1024 + 1023)
  else (dVa d / 256, (dVa d + 64 * dWords d - 1) / 256)

/-- R219: two descriptors of one tile touch the same block of memory. -/
def sameBlock (a b : MDesc) : Bool :=
  a.tile == b.tile && touchesMem a && touchesMem b && decide ((dBlocks a).1 ≤ (dBlocks b).2) && decide ((dBlocks b).1 ≤ (dBlocks a).2)

/-- The descriptor at a place of a mover's queue, where it has the given operation and R219 lets it start. -/
def moverPick (s : State) (m pos op : Nat) : Option (MDesc × Nat) :=
  let q := (moverOf s m).queue
  match q[pos]? with
  | none => none
  | some (d, enter) =>
    if dOp d = op ∧ (q.take pos).all (fun x => !sameBlock x.1 d) ∧ s.ring.pulls.all (fun x => x.op != 1 || !sameBlock x.d d)
        ∧ s.mem.migr.all (fun g => match g.who with | .mover _ x _ => !sameBlock x d | _ => true)
    then some (d, enter) else none

/-- Taking a descriptor out of a mover's queue. -/
def moverDrop (s : State) (m pos : Nat) : State := setMover s m { moverOf s m with queue := (moverOf s m).queue.eraseIdx pos }

/-- The data of a transfer in 64-byte words. -/
def cut64 (bs : List Byte) (n : Nat) : List (List Byte) := (List.range n).map (fun i => (bs.drop (64 * i)).take 64)

/-- R156: the words of a delivery into a slot. -/
def deliveryWords (d : MDesc) (ws : List (List Byte)) : List MWord :=
  ws.zipIdx.map (fun x => .delivery d.addr x.2 (x.2 + 1 == ws.length) d.tile x.1)

/-- R175, R183, R218: a delivery for a tile's own MREQ joins the ring, or is refused: with WINDOW_CLOSED while the tile's
partition is off, with WINDOW_DENIED where no edge slot table names the tile. -/
def deliver (s : State) (m op : Nat) (d : MDesc) (ws : List (List Byte)) (enter bound : Nat) : State :=
  if !tilePowered s d.tile then refuseXfer s m op d 0x21
  else if !edgeNames s d.tile then refuseXfer s m op d 0x23
  else ringAdd s d.tile (fun _ => deliveryWords d ws) (.deliver m op d enter bound)

/-- The bound of a read at a place in memory (R229). -/
def readBound (op : Nat) (d : MDesc) (tier : Nat) : Nat := moverBound op (dWords d) (tier == 1)

/-- GET (R217, R218, R225): the words from VA travel to the slot. -/
def moverGet (s : State) (m pos : Nat) : State :=
  match moverPick s m pos 0 with
  | none => s
  | some (d, enter) =>
    let s1 := moverDrop s m pos
    match translateRange (seenMem s.mem) (dVa d) (64 * dWords d) (tileParts s d.tile) false with
    | .bad st => refuseXfer s1 m 0 d st
    | .wait => s
    | .ok tier _ => deliver s1 m 0 d (cut64 (vaRead (seenMem s.mem) (dVa d) (64 * dWords d)) (dWords d)) enter (readBound 0 d tier)

/-- The target of a GETW (R215): the header of its write. -/
def getwHdr (d : MDesc) : InHdr :=
  ⟨bits d.w.toNat 67 5, bits d.w.toNat 61 6, bits d.w.toNat 57 4, bits d.w.toNat 35 22, dWords d, .mover, 0⟩

/-- GETW (R217): the words from VA travel to another tile's window. -/
def moverGetw (s : State) (m pos : Nat) : State :=
  match moverPick s m pos 2 with
  | none => s
  | some (d, enter) =>
    let s1 := moverDrop s m pos
    match translateRange (seenMem s.mem) (dVa d) (64 * dWords d) (tileParts s d.tile) false with
    | .bad st => refuseXfer s1 m 2 d st
    | .wait => s
    | .ok tier _ =>
      moverWrite s1 m 2 d (getwHdr d) (cut64 (vaRead (seenMem s.mem) (dVa d) (64 * dWords d)) (dWords d)) [] enter (readBound 2 d tier)

/-- Starting a transfer that pulls words from a tile (R137, R217). -/
def startPull (s : State) (m : Nat) (d : MDesc) (src addr enter bound : Nat) : State :=
  let f := freshId s
  updRing f.2 (fun r => { r with pulls := r.pulls ++ [⟨f.1, m, dOp d, d, src, addr, dWords d, [], enter, bound, 0, false⟩] })

/-- PUTM (R217, R218): translated first; a write to a page that migrates waits (R211). -/
def moverPutm (s : State) (m pos : Nat) : State :=
  match moverPick s m pos 1 with
  | none => s
  | some (d, enter) =>
    let s1 := moverDrop s m pos
    match translateRange (seenMem s.mem) (dVa d) (64 * dWords d) (tileParts s d.tile) true with
    | .bad st => refuseXfer s1 m 1 d st
    | .wait => s
    | .ok _ _ => startPull s1 m d d.tile d.addr enter (moverBound 1 (dWords d) false)

/-- CGET (R217): pull reads at the resolved member. -/
def moverCget (s : State) (m pos : Nat) : State :=
  match moverPick s m pos 3 with
  | none => s
  | some (d, enter) => startPull (moverDrop s m pos) m d (dMember d 0).1 (dMember d 0).2 enter (moverBound 3 (dWords d) false)

/-- R153, R218: the refusal of a CPUT's words from word i on by their member: where it lies, and its window 15. -/
def cputCheck (s : State) (d : MDesc) (i : Nat) : Option (Nat × Nat × WinStatus) :=
  let t := dMember d i
  match targetRefusal s t.1 with
  | some st => some (t.1, st, .ok)
  | none =>
    match windowCheck (tileOf s t.1) (cputHdr s d i (dWords d - i)) with
    | .ok => none
    | w => some (t.1, winCode w, w)

/-- R153, R218: the refusal that a CPUT meets at its first or its last member, before any pull read: the tile, the status, and what the tile
counts. -/
def cputRefusal (s : State) (d : MDesc) : Option (Nat × Nat × WinStatus) :=
  match cputCheck s d 0 with
  | some x => some x
  | none => if cputPart d 0 (dWords d) < dWords d then cputCheck s d (cputPart d 0 (dWords d)) else none

/-- CPUT (R217): the slot's words are pulled, then written to window 15 of the resolved members. -/
def moverCput (s : State) (m pos : Nat) : State :=
  match moverPick s m pos 4 with
  | none => s
  | some (d, enter) =>
    match cputRefusal s d with
    | some x => refuseXfer (updTile (moverDrop s m pos) x.1 (fun t => countRefusal t x.2.2)) m 4 d x.2.1
    | none => startPull (moverDrop s m pos) m d d.tile d.addr enter (moverBound 4 (dWords d) false)

/-- R278: the cord of a CORD descriptor serves its tile. -/
def cordUsable (s : State) (d : MDesc) : Bool :=
  (cordOf s.fab (dCord d)).valid && partOfTile s d.tile == some (cordOf s.fab (dCord d)).part

/-- A CORD descriptor of one COP starts: refused with CORD_INVALID, or its slot is pulled. -/
def moverCord (s : State) (m pos cop : Nat) : State :=
  match moverPick s m pos 6 with
  | none => s
  | some (d, enter) =>
    if dCop d ≠ cop then s
    else if !cordUsable s d then refuseXfer (moverDrop s m pos) m 6 d 0x29
    else startPull (moverDrop s m pos) m d d.tile d.addr enter 0

/-- R332: an item's sum of a 32-bit word list, from word index j0. -/
def itemSum (key : DWord) (cyc tile j0 : Nat) (ws : List Nat) : DWord :=
  ws.zipIdx.foldl (fun acc w => acc + rng key (BitVec.ofNat 32 w.1) (BitVec.ofNat 32 cyc) 0 (2 ^ 20 * tile + j0 + w.2)) 0

/-- The 32-bit words of a byte string. -/
def words32 (bs : List Byte) : List Nat := (List.range (bs.length / 4)).map (fun i => leNat ((bs.drop (4 * i)).take 4))

/-- R332: an item of lock-step comparison, kind 0 link or 1 memory. -/
def lockItem (s : State) (d : MDesc) (kind : Nat) (bs : List Byte) : State :=
  let l := s.kiln.ls
  if !(l.enable && inPart s l.part d.tile) then s
  else
    let w := d.w.toNat
    let x := itemSum l.key d.cyc d.tile 0 [bits w 96 32, bits w 64 32, bits w 32 32, bits w 0 32] + itemSum l.key d.cyc d.tile 4 (words32 bs)
    { s with kiln := { s.kiln with ls := { l with
      sums := smUpd 0 l.sums (4096 * (d.cyc / 32768) + 2 * d.tile + kind) (fun y => y + x) } } }

/-- The header of a CORD transfer's packets (R268, R278). -/
def cordHdr (s : State) (d : MDesc) (n : Nat) : PktHdr :=
  let c := cordOf s.fab (dCord d)
  ⟨0, s.fab.addr, dCord d, c.myrank, dRank d, dCrow d, dCcol d, dCwin d, dCofs d, n, false, 0, 0, 0, 0, 0⟩

/-- R281: the CONTRIB packets of a transfer, one per key of at most 1,024 elements. -/
def contribPackets (s : State) (d : MDesc) (ws : List (List Byte)) : List Packet :=
  let c := cordOf s.fab (dCord d)
  let ib := match fmtOfCode c.ifmt with | some f => fmtWidth f / 8 | none => 4
  let ob := match fmtOfCode c.ofmt with | some f => fmtWidth f / 8 | none => 4
  let total := 64 * ws.length / ib
  let per := 1024 * ib / 64
  (List.range ((total + 1023) / 1024)).map (fun k =>
    let part := (ws.drop (per * k)).take per
    .bulk .contrib { cordHdr s d part.length with
      dst := memberAddr s.mem c (firstAggregator c (dRank d))
      offset := dCofs d + 1024 * k * ob
      phase := firstPhase c
      kelem := min 1024 (total - 1024 * k) } part)

/-- The packets of a CORD transfer (R278, R279, R281). -/
def cordPackets (s : State) (d : MDesc) (ws : List (List Byte)) : List Packet :=
  let c := cordOf s.fab (dCord d)
  match dCop d with
  | 0 => [.bulk .write { cordHdr s d ws.length with dst := memberAddr s.mem c (dRank d) } ws]
  | 1 => gatherCopies s c (cordHdr s d ws.length) ws [3, 2, 1]
  | _ => contribPackets s d ws

/-- R268, R269: sending one packet of a transfer under a tag of its own. -/
def sendPkt (s : State) (m id part : Nat) (p : Packet) : State :=
  let n := nextTag s m
  let q := setTagOf p n.1
  let s1 := updFab n.2 (fun f => { f with out := f.out ++ [⟨q, id, part, none, false⟩] })
  injectBulk s1 q

/-- R269, R278, R279, R281, R316, R332: a CORD transfer whose words have been pulled is offered to the crossbar. All its packets are
outstanding before the first completion is counted. -/
def sendCord (s : State) (x : PullXfer) : State :=
  let part := (partOfTile s x.d.tile).getD 0
  let s1 := lockItem s x.d 0 x.got.flatten
  let s2 := if dCop x.d = 1 then digestSend s1 (cordHdr s1 x.d x.got.length) x.got else s1
  let ps := cordPackets s2 x.d x.got
  let hold := updRing s2 (fun r => { r with pulls := r.pulls.map (fun y => if y.id = x.id then { y with got := [] } else y) })
  let s3 := ps.foldl (fun y p => sendPkt y x.mover x.id part p) hold
  xferCheck (updRing s3 (fun r => { r with pulls := r.pulls.map (fun y => if y.id = x.id then { y with got := x.got } else y) })) x.id

/-- Removing a pull transfer. -/
def dropPull (s : State) (id : Nat) : State := updRing s (fun r => { r with pulls := r.pulls.filter (fun y => y.id != id) })

/-- What follows the last pull read of a transfer: a PUTM waits for its visibility point, a CPUT writes, a CGET delivers, a CORD
sends. -/
def pullDone (s : State) (x : PullXfer) : State :=
  match x.op with
  | 3 => deliver (dropPull s x.id) x.mover 3 x.d x.got x.enter x.bound
  | 4 => cputFrom (dropPull s x.id) x.mover x.d 0 x.got x.enter x.bound
  | 6 => sendCord s x
  | _ => s

/-- The tile and address of a transfer's next pull read. -/
def pullAt (x : PullXfer) : Nat × Nat :=
  if x.op = 3 then dMember x.d x.got.length else (x.src, (x.addr + 64 * x.got.length) % spadSize)

/-- R158: a pull read that fails parity aborts its transfer. -/
def pullAbort (s : State) (x : PullXfer) : State :=
  updTile (dropPull s x.id) x.d.tile (fun t => slotEnd t x.op (dSlot x.d) true)

/-- R137: one pull read at a tile, for the oldest transfer that needs one there. -/
def pullStep (s : State) (t : Nat) : State :=
  match s.ring.pulls.find? (fun x => (pullAt x).1 == t && decide (x.got.length < x.need) && !x.gone) with
  | none => s
  | some x =>
    let r := pullRead (tileOf s t) (pullAt x).2
    let s1 := setTile s t r.1
    match r.2 with
    | .wait => s1
    | .parity => pullAbort s1 x
    | .data bs =>
      let y := { x with got := x.got ++ [bs] }
      let s2 := updRing s1 (fun g => { g with pulls := g.pulls.map (fun z => if z.id = x.id then y else z) })
      if y.got.length < y.need then s2 else pullDone s2 y

/-- VISIBILITY_POINT (R220, R332): the controller has accepted the last block of a PUTM. The write is translated as it was at its start; a
page that was unmapped meanwhile takes no data. -/
def visible (s : State) (id : Nat) : State :=
  match s.ring.pulls.find? (fun x => x.id == id && x.op == 1 && decide (x.need ≤ x.got.length)) with
  | none => s
  | some x =>
    let s1 := dropPull s id
    let s2 := match translateRange s.mem (dVa x.d) (64 * x.need) (tileParts s x.d.tile) true with
      | .bad _ => s1
      | _ => { s1 with mem := vaWrite s1.mem (dVa x.d) x.got.flatten }
    if x.gone then s2 else moverDone (lockItem s2 x.d 1 x.got.flatten) x.mover 1 x.d 0 x.enter x.bound

/-- R222: the completion record of a MIGRATE is delivered. -/
def migrAnswer (s : State) (m : Nat) (d : MDesc) (st tier old new enter bound : Nat) : State :=
  deliver s m 5 d [migrRecord st tier old new] enter bound

/-- MIGRATE (R222): the checks in order, then the copy begins. -/
def moverMigrate (s : State) (m pos : Nat) : State :=
  match moverPick s m pos 5 with
  | none => s
  | some (d, enter) =>
    let s1 := moverDrop s m pos
    let page := dVa d / 2 ^ 18
    let e := tmapGet s.mem page
    let rec_ := fun (st : Nat) => migrAnswer s1 m d st (teTier e) (teFrame e) (teFrame e) enter 1440
    match translate (seenMem s.mem) (dVa d) (tileParts s d.tile) true with
    | .bad st => refuseXfer s1 m 5 d st
    | _ =>
      if dTdst d = 1 ∧ ¬ ddrFitted s then rec_ 0x35
      else if teMoving e then rec_ 0x33
      else if dTdst d = teTier e then rec_ 0
      else
        match freeQueue s.mem (dTdst d) with
        | [] => rec_ 0x34
        | f :: fs =>
          let s2 := tmapTurn s1 m
          { s2 with mem := { tmapSetBy (setFreeQueue s2.mem (dTdst d) fs) m page (teMake (teWritable e) (tePart e) (teTier e) true (teFrame e)) with
            migr := s2.mem.migr ++ [⟨page, teTier e, teFrame e, dTdst d, f, .mover m d enter⟩] } }

/-- R222, R226: no write translated to a page waits for its visibility point. -/
def pageQuiet (s : State) (page : Nat) : Bool :=
  s.ring.pulls.all (fun x => x.op != 1 || (dVa x.d / 2 ^ 18 != page && (dVa x.d + 64 * x.need - 1) / 2 ^ 18 != page))

/-- The Tier Map entry that a finished copy leaves (R222). -/
def migrEntry (m : MemState) (g : Migr) : Word :=
  let e := tmapGet m g.page
  teMake (teWritable e) (tePart e) g.tierNew false g.new

/-- R212: the party that a migration's updates are made by. -/
def migrParty (g : Migr) : Nat :=
  match g.who with
  | .mover m _ _ => m
  | _ => 64

/-- R213, R222, R226: the copy ends: the entry names the new frame in one update, and an unmap that waited applies to it. -/
def migrSwitch (s0 : State) (g : Migr) (bad : List Nat) : State :=
  let s := tmapTurn s0 (migrParty g)
  let m1 := copyFrame s.mem g bad
  { s with mem := unmapWaiting { tmapSetBy m1 (migrParty g) g.page (migrEntry m1 g) with migr := m1.migr.erase g } g.page }

/-- R213, R222: an uncorrectable error ends a copy: MOVING is cleared, the fresh frame returns to its queue, an unmap that waited
applies. -/
def migrAbandon (s0 : State) (g : Migr) : State :=
  let s := tmapTurn s0 (migrParty g)
  let e := tmapGet s.mem g.page
  let m1 := tmapSetBy s.mem (migrParty g) g.page (teMake (teWritable e) (tePart e) (teTier e) false (teFrame e))
  { s with mem := unmapWaiting { setFreeQueue m1 g.tierNew (freeQueue m1 g.tierNew ++ [g.new]) with migr := m1.migr.erase g } g.page }

/-- R226, R228: retiring a frame: it never returns to a queue, the record keeps up to 8,192 frames, and Kiln logs it. -/
def retire (s : State) (tier frame : Nat) : State :=
  if isRetired s.mem tier frame then s
  else
    let s1 := { s with
      mem := retireFrame s.mem tier frame
      flash := if s.flash.retired.length < 8192 then s.flash.putRetired (s.flash.retired ++ [(tier, frame)]) else s.flash }
    logOnly s1 0x80 [frame, tier]

/-- R226, R227: the migration of a page to a fresh frame of its own tier begins; where the free queue is empty or the page already moves it
waits. who is Kiln's reason. -/
def startRetire (s : State) (page : Nat) (who : MigrWho) : State :=
  let e := tmapGet s.mem page
  match freeQueue s.mem (teTier e) with
  | f :: fs =>
    if teMoving e then { s with mem := { s.mem with scrubBad := s.mem.scrubBad ++ [(teTier e, teFrame e, who == .kiln)] } }
    else
      { s with mem := { tmapSet (setFreeQueue s.mem (teTier e) fs) page (teMake (teWritable e) (tePart e) (teTier e) true (teFrame e)) with
        migr := s.mem.migr ++ [⟨page, teTier e, teFrame e, teTier e, f, who⟩] } }
  | [] => { s with mem := { s.mem with scrubBad := s.mem.scrubBad ++ [(teTier e, teFrame e, who == .kiln)] } }

/-- R226, R227: Kiln's answer to the errors of a frame: its page moves to a fresh frame, by a retirement copy where data was lost, or plain
retirement where no page maps it. corrected says that no error was lost. -/
def frameBad (s : State) (tier frame : Nat) (corrected : Bool) : State :=
  match pagesOf s.mem tier frame with
  | page :: _ => startRetire s page (if corrected then .kiln else .retire)
  | [] => retire s tier frame

/-- R226: at a step boundary Kiln turns to the frames whose errors wait. -/
def retryBad (s : State) : State :=
  let l := s.mem.scrubBad
  l.foldl (fun x b => frameBad x b.1 b.2.1 b.2.2) { s with mem := { s.mem with scrubBad := [] } }

/-- R226: the errors of a page of a partition are being dealt with: no step of a context resumes until that path has finished. -/
def recovering (s : State) (p : Nat) : Bool :=
  s.mem.migr.any (fun g => g.who == .retire && tePart (tmapGet s.mem g.page) == p)
    || s.mem.scrubBad.any (fun b => !b.2.2 && (pagesOf s.mem b.1 b.2.1).any (fun n => tePart (tmapGet s.mem n) == p))

/-- R295, R305: the kind of a page in an image: 0 NONE, 1 RECOMPUTED, 2 HOST. -/
def pageKind (i : Option Image) (page : Nat) : Nat :=
  match i with
  | some g => (match g.recovery.find? (fun r => decide (r.1 ≤ page) && decide (page < r.1 + r.2.1)) with
    | some r => r.2.2
    | none => 0)
  | none => 0

/-- The Ember stream and buffer that a page belongs to (R306, R308). -/
def emberOfPage (s : State) (page : Nat) : Option (Nat × Nat) :=
  (List.range 8).findSome? (fun i =>
    let e := emberOf s i
    let n := 2048 * e.wspan * 4096 / 2 ^ 18
    if !e.valid then none
    else if e.buf0 ≤ page ∧ page < e.buf0 + n then some (i, 0)
    else if e.buf1 ≤ page ∧ page < e.buf1 + n then some (i, 1)
    else none)

/-- R310: the moment buffer that a page of a context's image belongs to: the rank it holds a copy for, and the buffer. Which pages
they are the image says (DESIGN CHOICE: the spec does not say how Kiln knows them). -/
def momentOfPage (x : Ctx) (page : Nat) : Option (Nat × Nat) :=
  match x.image with
  | some i => (i.moments.find? (fun r => decide (r.1 ≤ page) && decide (page < r.1 + r.2.1))).map (fun r => r.2.2)
  | none => none

/-- R294, R310: an uncorrectable error in a moment buffer: a copy that it holds for another rank is no longer valid, and Kiln says so. -/
def momentInvalid (s : State) (c rank buf : Nat) : State :=
  let s1 := updCtx s c (fun y => { y with mheld := y.mheld.filter (fun h => !(h.1 == rank && h.2.1 == buf)) })
  postCtx s1 c 0x09 [c, rank]

/-- R294, R305: the recovery path of a page that lost data, in one context. -/
def pageLostIn (s : State) (page c : Nat) : State :=
  match momentOfPage (ctxOf s c) page with
  | some (rank, buf) => momentInvalid s c rank buf
  | none =>
    match pageKind (ctxOf s c).image page with
    | 1 => noteCause s c krReplay 0x06
    | 2 =>
      let s1 := updCtx (noteCause s c krReplay 0x06) c (fun x => { x with refill := setInsert x.refill page })
      postCtx s1 c 0x07 [c, page]
    | _ => noteCause s c krFailed 0x11

/-- R226, R294, R305: the recovery path of a page that lost data: in the context whose step runs on its partition, or, between
steps, in those that have an image there. A page that was unmapped meanwhile needs none. -/
def pageLost (s : State) (page : Nat) : State :=
  if !teValid (tmapGet s.mem page) then s
  else
  match emberOfPage s page with
  | some (i, b) => emberInvalid (setEmber s i { emberOf s i with ue := true }) i b
  | none =>
    match runningCtx s (tePart (tmapGet s.mem page)) with
    | some c => pageLostIn s page c
    | none => ((partCtxs s (tePart (tmapGet s.mem page))).filter (fun c => (ctxOf s c).image.isSome)).foldl (fun x c => pageLostIn x page c) s

/-- R225: an uncorrectable error aborts the descriptor of a mover that meets it: the first one with a page in the frame. -/
def moverMeetsUe (s : State) (m tier frame : Nat) : State :=
  let hits := fun (d : MDesc) =>
    (dOp d == 0 || dOp d == 2) && [dVa d / 2 ^ 18, (dVa d + 64 * dWords d - 1) / 2 ^ 18].any (fun n =>
      let e := tmapGet s.mem n
      teValid e && teTier e == tier && teFrame e == frame)
  match (moverOf s m).queue.findIdx? (fun q => hits q.1) with
  | none => s
  | some i =>
    match (moverOf s m).queue[i]? with
    | none => s
    | some (d, _) => refuseXfer (moverDrop s m i) m (dOp d) d 0x36

/-- R222, R234: a migration that a mover carries out ends with an uncorrectable error: MOV_ERR and the completion record say so. -/
def migrUe (s : State) (m : Nat) (d : MDesc) (tier frame enter : Nat) : State :=
  migrAnswer (setMover s m (movError (moverOf s m) 0x36 5 d.tile)) m d 0x36 tier frame frame enter 40000

/-- R222: the migration that a mover carries out of a frame meets the error. -/
def migrMeetsUe (s : State) (tier frame : Nat) : State :=
  match s.mem.migr.find? (fun g => g.tierOld == tier && g.old == frame) with
  | none => s
  | some g =>
    match g.who with
    | .mover m d enter => migrUe (migrAbandon s g) m d tier frame enter
    | _ => s

/-- R175: the words of a control cycle stay out of quarter 2 of an EN or ES port. -/
def quarterBlocked (e cyc q : Nat) : Bool := decide (e < 128) && q == 2 && cyc % 16 == 11

/-- R175: the target tile of an entry of an edge slot table. -/
def edgeTarget (s : State) (e idx q : Nat) : Option Nat :=
  match smGet 0 s.ring.tables ((512 * e + idx) * 4 + q) with
  | 0 => none
  | t + 1 => some t

/-- R175, R232: the next word of a ready transfer goes out through an edge port; after its last word a delivery is complete at its mover,
and any other transfer waits for its end. -/
def takeFrom (s : State) (x : RingXfer) (port : Option Nat) : State × Option MWord :=
  match x.words with
  | [] => (s, none)
  | w :: ws =>
    let y := { x with words := ws, port := port }
    if !ws.isEmpty then (updRing s (fun r => { r with ready := r.ready.map (fun z => if z.id = x.id then y else z) }), some w)
    else
      let s1 := updRing s (fun r => { r with ready := r.ready.filter (fun z => z.id != x.id) })
      match x.org with
      | none => (s1, some w)
      | some (.deliver m _ _ enter bound) => (countLate s1 m enter bound, some w)
      | some _ => (updRing s1 (fun r => { r with live := r.live ++ [y] }), some w)

/-- R175: the next ready word for a tile through an edge port. -/
def takeWord (s : State) (e tile : Nat) : State × Option MWord :=
  match s.ring.ready.find? (fun x => x.tile == tile && (x.port == none || x.port == some e)) with
  | none => (s, none)
  | some x => takeFrom s x (some e)

/-- R175: filling one quarter. -/
def fillQuarter (s : State) (e cyc idx q : Nat) : State × Option MWord :=
  if quarterBlocked e cyc q then (s, none)
  else
    match edgeTarget s e idx q with
    | some t => takeWord s e t
    | none => (s, none)

/-- R175: within one IR cycle the ports build their flits in the edge port order; a port whose turn is over in this cycle builds in the next
one. -/
def edgeTurn (s : State) (e : Nat) : State :=
  let s1 := match s.ring.fillAt with
    | some (c, p) => if c = s.clock ∧ e < p then idleTick s else s
    | none => s
  updRing s1 (fun r => { r with fillAt := some (s1.clock, e) })

/-- R175: the ring builds the inbound flit that an edge port's tile consumes in a logical cycle, in rising order of the cycles. -/
def edgeFill (s0 : State) (e cyc : Nat) : State :=
  let s := edgeTurn s0 e
  let t := tileOfEdge e
  let x := tileOf s t
  let built := smGet [] x.wire (dirNum .x) ++ smGet [] x.inbuf (dirNum .x)
  if x.st ≠ .run ∨ cyc < x.cyc ∨ built.any (fun f => decide (cyc ≤ f.cyc)) then s0
  else
    let idx := cyc % rplen x
    let a := fillQuarter s e cyc idx 0
    let b := fillQuarter a.1 e cyc idx 1
    let c := fillQuarter b.1 e cyc idx 2
    let d := fillQuarter c.1 e cyc idx 3
    updTile d.1 t (fun y => { y with
      wire := smSet [] y.wire (dirNum .x) (smGet [] y.wire (dirNum .x) ++ [⟨cyc, a.2, b.2, c.2, d.2⟩]) })

/-- A word under way for a tile's own MREQ: its place in the delivery, the tile and input that it has reached, whether its flit is
still on the wire, the flit's cycle, and its quarter. -/
structure Flying where
  word : Nat
  at_  : Nat
  dir  : Nat
  onWire : Bool
  cyc  : Nat
  q    : Nat
  deriving DecidableEq, Repr

/-- The delivery words for a tile in a list of flits. -/
def flyingIn (t u dir : Nat) (onWire : Bool) (fs : List Flit) : List Flying :=
  fs.flatMap (fun f => (List.range 4).filterMap (fun q =>
    match flitQ f q with
    | some (.delivery _ w _ target _) => if target = t then some ⟨w, u, dir, onWire, f.cyc, q⟩ else none
    | _ => none))

/-- The delivery words for a tile that are on the mesh. -/
def flyingFor (s : State) (t : Nat) : List Flying :=
  s.tiles.flatMap (fun u => u.2.wire.flatMap (fun d => flyingIn t u.1 d.1 true d.2) ++ u.2.inbuf.flatMap (fun d => flyingIn t u.1 d.1 false d.2))

/-- A flit without one of its quarters. -/
def clearQuarter (f : Flit) (q : Nat) : Flit :=
  match q with
  | 0 => { f with q0 := none }
  | 1 => { f with q1 := none }
  | 2 => { f with q2 := none }
  | _ => { f with q3 := none }

/-- The word that lies nearest its place, by its number in the delivery. -/
def firstFlying (l : List Flying) : Option Flying :=
  l.foldl (fun b x => match b with | none => some x | some y => if x.word < y.word then some x else some y) none

/-- Taking a word off the mesh. -/
def takeFlying (s : State) (x : Flying) : State × Option MWord :=
  let strip := fun (fs : List Flit) => fs.map (fun f => if f.cyc = x.cyc then clearQuarter f x.q else f)
  let u := tileOf s x.at_
  let fs := smGet [] (if x.onWire then u.wire else u.inbuf) x.dir
  let w := match fs.find? (fun f => f.cyc == x.cyc) with
    | some f => flitQ f x.q
    | none => none
  (setTile s x.at_ (if x.onWire then { u with wire := smSet [] u.wire x.dir (strip fs) } else { u with inbuf := smSet [] u.inbuf x.dir (strip fs) }), w)

/-- R147, R232: while a tile holds on a slot tag, the next word for its own MREQ still reaches it, from the mesh or from the ring, although
the cycles of its neighbours stand still too (DEDUCED from the worked example of R232). -/
def heldFetch (s : State) (t : Nat) : State × Option MWord :=
  if !(tileOf s t).holdOn then (s, none)
  else
    match firstFlying (flyingFor s t) with
    | some x => takeFlying s x
    | none =>
      match s.ring.ready.find? (fun x => x.tile == t && (match x.org with | some (.deliver _ _ _ _ _) => true | _ => false)) with
      | some x => takeFrom s x x.port
      | none => (s, none)

/-- R156: one delivery word for a tile: from its delivery queues, or, while it holds on a tag, from its way there. -/
def deliverStep (s : State) (t : Nat) : State :=
  if (firstQueue (tileOf s t) isDelivery).isSome then updTile s t deliveryWord
  else
    let r := heldFetch s t
    match r.2 with
    | some w => updTile r.1 t (fun x => deliveryWord (pushDq x .x w))
    | none => updTile s t deliveryWord

/-- R214: a descriptor at an edge port reaches the mover of its tile's cluster. -/
def moverEnter (s : State) (e : Nat) : State :=
  match smGet [] s.ring.outQ e with
  | [] => s
  | d :: ds =>
    let m := tileCluster d.tile
    let s1 := updRing s (fun r => { r with outQ := smSet [] r.outQ e ds })
    setMover s1 m { moverOf s1 m with queue := (moverOf s1 m).queue ++ [(d, s.clock)] }

end Sys2Proof.Machine
end

