-- ==== Sys2Proof/Machine/TileControl.lean ====
section
/-! DEFINITION. The meanings of the control messages between tiles and Kiln, of START, ABORT and HALT, and of the inbound path of a tile
(spec/06_die_mesh_and_groupings.md R170, spec/05_scratchpad.md R137, R153 to R158, spec/04_tile_engines.md R134,
spec/07_clocks_and_logical_time.md R199, R200). -/

namespace Sys2Proof.Machine

/-- R202, R203: a register of the tile window as Kiln reads it. -/
def tileRegAt (s : State) (t off : Nat) : Word :=
  let n := tileRegion t
  tileReg (tileOf s t) off (regionPolicy s n).fixed (regionStretch s.pwr n (regionPolicy s n)) (regionOf s.pwr n).target

/-- R200: HALT of a tile; where it halts at once, its partners get the HALTED tokens. -/
def haltTile (s : State) (t : Nat) : State :=
  let r := tileHaltReq (tileOf s t) (partnerDirs s t)
  let s1 := setTile s t r.1
  if r.2 then
    (partnerDirs s t).foldl (fun x d =>
      match partnerOf s t d with
      | some u => updTile x u (fun y => { y with
          tokWire := smSet [] y.tokWire (dirNum (dirOpp d)) (smGet [] y.tokWire (dirNum (dirOpp d)) ++ [⟨(tileOf s t).cyc / 32, true⟩]) })
      | none => x) s1
  else s1

/-- R134: Kiln's write of TILE_CTRL: ABORT, then START. -/
def writeCtrl (s : State) (t : Nat) (v : Word) : State :=
  let s1 := if v.getLsbD 1 then updTile s t tileAbort else s
  if v.getLsbD 0 then startTile s1 t else s1

/-- R133, R170: Kiln's write of a tile register or slot tag. -/
def writeTile (s : State) (t : Nat) (tgt : RegTgt) (v : Word) : State :=
  match tgt with
  | .tag slot st => updTile s t (fun x => setTag x slot.val ⟨st, 0⟩)
  | .reg off =>
    if off.val = 0x00C then writeCtrl s t v
    else if off.val = 0x378 then (if v.getLsbD 0 then haltTile s t else s)
    else updTile s t (fun x => tileRegWrite x off.val v)

/-- R170: the payload of a write: offset and data. How a message names a slot tag the spec does not say (a free value). -/
def writePayload (tgt : RegTgt) (v : Word) (tag : Nat) : Nat :=
  match tgt with
  | .reg off => regPayload off.val v.toNat
  | .tag _ _ => tag

/-- R170: the tiles that a message from the edge port is delivered to: its target, or with BCAST every tile that it passes. -/
def ctlTargets (t : Nat) (bcast : Bool) : List Nat := if bcast then ctlPath t else [t]

/-- REG_WRITE (R170, R171): Kiln writes a tile register or tag by a message through the edge port of the tile's column, or with
BCAST that of every tile it passes; Kiln refuses access while the partition is off (R183). -/
def execRegWrite (t : Fin 2048) (tgt : RegTgt) (v : RegVal) (s : State) : Host.Outcome State Fault Refusal :=
  .next (if tilePowered s t.val then
      let d := drawFree s
      let s1 := crossCtl (match tgt with | .reg _ => s | .tag _ _ => d.2) t.val (ctlMsg .regWrite true t.val v.bcast (writePayload tgt v.value d.1))
      (ctlTargets t.val v.bcast).foldl (fun x u => writeTile x u tgt v.value) s1
    else s)

/-- REG_READ (R170, R171): the tile returns the register's value on its column. -/
def execRegRead (t : Fin 2048) (off : Fin 1024) (s : State) : Host.Outcome State Fault Refusal :=
  .next (if tilePowered s t.val then
      updTile (crossCtl s t.val (ctlMsg .regRead true t.val false (regPayload off.val 0))) t.val (fun x => { tileLatch x off.val with
        regReads := x.regReads ++ [(off.val, tileRegAt s t.val off.val)] })
    else s)

/-- REG_DATA (R170 to R172): the oldest register value that a tile returned reaches Kiln; the tile forwards its notices first. -/
def execRegData (t : Fin 2048) (s : State) : Host.Outcome State Fault Refusal :=
  .next (match (tileOf s t.val).notices, (tileOf s t.val).regReads with
    | [], x :: xs =>
      let s1 := updTile (crossCtl s t.val (ctlMsg .regData false t.val false (regPayload x.1 x.2.toNat))) t.val (fun y => { y with
        regReads := xs })
      { s1 with kiln := { s1.kiln with regIn := some (t.val, x.1, x.2) } }
    | _, _ => s)

/-- R134: START of a tile; Kiln refuses access while the partition is off (R183). -/
def execStart (t : Fin 2048) (s : State) : Host.Outcome State Fault Refusal :=
  .next (if tilePowered s t.val then startTile s t.val else s)

/-- R134: ABORT of a tile; Kiln refuses access while the partition is off (R183). -/
def execAbort (t : Fin 2048) (s : State) : Host.Outcome State Fault Refusal :=
  .next (if tilePowered s t.val then updTile s t.val tileAbort else s)

/-- R200: HALT of a tile; Kiln refuses access while the partition is off (R183). -/
def execHalt (t : Fin 2048) (s : State) : Host.Outcome State Fault Refusal :=
  .next (if tilePowered s t.val then haltTile s t.val else s)

/-- The neighbour that sent a word to a port, or the tile itself for its edge port. -/
def senderAt (s : State) (t port : Nat) : Nat :=
  match allDirs[port]? with
  | some d => (partnerOf s t d).getD t
  | none => t

/-- R35: a physical tile is to blame. -/
def blameTile (s : State) (t : Nat) : Blame := .tile (t / 64) (tileOf s t).pcol

/-- R35, R96: the physical array column behind a presented column is to blame. -/
def blameColumn (s : State) (t c : Nat) : Blame := .column (t / 64) (tileOf s t).pcol (physAcol (tileOf s t).bypass c)

/-- R22, R35: a mesh parity error: the lane group that carried the word where the hop crosses a seam, else the sending tile. lg is the
group of the crossing. -/
def blameMesh (s : State) (t port lg : Nat) : Blame :=
  let u := senderAt s t port
  if tileField u = tileField t then blameTile s u
  else
    let crossing := if u / 64 = t / 64 then t / 64 % 16 else (tileOf s u).pcol % 17
    .group (seamBetween (tileField u) (tileField t)) (66 * (2 * crossing + b2n (decide (t < u))) + lg)

/-- R35: the errors attributed to a place within 24 hours (1.3824 × 10^14 IR cycles). -/
def recurs (s : State) (b : Blame) : Bool :=
  s.kiln.errs.any (fun e => e.1 == b && decide (s.clock < e.2 + 138240000000000))

/-- R34, R35: what a recurrence records, with lane a lane of the group: the spec does not say which (a free value). -/
def blameFinding (b : Blame) (lane : Nat) : Finding :=
  match b with
  | .tile r c => .tile r c
  | .column r c a => .column r c a
  | .group m g => .lane m g (lane % 34)

/-- R34 to R37: a recurrence is found: tile who is fenced, and the entry waits for the write at the end of the step. -/
def noteRecurrence (s : State) (b : Blame) (who : Nat) : State :=
  let d := drawFree s
  { d.2 with kiln := { d.2.kiln with
    fenced := setInsert d.2.kiln.fenced who
    newDefects := d.2.kiln.newDefects ++ [blameFinding b d.1] } }

/-- R35, R37, R302: a detected error of a tile's step: a first one is a replay cause (or what status and cause say), a recurrence fails
the module for the job. -/
def noteError (s : State) (t : Nat) (b : Blame) (status cause who : Nat) : State :=
  let s1 := { s with kiln := { s.kiln with errs := s.kiln.errs ++ [(b, s.clock)] } }
  if recurs s b then noteTile (noteRecurrence s1 b who) t krFailed 0x10 else noteTile s1 t status cause

/-- R305: the words of a slot are refilled before a replay. -/
def inReplaySet (i : Option Image) (slot : Nat) : Bool :=
  match i with
  | some g => g.replaySet.any (fun r => decide (r.1 ≤ slot) && decide (slot < r.1 + r.2.1))
  | none => false

/-- The image of the step on a tile's partition. -/
def tileImage (s : State) (t : Nat) : Option Image :=
  match tileCtx s t with
  | some c => (ctxOf s c).image
  | none => none

/-- R111, R405: a DONE notice reaches Kiln; the last of a step is traced. -/
def noteDone (s : State) (t : Nat) : State :=
  match tileCtx s t with
  | none => s
  | some c =>
    let s1 := updRun s c (fun r => { r with done := setInsert r.done t })
    let x := ctxOf s1 c
    match x.run with
    | none => s1
    | some r =>
      let ts := partTiles (partOf s1 x.part)
      if ts.all (fun u => r.done.contains u) then
        trace s1 0x02 c x.part r.step.toNat (ts.foldl (fun n u => max n ((tileOf s1 u).doneAt.getD 0)) 0 * 2 ^ 321)
      else s1

/-- R131, R148, R155, R158, R162, R96: what Kiln does on a tile's notice. -/
def kilnNotice (s : State) (t : Nat) (n : Notice) : State :=
  match n with
  | .done => noteDone s t
  | .event code _ =>
    trace s 0x0D ((tileCtx s t).getD 0) ((partOfTile s t).getD 0) (tileOf s t).step.toNat
      (t / 64 * 2 ^ 347 + t % 64 * 2 ^ 341 + code * 2 ^ 325)
  | .fault code _ _ => noteTile s t krFault (if code = 0x11 then 0x24 else 0x20)
  | .stall => noteTile s t krFault 0x21
  | .parity _ _ word =>
    if inReplaySet (tileImage s t) (word / 64) then noteError s t (blameTile s t) krReplay 0x01 t
    else noteError s t (blameTile s t) krFailed 0x11 t
  | .meshParity port lg => noteError s t (blameMesh s t port lg) krReplay 0x02 (senderAt s t port)
  | .residue col => noteError s t (blameColumn s t col) krReplay 0x03 t
  | .nack _ => countRefused s t

/-- NOTIFY (R170, R171): the tile's oldest notice reaches Kiln through the edge port of its column; while Kiln restarts it waits. -/
def execNotify (t : Fin 2048) (s : State) : Host.Outcome State Fault Refusal :=
  .next (whileKiln s (match (tileOf s t.val).notices with
    | [] => s
    | n :: ns =>
      let d := drawFree s
      kilnNotice (updTile (crossCtl d.2 t.val (ctlMsg .notify false t.val false (noticePayload n d.1))) t.val (fun x => { x with
        notices := ns })) t.val n))

/-- R155: a refused inbound write is reported to its sender. -/
def reportRefusal (s : State) (h : InHdr) (w : WinStatus) : State :=
  match h.src with
  | .tile => updTile s h.sender (fun x => { x with nackIn := x.nackIn ++ [(winCode w, h.win)] })
  | _ => xferEnd s h.sender (winCode w)

/-- R428: the tile is in the scope of a reset in progress. -/
def tileResetting (s : State) (t : Nat) : Bool := s.kiln.resets.any (fun j => j.tiles.contains t)

/-- R303, R428: the tile's inbound traffic is being absorbed. -/
def tileAbsorbs (s : State) (t : Nat) : Bool :=
  tileResetting s t || (match partOfTile s t with | some p => partResetting s p | none => false)

/-- INBOUND_WRITE (R153, R154, R428): the inbound path takes the next write's header and checks its window. -/
def execInboundWrite (t : Fin 2048) (s : State) : Host.Outcome State Fault Refusal :=
  let r := inboundTake (tileOf s t.val) (tileResetting s t.val)
  let s1 := setTile s t.val r.1
  .next (match r.2 with
    | some x => reportRefusal s1 x.1 x.2
    | none => s1)

/-- The last word of an accepted write has landed: a ring sender learns it (R269). -/
def landed (a b : Option InWrite) : Option Nat :=
  match a, b with
  | some w, none => if w.refused then none else (match w.src with | .tile => none | _ => some w.sender)
  | _, _ => none

/-- INBOUND_WORD (R142, R145, R147, R154): one physical cycle of the inbound path on the write in progress. -/
def execInboundWord (t : Fin 2048) (s : State) : Host.Outcome State Fault Refusal :=
  let x := tileOf s t.val
  let y := inboundWord x (tileAbsorbs s t.val)
  let s1 := setTile s t.val y
  .next (match landed x.inw y.inw with
    | some id => xferEnd s1 id 0
    | none => s1)

/-- NEGATIVE_COMPLETION (R155): a tile sender records the oldest refusal of one of its writes. -/
def execNegativeCompletion (t : Fin 2048) (s : State) : Host.Outcome State Fault Refusal := .next (updTile s t.val takeNack)

/-- PULL_READ (R137): one pull read of a mover through the tile's inbound path. -/
def execPullRead (t : Fin 2048) (s : State) : Host.Outcome State Fault Refusal := .next (pullStep s t.val)

/-- MREQ_DELIVERY_WORD (R156): one delivery word for the tile's own MREQ lands. -/
def execMreqDeliveryWord (t : Fin 2048) (s : State) : Host.Outcome State Fault Refusal := .next (deliverStep s t.val)

end Sys2Proof.Machine
end

