-- ==== Sys2Proof/Machine/KilnSteps.lean ====
section
/-! DEFINITION. A multi-module step as Kiln drives it: sections, arrivals, replay, commit, loss of a module, votes
(spec/11_surviving_failures.md R299 to R317). -/

namespace Sys2Proof.Machine

/-- The context whose step a job cord coordinates. -/
def jobCtx (s : State) (k : Nat) : Option Nat :=
  (liveCtxs s).find? (fun c => (ctxOf s c).cord == some k && (ctxOf s c).run.isSome)

/-- SECTION of a context's records: a member that takes no part in a restore names the section that follows (R312), and so does
every member in the QUIET record before a restore. -/
def sectOf (r : StepRun) (kind : Nat) : Nat := if r.sect = 4 ∨ (kind = 2 ∧ 2 ≤ r.sect) then r.resume else r.sect

/-- The Kiln barrier record of a step (R298). -/
def mkRec (s : State) (cord : Nat) (r : StepRun) (kind status cause : Nat) (digest : DWord) : KRec :=
  ⟨r.step, Fin.ofNat 16 kind, Fin.ofNat 4 status, Fin.ofNat 16 (sectOf r kind), Fin.ofNat 4 r.attempt, (cordOf s.fab cord).myrank,
    BitVec.ofNat 8 cause, digest⟩

/-- R299, R301: Kiln arrives on the job cord of a context; with a status that is not OK the section is aborted first. -/
def arriveJob (s : State) (c kind status cause : Nat) : State :=
  let x := ctxOf s c
  match x.run, x.cord with
  | some r, some k =>
    if !kilnFree s k then s
    else
      let s1 := if status = 0 then s else abortPart s x.part
      kilnArrive (updRun s1 c (fun y => { y with phase := if kind = 2 then .quiet else .arrived kind, status := status, cause := cause }))
        k (mkRec s k r kind status cause 0)
  | _, _ => s

/-- Every tile of a partition has sent its DONE notice in the section. -/
def allDone (s : State) (p : Nat) (r : StepRun) : Bool := (partTiles (partOf s p)).all (fun t => r.done.contains t)

/-- R316: the step is a digest step of a stream of a partition that is hashed and voted. -/
def votes (e : EmberSt) (p : Nat) (r : StepRun) : Bool :=
  e.valid && e.digEn && e.part == p && decide (e.every ≠ 0) && r.step.toNat % e.every == 0

/-- R299: in a digest step the votes have ended. -/
def votesOver (s : State) (p : Nat) (r : StepRun) : Bool :=
  (List.range 8).all (fun i => !votes (emberOf s i) p r || r.voted.contains (emberOf s i).vcord)

/-- R308: a stream whose write buffer nothing has made invalid in the attempt. -/
def counted (e : EmberSt) (p : Nat) : Bool := e.valid && e.part == p && !e.bad

/-- R308: what the Ember counts of a partition say at a COMMIT arrival: a status and a cause. -/
def emberVerdict (s : State) (p attempt : Nat) : Nat × Nat :=
  if (List.range 8).any (fun i => counted (emberOf s i) p && decide ((emberOf s i).shard < (emberOf s i).count)) then (krFault, 0x23)
  else if (List.range 8).any (fun i => counted (emberOf s i) p && decide ((emberOf s i).count < (emberOf s i).shard)) then
    limitCause attempt krReplay 0x07
  else (krOk, 0)

/-- R299: the SECTION arrival. -/
def arriveSection (s : State) (c : Nat) : State :=
  let x := ctxOf s c
  match x.run with
  | some r =>
    if r.phase ≠ .run ∨ r.sect = 1 then s
    else if r.status ≠ 0 then arriveJob s c 0 r.status r.cause
    else if allDone s x.part r then arriveJob s c 0 0 0
    else s
  | none => s

/-- R299, R308: the COMMIT arrival. -/
def arriveCommit (s : State) (c : Nat) : State :=
  let x := ctxOf s c
  match x.run with
  | some r =>
    if r.phase ≠ .run ∨ r.sect ≠ 1 then s
    else if r.status ≠ 0 then arriveJob s c 1 r.status r.cause
    else if allDone s x.part r && votesOver s x.part r then
      let v := emberVerdict s x.part r.attempt
      arriveJob s c 1 v.1 v.2
    else s
  | none => s

/-- R317: the vote of one stream: its digest is complete. -/
def arriveVote (s : State) (c i : Nat) : State :=
  let x := ctxOf s c
  let e := emberOf s i
  match x.run with
  | some r =>
    if r.phase = .run ∧ r.sect = 1 ∧ votes e x.part r ∧ e.dcount = e.shard ∧ ¬ r.voted.contains e.vcord ∧ kilnFree s e.vcord then
      kilnArrive s e.vcord (mkRec s e.vcord r 3 0 0 e.acc)
    else s
  | none => s

/-- The cords of a partition (R303, R428). -/
def partCords (s : State) (p : Nat) : List Nat :=
  (s.fab.cords.filter (fun e => e.2.valid && e.2.part == p)).map (·.1)

/-- R303 steps 1 to 3: the attempt is aborted, its transfers are cancelled, its reduction slots freed. -/
def dropAttempt (s : State) (p : Nat) : State :=
  let s1 := cancelPart (abortPart s p) p
  updFab s1 (fun f => { f with red := freeCordSlots f.red (partCords s p) })

/-- R302, R303: the replay of a section begins. -/
def beginReplay (s : State) (c cause : Nat) : State :=
  let x := ctxOf s c
  match x.run with
  | none => s
  | some r =>
    let s1 := updRun (dropAttempt s x.part) c (fun y => { y with
      attempt := y.attempt + 1, status := 0, cause := cause, phase := .quiesce, done := [] })
    trace s1 0x05 c x.part r.step.toNat ((r.attempt + 1) * 2 ^ 350 + cause * 2 ^ 342)

/-- R303 step 6: the replay set's slots are refilled from their sources in every tile that the image occupies. -/
def refillSet (s : State) (i : Image) : State :=
  i.replaySet.foldl (fun x (g : Nat × Nat × Nat) =>
    let bs := vaRead x.mem g.2.2 (4096 * g.2.1)
    updTiles x (imageTiles i) (fun _ t => spadWrite t (4096 * g.1) bs)) s

/-- R312, R313: the module holds a valid Ember copy of a rank; for an expulsion, whose source is the buddy of a majority member, a
valid copy of that member's shard, whose rank no message names. -/
def holdsCopy (s : State) (p rank : Nat) (expel : Bool) : Bool :=
  (List.range 8).any (fun i =>
    let e := emberOf s i
    e.valid && e.part == p && (expel || e.brank == rank) && (e.valid0 || e.valid1))

/-- R313: the module holds a valid moment copy of a rank; for an expulsion, of any. -/
def holdsMoments (x : Ctx) (rank : Nat) (expel : Bool) : Bool := x.mheld.any (fun h => expel || h.1 == rank)

/-- R303 steps 6 and 7: the tiles are reset, the replay set is refilled, the counts clear, the section starts again with the same step,
micro-batch and seed. -/
def restart (s : State) (c : Nat) : State :=
  let x := ctxOf s c
  match x.run, x.image with
  | some r, some i =>
    let s1 := (partTiles (partOf s x.part)).foldl resetTile s
    let s2 := clearCounts (refillSet (openCluster s1 x.part i) i) c
    beginSection s2 c { r with
      attA := if r.sect = 0 then r.attempt else r.attA
      attB := if r.sect = 1 then r.attempt else r.attB
      phase := .run, status := 0, cause := 0, done := [] }
  | _, _ => s

/-- R312 step 4, R313: after the QUIET barrier of a rank replacement: the source serves its copies, the spare receives, every other member
arrives with SECTION at once. Where no moment copy is left the source and the spare, which then has MAGE 0xFFFF, post MOMENT_LOST. -/
def startRestore (s : State) (c : Nat) : State :=
  let x := ctxOf s c
  match x.run with
  | none => s
  | some r =>
    if r.sect = 2 ∧ ¬ holdsCopy s x.part r.peer r.expel then arriveJob s c 0 krFault 0x11
    else if r.sect = 4 then
      arriveJob (updRun ((partTiles (partOf s x.part)).foldl resetTile s) c (fun y => { y with phase := .run })) c 0 0 0
    else
      let lost := (r.sect = 2 ∧ ¬ holdsMoments x r.peer r.expel) ∨ (r.sect = 3 ∧ r.mage = 0xFFFF)
      let s1 := if lost then postCtx s c 0x0A [c, if r.sect = 2 then r.peer else (match x.cord with | some k => (cordOf s.fab k).myrank | none => 0)] else s
      restart s1 c

/-- The QUIET barrier is over: what was interrupted starts again. -/
def afterQuiet (s : State) (c : Nat) : State :=
  match (ctxOf s c).run with
  | some r => if 2 ≤ r.sect then startRestore s c else restart s c
  | none => s

/-- R226, R303 steps 4 and 5, R305: the partition is quiet, and no page of it is being recovered: Kiln arrives with QUIET, once
the host has rewritten a lost page. A single-module step starts again at once. What the attempt left is cancelled first. -/
def quiesceDone (s : State) (c : Nat) : State :=
  let x := ctxOf s c
  match x.run with
  | none => s
  | some r =>
    if r.phase ≠ .quiesce ∨ x.st = .paused then s
    else
      let s1 := dropAttempt s x.part
      if !partQuiet s1 x.part || recovering s1 x.part then s1
      else if !x.refill.isEmpty then updRun s1 c (fun y => { y with phase := .held })
      else if x.cord.isSome then arriveJob s1 c 2 0 0
      else afterQuiet s1 c

/-- The largest i below 2^n with (i·t)² < q. -/
def rootBelow (q t : Nat) : Nat → Nat → Nat
  | 0, a => a
  | n + 1, a => rootBelow q t n (if ((a + 2 ^ n) * t) ^ 2 < q then a + 2 ^ n else a)

/-- R309: moment_interval(c, mtbf, t_step), all in IR cycles. -/
def momentOf (c mtbf t : Nat) : Nat := min (max (rootBelow (2 * c * mtbf) t 13 0 + 1) 8) 4096

/-- The mean of a list. -/
def meanOf (l : List Nat) : Nat := l.foldl (· + ·) 0 / max 1 l.length

/-- R309: the moment interval of a context; 8 while c cannot be measured. -/
def momentInterval (s : State) (x : Ctx) : Nat :=
  match x.copyTime, x.stepTimes with
  | none, _ => 8
  | _, [] => 8
  | some w, _ :: _ =>
    let t := meanOf x.stepTimes
    let m := match x.mtbf with
      | some v => v * 1600000000
      | none => (s.clock - x.born) / max 1 x.losses
    momentOf (w - t) m t

/-- R309, R310: section B of a step takes a moment copy: the interval of the last commit has passed. -/
def takesCopy (x : Ctx) (step : Nat) : Bool :=
  x.holderNew || (match x.lastCopy with
    | none => true
    | some n => decide (x.interval ≤ step - n))

/-- R200: 64 logical cycles have passed since the DONE of every tile of a partition that still runs, and its queues and inbound paths are
empty. -/
def stepSettled (s : State) (p : Nat) : Bool :=
  (partTiles (partOf s p)).all (fun t =>
    let x := tileOf s t
    x.st != .run || (match x.doneAt with | some c => decide (c + 64 ≤ x.cyc) | none => false)) && queuesEmpty s p

/-- R200: HALT to every tile of a partition. -/
def haltPart (s : State) (p : Nat) : State := (partTiles (partOf s p)).foldl haltTile s

/-- R299, R312: a SECTION barrier has released with OK: the tiles halt before section B, or before the section that a restore
interrupted. -/
def afterSection (s : State) (c : Nat) : State :=
  let x := ctxOf s c
  updRun (haltPart s x.part) c (fun r => { r with
    sect := if r.sect = 0 then 1 else r.resume
    attempt := 0, attB := 0, phase := .halting, status := 0, cause := 0, done := [] })

/-- R308: the Ember copies of a partition become valid for a step; the other buffer is the write buffer now. -/
def commitEmber (s : State) (p : Nat) (step : Word) : State :=
  (List.range 8).foldl (fun x i =>
    let e := emberOf x i
    if counted e p then
      setEmber x i (if e.wbuf then { e with valid1 := true, valid0 := false, vstep1 := step + 1, wbuf := false }
        else { e with valid0 := true, valid1 := false, vstep0 := step + 1, wbuf := true })
    else x) s

/-- R300, R310: at a commit the moment copies that other ranks sent in the step become valid, each in the buffer that did not hold
its rank's last one. Which ranks took a copy no message tells this module (a free value). -/
def commitMoments (s : State) (c step : Nat) : State :=
  match (ctxOf s c).image with
  | none => s
  | some i =>
    (i.moments.map (fun m => m.2.2.1)).eraseDups.foldl (fun x rank =>
      let d := drawFree x
      if d.1 % 2 = 0 then d.2
      else
        updCtx d.2 c (fun y =>
          let buf := match y.mheld.find? (fun h => h.1 == rank) with
            | some h => 1 - h.2.1
            | none => 0
          { y with mheld := y.mheld.filter (fun h => h.1 != rank) ++ [(rank, buf, step)] })) s

/-- R300, R308 to R310: the step commits: copies become valid, the interval is taken anew, the completion is posted. -/
def commitStep (s : State) (c : Nat) : State :=
  let x := ctxOf s c
  match x.run with
  | none => s
  | some r =>
    let wall := s.clock - r.startAt
    let s1 := commitEmber (haltPart s x.part) x.part r.step
    let s2 := updCtx s1 c (fun y => { y with
      commits := y.commits + 1
      excused := []
      holderNew := if r.mcopy then false else y.holderNew
      lastCopy := if r.mcopy then some r.step.toNat else y.lastCopy
      mbuf := if r.mcopy then 1 - y.mbuf else y.mbuf
      copyTime := if r.mcopy then some wall else y.copyTime
      stepTimes := if r.mcopy then y.stepTimes else (wall :: y.stepTimes).take 64 })
    let s3 := updCtx (commitMoments s2 c r.step.toNat) c (fun y => { y with interval := momentInterval s2 (ctxOf s2 c) })
    let s4 := trace s3 0x06 c x.part r.step.toNat (momentInterval s2 (ctxOf s2 c) * 2 ^ 320)
    retryBad (finishStep s4 c 0 false)

/-- R315: a loss that cannot be repaired: before the first commit, or of the restore source of a lost rank before the recovery commit. -/
def beyondRepair (x : Ctx) (rank : Nat) : Bool :=
  x.commits == 0 || (match x.run with
    | some r => (match r.recov with | some (_, b) => rank == b | none => false)
    | none => false)

/-- R311, R314, R315: a FAILED release. A survivor quiesces and pauses; the module of the rank itself leaves the job and orders a compute
reset with self-test (port 2: Kiln's own). -/
def moduleFailed (s : State) (c rank cause : Nat) : State :=
  let x := ctxOf s c
  match x.cord with
  | none => s
  | some k =>
    let s1 := dropAttempt (postCtx s c 0x05 [c, rank, cause]) x.part
    if (cordOf s.fab k).myrank = rank then
      openReset (finishStep s1 c (0x80 + cause) true) 4 0 true (if cause = 0x12 then 3 else 2)
    else if beyondRepair x rank then rollBack s1 c (0x80 + cause)
    else updCtx (updRun s1 c (fun r => { r with phase := .quiesce, status := 0, cause := cause, done := [] })) c (fun y => { y with
      st := .paused, losses := y.losses + 1 })

/-- R299, R315, R460: a FAULT release ends the step; one that ends a recovery rolls the job back. -/
def faultRelease (s : State) (c cause : Nat) : State :=
  let s1 := dropAttempt s (ctxOf s c).part
  match (ctxOf s c).run with
  | some r => if r.recov.isSome then rollBack s1 c (0x80 + cause) else finishStep s1 c (0x80 + cause) true
  | none => s1

/-- R299: Kiln acts on the combined record of a job cord. -/
def releaseJob (s : State) (c kind : Nat) (k : KRec) : State :=
  match k.status.val with
  | 0 =>
    (match kind with
     | 0 => afterSection s c
     | 1 => commitStep s c
     | _ => afterQuiet s c)
  | 1 => beginReplay s c k.cause.toNat
  | 2 => moduleFailed s c k.frank k.cause.toNat
  | _ => faultRelease s c k.cause.toNat

/-- How often a digest occurs. -/
def votesFor (l : List DWord) (d : DWord) : Nat := (l.filter (· == d)).length

/-- R317: the outcome of a vote for a member with digest d among n members' digests: a status and a cause. -/
def voteOutcome (l : List DWord) (d : DWord) : Nat × Nat :=
  if l.all (· == d) then (krOk, 0)
  else if l.length < 2 * votesFor l d then (krOk, 0)
  else if l.any (fun v => decide (l.length < 2 * votesFor l v)) then (krFailed, 0x12)
  else (krFault, 0x22)

/-- R317: a vote cord's barrier has released. -/
def releaseVote (s : State) (cord : Nat) (own : KRec) (others : List BarGot) : State :=
  match runningCtx s (cordOf s.fab cord).part with
  | none => s
  | some c =>
    let o := voteOutcome (own.digest :: others.map (fun g => (gotRec g).digest)) own.digest
    let s1 := updRun s c (fun r => { r with voted := setInsert r.voted cord })
    if o.1 = 0 then s1 else noteCause s1 c o.1 o.2

/-- R312: at the QUIET barrier of a recovery the spare learns from a survivor's record which section the failure arose in. -/
def joinSection (s : State) (c cord kind : Nat) : State :=
  let b := barOf s.fab cord 3
  let gen := (cordGen (cordOf s.fab cord) 3 + 255) % 256
  match b.got.find? (fun g => g.gen == gen) with
  | some g => if kind = 2 then updRun s c (fun r => { r with resume := if r.sect = 3 then min (gotRec g).sect.val 1 else r.resume }) else s
  | none => s

/-- R299, R317, R405: the release of channel 3 of a cord. A context that was paused at the barrier acts once it is resumed, and
the tiles halt only once 64 logical cycles have passed and the queues are empty (R200). -/
def kilnRelease (s : State) (cord : Nat) : State :=
  let b := barOf s.fab cord 3
  match b.mine with
  | none => s
  | some own =>
    let gen := (cordGen (cordOf s.fab cord) 3 + 255) % 256
    let k := recordTo b gen 4
    if b.phase ≠ 4 then s
    else if own.kind = 3 then releaseVote (barReset s cord 3) cord own (heldIn b gen 1)
    else
      match jobCtx s cord with
      | none => barReset s cord 3
      | some c =>
        let x := ctxOf s c
        if x.st = .paused ∨ (k.status = 0 ∧ own.kind.val ≤ 1 ∧ ¬ stepSettled s x.part) then s
        else
          let s0 := joinSection s c cord own.kind.val
          let s1 := trace (barReset s0 cord 3) 0x04 c x.part own.step.toNat
            (own.kind.val * 2 ^ 348 + k.status.val * 2 ^ 346 + k.cause.toNat * 2 ^ 338)
          releaseJob s1 c own.kind.val k

/-- R301: the first record of the current generation that is not OK. -/
def floodRec (s : State) (cord : Nat) : Option KRec :=
  let gen := cordGen (cordOf s.fab cord) 3
  ((barOf s.fab cord 3).got.find? (fun g => g.gen == gen && (gotRec g).status.val != 0)).map gotRec

/-- R301: a record that is not OK has reached the ring: Kiln aborts its section and arrives with that status and CAUSE PEER, unless it has
already arrived. -/
def floodCtx (s : State) (c : Nat) : State :=
  let x := ctxOf s c
  match x.cord, x.run with
  | some k, some r =>
    (match floodRec s k with
     | some f => if r.phase = .run then arriveJob s c (if r.sect = 1 then 1 else 0) f.status.val 0x09 else s
     | none => s)
  | _, _ => s

/-- KILN_BARRIER_ARRIVE (R298, R299, R303, R308, R317): kind 0 SECTION, 1 COMMIT, 2 QUIET, 3 VOTE of every stream whose digest is
complete. -/
def execKilnBarrierArrive (c : Fin 256) (kind : Fin 4) (s : State) : Host.Outcome State Fault Refusal :=
  .next (whileKiln s (match kind.val with
    | 0 => arriveSection s c.val
    | 1 => arriveCommit s c.val
    | 2 => quiesceDone s c.val
    | _ => (List.range 8).foldl (fun x i => arriveVote x c.val i) s))

/-- KILN_BARRIER_RELEASE (R299). -/
def execKilnBarrierRelease (cord : Fin 4096) (s : State) : Host.Outcome State Fault Refusal := .next (whileKiln s (kilnRelease s cord.val))

/-- QUIESCE_DONE (R303). -/
def execQuiesceDone (c : Fin 256) (s : State) : Host.Outcome State Fault Refusal := .next (whileKiln s (quiesceDone s c.val))

/-- FLOOD (R301). -/
def execFlood (c : Fin 256) (s : State) : Host.Outcome State Fault Refusal := .next (whileKiln s (floodCtx s c.val))

/-- KIND of the barrier that a step waits at. -/
def phaseKind (p : CPhase) : Option Nat :=
  match p with
  | .arrived k => some k
  | .quiet => some 2
  | .held => some 2
  | _ => none

/-- R301, R317: a vote of a context's step waits for its barrier. -/
def voteWaits (s : State) (p : Nat) (r : StepRun) : Bool :=
  (List.range 8).any (fun i => votes (emberOf s i) p r && !r.voted.contains (emberOf s i).vcord && (barOf s.fab (emberOf s i).vcord 3).mine.isSome)

/-- The KIND of the barrier that keeps a step waiting. -/
def waitKind (s : State) (p : Nat) (r : StepRun) : Option Nat :=
  match phaseKind r.phase with
  | some k => some k
  | none => if r.phase = .run ∧ voteWaits s p r then some 3 else none

/-- SECTION_TIMEOUT (R301): the barrier has not released within the section timeout: BARRIER_TIMEOUT is posted and the context pauses. -/
def execSectionTimeout (c : Fin 256) (s : State) : Host.Outcome State Fault Refusal :=
  let x := ctxOf s c.val
  .next (whileKiln s (match x.cord, x.run with
    | some _, some r =>
      (match waitKind s x.part r with
       | some k => updCtx (postCtx s c.val 0x06 [c.val, r.step.toNat, k]) c.val (fun y => { y with st := .paused })
       | none => s)
    | _, _ => s))

end Sys2Proof.Machine
end

