-- ==== Sys2Proof/Machine/StepRows.lean ====
section
/-! DEFINITION. Submissions and steps: LOAD, STEP, RING_DB, STEP_LAUNCH, STEP_END (spec/04_tile_engines.md R132,
spec/07_clocks_and_logical_time.md R200, spec/14_host_interface.md R385, spec/15_kiln_firmware.md R400, R401,
spec/18_command_catalogue.md R458, R459). -/

namespace Sys2Proof.Machine

/-- The kind bit of an entry of an image; an entry that the image leaves out is a bundle of zeros. -/
def imgKind (g : TileImg) (n : Nat) : Option Bool :=
  if g.size ≤ n then none
  else
    match g.store.find? (fun e => e.1 == n) with
    | some e => some e.2.1
    | none => some false

/-- The entries that a bundle names, each with the kind bit that it must have (R132). -/
def bundleRefs (b : Bundle) : List (Nat × Bool) :=
  (match b.ctl with
   | .loop _ _ stop => [(stop.toNat, false)]
   | .jmp target => [(target.toNat, false)]
   | .bnz _ target => [(target.toNat, false)]
   | _ => [])
  ++ (match b.arr with
   | .wload d => [(d.toNat, true)]
   | .stream d _ _ _ _ => [(d.toNat, true)]
   | .drain d => [(d.toNat, true)]
   | _ => [])
  ++ (match b.mov with
   | .put _ d _ => [(d.toNat, true)]
   | .mreq _ d _ => [(d.toNat, true)]
   | .wopen _ d => [(d.toNat, true)]
   | _ => [])

/-- R132: a bundle entry of a tile's image. -/
def imgBundleOk (g : TileImg) (n : Nat) (w : BitVec 128) : Bool :=
  bundleOk n w && (match decBundle w with
    | some b => (bundleRefs b).all (fun r => imgKind g r.1 == some r.2)
    | none => false)

/-- R163: the remainder mod 16 of the control cycle of a tile's output; EW and EE ports have none. -/
def ctlCycle (t : Nat) (d : Dir) : Option Nat :=
  match d with
  | .e => some ((4 * (t % 64) + 15) % 16)
  | .w => some ((4 * (63 - t % 64) + 15) % 16)
  | .s => some ((4 * (t / 64) + 15) % 16)
  | .n => some ((4 * (31 - t / 64) + 15) % 16)
  | .x => if t < 64 || decide (1984 ≤ t) then some 11 else none

/-- R169: a port that a route word may use: the tile's edge port, or a mesh port to a tile of the same partition. -/
def portUsable (s : State) (p t : Nat) (d : Dir) : Bool :=
  match d with
  | .x => (edgeOfTile t).isSome
  | _ => match neighbour t d with
    | some u => inPart s p u
    | none => false

/-- R169: a source code that an output of a tile may name. -/
def srcOk (s : State) (p t : Nat) (d : Dir) (c : Nat) : Bool :=
  decide (c < 7) && (match srcDir c with
    | some f => f != d && portUsable s p t f
    | none => true)

/-- R169: quarter q of an output in a route word of index i, in a partition of the named mode. -/
def outQuarterOk (s : State) (p t i w : Nat) (d : Dir) (q : Nat) : Bool :=
  outSrc w d q == 0 || (portUsable s p t d && srcOk s p t d (outSrc w d q)
    && !(q == 2 && ctlCycle t d == some (i % 16)) && !(q == 3 && (partOf s p).mode == 1))

/-- R169: the LOCAL field of an input. -/
def locOk (s : State) (p t w : Nat) (d : Dir) : Bool :=
  match locQuarter w d with
  | none => true
  | some q => portUsable s p t d && !(q == 3 && (partOf s p).mode == 1)

/-- R164, R169: a route word of a tile's image. -/
def routeOk (s : State) (p t i w : Nat) : Bool :=
  decide (i < 512) && allDirs.all (fun d => (List.range 4).all (outQuarterOk s p t i w d) && locOk s p t w d)

/-- R179, R482: an entry of an edge slot table: edge port, route word index, quarter, tile. -/
def edgeEntryOk (s : State) (p : Nat) (e : Nat × Nat × Nat × Nat) : Bool :=
  decide (e.1 < 188) && decide (e.2.1 < 512) && decide (e.2.2.1 < 4) && decide (e.2.2.2 < 2048)
    && inPart s p (tileOfEdge e.1) && inPart s p e.2.2.2
    && !(decide (e.1 < 128) && e.2.2.1 == 2 && e.2.1 % 16 == 11)
    && !((partOf s p).mode == 1 && e.2.2.1 == 3)

/-- R132: the part of an image for one tile. -/
def tileImgOk (s : State) (p : Nat) (i : Image) (g : TileImg) : Bool :=
  decide (g.tile < 2048) && inPart s p g.tile && decide (g.size ≤ 8192) && g.entries.all (fun e => imgKind g e == some false)
    && g.store.all (fun e => decide (e.1 < g.size)
      && (if e.2.1 then descOk i.widthClass ((partOf s p).mode == 2) e.2.2 && descTargetOk (partOf s p).fmask e.2.2
        else imgBundleOk g e.1 e.2.2))
    && g.routes.all (fun r => routeOk s p g.tile r.1 r.2.toNat)

/-- R1, R26, R132, R169, R298, R482: Kiln's checks of an image at load. -/
def imageOk (s : State) (c : Nat) (i : Image) : Bool :=
  let p := (ctxOf s c).part
  !i.tranu4 && decide (116 ≤ i.widthClass) && decide (i.widthClass ≤ 128) && decide (i.rper ≤ 31)
    && i.tiles.all (tileImgOk s p i) && i.edges.all (edgeEntryOk s p)
    && i.barriers.all (fun b => !isKilnChannel s b.1 b.2)

/-- A waiting submission makes an idle context READY (R399). -/
def wakeCtx (x : Ctx) : Ctx := { x with st := if x.st = .idle && !x.queue.isEmpty then .ready else x.st }

/-- Dropping the oldest submission of a context. -/
def popSub (s : State) (c : Nat) : State :=
  updCtx s c (fun x =>
    let q := x.queue.drop 1
    { x with queue := q, st := if x.st = .ready && q.isEmpty then .idle else x.st })

/-- R383: the completion ring of a context has no free entry. -/
def cplFull (s : State) (c : Nat) : Bool := ringFull s.mem (ctxOf s c).cpl

/-- R385, R461: unknown submissions at the head of a context's queue complete with BAD_COMMAND, in order. -/
def dropBad (s : State) (c : Nat) : Nat → State
  | 0 => s
  | n + 1 =>
    match (ctxOf s c).queue with
    | .bad tag op :: _ => if cplFull s c then s else dropBad (popSub (complete s c tag op 0x05 0) c) c n
    | _ => s

/-- Unknown submissions at the head of a context's queue, up to as many as wait. -/
def settleCtx (s : State) (c : Nat) : State :=
  if (ctxOf s c).run.isSome then s else dropBad s c (ctxOf s c).queue.length

/-- A submission joins a context's queue. -/
def addSub (s : State) (c : Nat) (x : Sub) : State := updCtx s c (fun y => wakeCtx { y with queue := y.queue ++ [x] })

/-- The submission of a ring entry (R384, R458). -/
def subOfEntry (e : List Byte) : Sub :=
  let n := leNat e
  let tag := bits n 32 32
  match bits n 0 16 with
  | 0x0100 => .load tag (bits n 64 64) (bits n 128 32)
  | 0x0101 => .step tag (BitVec.ofNat 32 (bits n 64 32)) (BitVec.ofNat 16 (bits n 96 16)) (BitVec.ofNat 64 (bits n 112 64))
  | op => .bad tag op

/-- R183: a step submitted to a context of a partition that is switched off waits in its submission ring. -/
def waitsInRing (s : State) (c : Nat) (x : Sub) : Bool :=
  match x with
  | .step _ _ _ _ => !(partOf s (ctxOf s c).part).powered
  | _ => false

/-- R383, R385: Kiln reads the new entries of a context's submission ring, in index order. -/
def readSubs (s : State) (c : Nat) : Nat → State
  | 0 => s
  | n + 1 =>
    let r := (ctxOf s c).sub
    let k := ringCons s.mem r
    let x := subOfEntry (vaRead s.mem (ringEntry r k) 64)
    if ringFill s.mem r = 0 ∨ waitsInRing s c x then s
    else
      let s1 := addSub s c x
      readSubs { s1 with mem := setRingField s1.mem r 48 ((k + 1) % 2 ^ 32) } c n

/-- The oldest submission of a context is the LOAD of a tag, or none waits. -/
def loadTurn (x : Ctx) (tag : Nat) : Bool :=
  match x.queue with
  | [] => true
  | .load t _ _ :: _ => t == tag
  | _ => false

/-- LOAD (R132, R385, R458): the image of a context's LOAD is checked and kept for its next step, or refused with INVALID_PROGRAM
and no tile changed. It completes in the order of its submissions, between steps. -/
def execLoad (c : Fin 256) (tag : Word) (img : Image) (s : State) : Host.Outcome State Fault Refusal :=
  let x := ctxOf s c.val
  .next (if !ctxLive s c.val || x.run.isSome || !loadTurn x tag.toNat || cplFull s c.val then s
    else
      let s1 := if x.queue.isEmpty then s else popSub s c.val
      if imageOk s c.val img then settleCtx (complete (updCtx s1 c.val (fun y => { y with image := some img })) c.val tag.toNat 0x0100 0 0) c.val
      else settleCtx (complete s1 c.val tag.toNat 0x0100 0x09 0) c.val)

/-- STEP (R399, R458): a step is submitted to a context and waits for its launch. -/
def execStep (c : Fin 256) (tag : Word) (n : Word) (mb : BitVec 16) (seed : DWord) (s : State) : Host.Outcome State Fault Refusal :=
  .next (if ctxLive s c.val then addSub s c.val (.step tag.toNat n mb seed) else s)

/-- A READY context whose oldest submission is a step, whose completion has a place, and which waits for no lost page (R305, R383, R400). -/
def canStart (s : State) (c : Nat) : Bool :=
  let x := ctxOf s c
  x.st == .ready && !cplFull s c && x.refill.isEmpty && (match x.queue with | .step _ _ _ _ :: _ => true | _ => false)

/-- R400: the first of a list of contexts in ascending number after c, wrapping. -/
def afterCtx (l : List Nat) (c : Nat) : Option Nat :=
  match l.find? (fun n => decide (c < n)) with
  | some n => some n
  | none => l.head?

/-- R400: the context that holds the partition until it pauses: a pinned one that has begun its first step. -/
def pinnedCtx (s : State) (p : Nat) : Option Nat :=
  match (partOf s p).cur with
  | some c => if (ctxOf s c).cord.isSome && (ctxOf s c).st != .paused then some c else none
  | none => none

/-- R400: the context whose step runs next on a partition. -/
def nextStep (s : State) (p : Nat) : Option Nat :=
  match pinnedCtx s p with
  | some c => if canStart s c then some c else none
  | none =>
    let ready := (partCtxs s p).filter (canStart s)
    let best := ready.foldl (fun m c => max m (ctxOf s c).prio) 0
    let top := ready.filter (fun c => (ctxOf s c).prio == best)
    match (partOf s p).cur with
    | some c => if ready.contains c && decide ((ctxOf s c).ran < (ctxOf s c).quantum * 1600000) then some c else afterCtx top c
    | none => top.head?

/-- R335: the windows of the previous section that the partner still owes are few enough for the next START. -/
def lagOk (s : State) (p : Nat) : Bool :=
  !(s.kiln.ls.enable && s.kiln.ls.part == p) || decide (lsLag s.kiln.ls ≤ 2 ^ s.kiln.ls.logsz / 2)

/-- R152, R182, R401: a switch of contexts: the windows close, and the new image's stores are loaded where the digests differ. The cluster
window of an image whose stores stay is opened again (DEDUCED). -/
def switchCtx (s : State) (p c : Nat) (i : Image) : State :=
  let q := partOf s p
  if q.cur = some c ∧ q.loaded = some i.digest then s
  else
    let loads := decide (q.loaded ≠ some i.digest)
    let s1 := if q.cur = some c then s else closeWindows s p
    let s2 := if loads then loadStores s1 p i
      else updTiles (openCluster s1 p i) (partTiles q) (fun _ t => { t with own := i.owners })
    let s3 := setPart s2 p { partOf s2 p with cur := some c }
    if q.cur = some c then s3
    else updCtx (trace s3 0x07 c p 0 (q.cur.getD 0 * 2 ^ 344 + b2n loads * 2 ^ 343)) c (fun x => { x with ran := 0 })

/-- R5: the job of a context spans modules of both grades. No record that the spec gives a module names its peers' grades (a free value, by
cord). -/
def spansGrades (x : Ctx) : Bool :=
  match x.cord with
  | some k => Config.mixedGrades k
  | none => false

/-- R5: the module's minimum presented width, over all its tiles. -/
def moduleWidth (s : State) : Nat := (List.range 2048).foldl (fun n t => min n (tileOf s t).width) 128

/-- Why a step does not start (R5, R27, R132, R296): the status of its completion. -/
def startRefusal (s : State) (c : Nat) : Option Nat :=
  let x := ctxOf s c
  match x.image with
  | none => some 0x09
  | some i =>
    if s.boot.unrep then some 0x02
    else if x.cord.isSome && !i.replayable then some 0x09
    else if !(imageTiles i).all (inPart s x.part) then some 0x09
    else if (imageTiles i).any (fun t => decide ((tileOf s t).width < i.widthClass)) then some 0x0A
    else if spansGrades x && decide (moduleWidth s < i.widthClass) then some 0x0A
    else none

/-- R355, R359: a sensor that bears on a partition is in a thermal stage. -/
def thermalActs (s : State) (p : Nat) : Bool :=
  s.pwr.sensors.any (fun e => decide (1 ≤ e.2.1) && (sensorParts s (e.1 / 128) (e.1 % 128)).contains p)

/-- The run of a submitted step (R297, R312, R318); a restored position replaces the submission's for the first step after it. -/
def newRun (s : State) (c tag : Nat) (n : Word) (mb : BitVec 16) (seed : DWord) : StepRun :=
  let x := ctxOf s c
  let v := x.restore.getD (seed, n, mb)
  { tag := tag, step := v.2.1, mb := v.2.2, seed := v.1, sect := 0, attempt := 0, attA := 0, attB := 0, phase := .run, done := []
    cause := 0, status := 0, excused := false, mcopy := false
    ncontrib := match x.cord with | some k => cordN (cordOf s.fab k) | none => 1
    peer := 0, mage := 0, resume := 0, startAt := s.clock, energy0 := (policyOf s.pwr x.part).energy, energy := 0
    capAct := !(policyOf s.pwr x.part).fixed && (decide (s.pwr.ceil < 46) || decide (0 < s.pwr.hgap))
    thrAct := s.pwr.throttle, thmAct := thermalActs s x.part, refused := 0, voted := [], recov := none, expel := false }

/-- R297, R400, R401: starting the oldest submission of a context, a step. -/
def launch (s : State) (c : Nat) : State :=
  let x := ctxOf s c
  match x.queue with
  | .step tag n mb seed :: _ =>
    let r := newRun s c tag n mb seed
    let s1 := popSub s c
    (match startRefusal s c, x.image with
     | some st, _ => complete s1 c tag 0x0101 st (r.step.toNat * 2 ^ 416 + r.mb.toNat * 2 ^ 400)
     | none, some i =>
       beginSection (updCtx (switchCtx s1 x.part c i) c (fun y => { y with restore := none })) c r
     | none, none => s1)
  | _ => s

/-- R303, R310, R320: the next section of a step starts once its tiles have halted. -/
def launchNext (s : State) (c : Nat) (r : StepRun) : State :=
  let x := ctxOf s c
  let r1 := if r.sect = 1 then { r with mcopy := takesCopy x r.step.toNat } else r
  beginSection (if r.sect = 1 then clearCounts s c else s) c r1

/-- R131, R200: every tile of a partition accepts START; one in FAULT awaits its reset. -/
def partIdle (s : State) (p : Nat) : Bool := (partTiles (partOf s p)).all (fun t => (tileOf s t).st == .idle)

/-- A reset or a switch of the partition is under way. -/
def partBusy (s : State) (p : Nat) : Bool :=
  let q := partOf s p
  !q.on || !q.powered || q.draining || partResetting s p
    || s.kiln.resets.any (fun j => j.tiles.any (inPart s p))

/-- R183: what waited in the submission rings of a partition's contexts while it was off is read once it is on again. -/
def readWaiting (s : State) (p : Nat) : State :=
  if (partOf s p).loaded.isNone then (partCtxs s p).foldl (fun x c => readSubs x c (2 ^ (ctxOf x c).sub.logsz)) s else s

/-- R226, R400: one step boundary of a partition: the next section of the step that holds it, or the next step. -/
def stepLaunch (s : State) (p : Nat) : State :=
  if partBusy s p || !partIdle s p || !lagOk s p || recovering s p then s
  else
    match runningCtx s p with
    | some c =>
      (match (ctxOf s c).run with
       | some r => if r.phase = .halting then launchNext s c r else s
       | none => s)
    | none =>
      let s1 := retryBad ((partCtxs s p).foldl settleCtx (readWaiting s p))
      if recovering s1 p then s1
      else
        match nextStep s1 p with
        | some c => launch s1 c
        | none => s1

/-- STEP_LAUNCH (R400). -/
def execStepLaunch (part : Fin 8) (s : State) : Host.Outcome State Fault Refusal := .next (whileKiln s (stepLaunch s part.val))

/-- R200, R459: the end of a single-module step: HALT to every tile, the completion, the defect entries found. -/
def stepEnd (s : State) (c : Nat) : State :=
  let x := ctxOf s c
  match x.run with
  | some r =>
    if x.cord.isNone && r.phase == .run && allDone s x.part r && stepSettled s x.part then
      retryBad (finishStep (haltPart s x.part) c 0 false)
    else s
  | none => s

/-- STEP_END (R200): every tile has sent DONE, 64 logical cycles have passed, the queues are empty. -/
def execStepEnd (c : Fin 256) (s : State) : Host.Outcome State Fault Refusal := .next (whileKiln s (stepEnd s c.val))

end Sys2Proof.Machine
end

