-- ==== Sys2Proof/Machine/RegRead.lean ====
section
/-! DEFINITION. What an aligned 32-bit read of each BAR0 offset returns, and which HI registers a LO read latches (spec/14_host_interface.md
R374, R375 and the register tables of the chapters that R374 names). -/

namespace Sys2Proof.Machine

/-- Seconds in IR cycles of 0.625 ns. -/
def secCycles : Nat := 1600000000

/-- Bits [31:0] of a 64-bit value. -/
def loOf (x : Nat) : Word := BitVec.ofNat 32 x

/-- Bits [63:32] of a 64-bit value. -/
def hiOf (x : Nat) : Word := BitVec.ofNat 32 (x / 2 ^ 32)

/-- R372: Kindling has reached Stage 8. -/
def isReady (s : State) : Bool := s.boot.state == 2

/-- MBX_START (spec/14_host_interface.md). -/
def mbxStartWord (s : State) : Word :=
  BitVec.ofNat 32 (s.boot.stage * 2 ^ 28 + s.boot.state * 2 ^ 26 + s.boot.code * 2 ^ 16
    + (if s.boot.running then min 0xFFFF ((s.clock - s.boot.began) / secCycles) else 0))

/-- The contexts that a port owns. -/
def portCtxs (s : State) (p : Nat) : List Nat := (liveCtxs s).filter (fun c => (ctxOf s c).port == p)

/-- Seconds of a hold that remain, begun seconds counted whole. -/
def holdLeft (clock : Nat) (h : Option Nat) : Nat :=
  match h with
  | some t => min 120 ((t - clock + secCycles - 1) / secCycles)
  | none => 0

/-- MBX_HOST0 and MBX_HOST1 (R391). -/
def mbxHostWord (s : State) (p : Nat) : Word :=
  let x := hostOf s p
  BitVec.ofNat 32 (x.st * 2 ^ 30 + holdLeft s.clock x.hold * 2 ^ 20 + (portCtxs s p).length * 2 ^ 8 + x.foreign)

/-- MBX_BAR2 (R377). -/
def mbxBar2Word (x : HostPort) : Word :=
  match x.bar2 with
  | some p => BitVec.ofNat 32 (2 ^ 31 + p)
  | none => 0

/-- MBX_BAR2_FAULT (R377). -/
def bar2FaultWord (x : HostPort) : Word :=
  BitVec.ofNat 32 (b2n x.b2On * 2 ^ 31 + b2n x.b2Write * 2 ^ 30 + x.b2Status * 2 ^ 16 + x.b2Count)

/-- A mailbox. -/
def mbxOf (x : HostPort) (m : Nat) : Mbx := smGet mbx0 x.mbx m

/-- MBX_STATUS (R372, R378): STARTING with the stage until Stage 8. -/
def mbxStatusWord (s : State) (x : Mbx) : Word :=
  if isReady s then BitVec.ofNat 32 (x.st * 2 ^ 29 + x.code * 2 ^ 16 + x.coalesced)
  else BitVec.ofNat 32 (4 * 2 ^ 29 + x.code * 2 ^ 16 + s.boot.stage * 2 ^ 12 + x.coalesced)

/-- Four bytes of a byte store as a word. -/
def wordAt (m : SMap Byte) (o : Nat) : Word := BitVec.ofNat 32 (leNat (smGetList 0 m o 4))

/-- R12, R378: the bits of a dword of the command area that are not reserved. -/
def cmdMask (k : Nat) : Word :=
  match k with
  | 0 => 0x0000FFFF
  | 4 => 0x00000001
  | 12 => 0x0000FFFF
  | _ => 0xFFFFFFFF

/-- A dword of a port's mailboxes (R378); o counts from offset 0x1_0000. MBX_DOORBELL is write-only. -/
def mbxWord (s : State) (x : HostPort) (o : Nat) : Word :=
  let m := mbxOf x (o / 1024)
  let k := o % 1024
  if k < 0x100 then wordAt m.cmd k &&& cmdMask k
  else if k < 0x200 then wordAt m.resp (k - 0x100)
  else if k = 0x204 then mbxStatusWord s m
  else 0

/-- An MSI-X vector. -/
def vecOf (x : HostPort) (v : Nat) : MsixVec := smGet vec0 x.vecs v

/-- A dword of the MSI-X table (PCIe): address, upper address, data, vector control. -/
def msixWord (x : HostPort) (o : Nat) : Word :=
  let v := vecOf x (o / 16)
  match o % 16 with
  | 0 => loOf v.addr.toNat
  | 4 => hiOf v.addr.toNat
  | 8 => v.data
  | _ => BitVec.ofNat 32 (b2n v.masked)

/-- A dword of the MSI-X pending bit array. -/
def pbaWord (x : HostPort) (o : Nat) : Word :=
  BitVec.ofNat 32 (((List.range 32).filter (fun i => x.pend.contains (8 * o + i))).foldl (fun n i => n + 2 ^ i) 0)

/-- MESH_PART.PWR (R185). -/
def partPwr (q : PartSt) : Nat := if q.draining then 1 else if q.powering then 3 else if q.powered then 0 else 2

/-- MESH_PART (R185). -/
def meshPartWord (s : State) (n : Nat) : Word :=
  let q := partOf s n
  if !q.on then 0
  else BitVec.ofNat 32 (2 ^ 31 + q.port * 2 ^ 30 + q.mode * 2 ^ 28 + q.gang * 2 ^ 26 + partPwr q * 2 ^ 24 + q.fmask)

/-- A tier has been trained; until then Kiln holds its frames (R234). -/
def tierTrained (m : MemState) (tier : Nat) : Bool := (List.range 16).any (fun i => (memDevOf m tier i).trained)

/-- TMAP_ (R234). -/
def tmapWord (s : State) (o : Nat) : Word :=
  let m := s.mem
  match o with
  | 0x0 => BitVec.ofNat 32 (if tierTrained m 0 then freeFrames m 0 true else 0)
  | 0x4 => BitVec.ofNat 32 (if tierTrained m 1 then freeFrames m 1 (ddrFitted s) else 0)
  | 0x8 => BitVec.ofNat 32 (min (m.retired.filter (fun r => r.1 == 1)).length 0xFFFF * 2 ^ 16
      + min (m.retired.filter (fun r => r.1 == 0)).length 0xFFFF)
  | 0xC => BitVec.ofNat 32 (b2n m.faultOn * 2 ^ 31 + m.faultPage)
  | 0x10 => BitVec.ofNat 32 (m.faultSt * 2 ^ 24 + m.faultMov * 2 ^ 8 + m.faultPart)
  | _ => 0

/-- MOV_ (R234). -/
def movWord (s : State) (o : Nat) : Word :=
  let m := moverOf s (o / 16)
  if 64 ≤ o / 16 then 0
  else
    match o % 16 with
    | 0 => BitVec.ofNat 32 (min m.queue.length 1024 * 2 ^ 16)
    | 4 => m.late
    | 8 => movErrWord m
    | _ => 0

/-- HBM_ and DDR_ (R230, R234, R359): a stack is throttled by the cap's gaps and by its thermal stage. -/
def memWord (s : State) (tier o : Nat) : Word :=
  let d := memDevOf s.mem tier (o / 8)
  if (if tier = 0 then 16 else 12) ≤ o / 8 then 0
  else if o % 8 = 0 then memErrWord d
  else memStatWord tier { d with throttled := d.throttled || decide (0 < s.pwr.hgap) }

/-- The link registers (R259). -/
def linkWord (s : State) (o : Nat) : Word :=
  let p := portOf s.lk (o / 32)
  if 96 ≤ o / 32 then 0
  else
    match o % 32 with
    | 0x00 => linkStatWord p
    | 0x04 => loOf p.peerUnit.toNat
    | 0x08 => p.hiLatch
    | 0x0C => p.fec
    | 0x10 => p.bad
    | 0x14 => p.resendCnt
    | 0x18 => linkTrainWord p s.clock
    | _ => BitVec.ofNat 32 p.rtt

/-- OE_STAT and OE_BLADE (R259). -/
def oeWord (s : State) (o : Nat) : Word :=
  if o % 16 ≠ 0 then 0
  else if o < 0xC0 then BitVec.ofNat 32 (wrapInt 8 (sensorOf s.pwr 2 (o / 16)).2 * 2 ^ 24 + upMask s.lk (o / 16))
  else if 0x100 ≤ o ∧ o < 0x160 then bladeWord (bladeOf s.lk ((o - 0x100) / 16))
  else 0

/-- LINK_MAP and the fabric registers (R292). -/
def fabWord (s : State) (o : Nat) : Word :=
  if o < 0x180 then smGet 0 s.fab.map (o / 4)
  else
    match o with
    | 0x200 => faddrWord s.fab
    | 0x204 => fsizeWord s.fab
    | 0x208 => loOf (ftimeNs s.fab)
    | 0x20C => s.fab.hiLatch
    | 0x210 => ftstatWord s.fab
    | _ => 0

/-- RED_ (R293). -/
def redWord (s : State) (o : Nat) : Word :=
  let r := s.fab.red
  if o < 0x180 then (if o % 16 = 0 then redStatWord r (o / 16) else 0)
  else if 0x200 ≤ o ∧ o < 0x280 then
    let p := (o - 0x200) / 16
    match o % 16 with
    | 0 => smGet 0 r.sat p
    | 4 => smGet 0 r.flush p
    | 8 => smGet 0 r.nan p
    | _ => 0
  else 0

/-- EMB_ and DIG_ of a stream (R320). -/
def embWord (e : EmberSt) (k : Nat) : Word :=
  match k with
  | 0x00 => BitVec.ofNat 32 (b2n e.valid * 2 ^ 31 + e.part * 2 ^ 28 + e.ewin * 2 ^ 24 + e.cord * 2 ^ 12)
  | 0x04 => BitVec.ofNat 32 (e.bofs * 2 ^ 16 + e.brank)
  | 0x08 => BitVec.ofNat 32 e.wspan
  | 0x0C => BitVec.ofNat 32 e.shard
  | 0x10 => BitVec.ofNat 32 (min e.count 0xFFFFFFF)
  | 0x14 => BitVec.ofNat 32 e.buf0
  | 0x18 => BitVec.ofNat 32 e.buf1
  | 0x1C => BitVec.ofNat 32 (b2n e.valid0 * 2 ^ 31 + b2n e.valid1 * 2 ^ 30 + b2n e.wbuf * 2 ^ 29 + b2n e.range * 2 ^ 28
      + b2n e.xlate * 2 ^ 27 + b2n e.ue * 2 ^ 26)
  | 0x20 => e.vstep0
  | 0x24 => e.vstep1
  | 0x28 => BitVec.ofNat 32 (b2n e.digEn * 2 ^ 31 + e.vcord * 2 ^ 16 + e.every)
  | 0x2C => loOf e.key.toNat
  | 0x30 => hiOf e.key.toNat
  | 0x34 => loOf e.acc.toNat
  | 0x38 => e.accHi
  | 0x3C => BitVec.ofNat 32 e.dcount
  | _ => 0

/-- DIG_LS_ (R335). -/
def lsWord (s : State) (o : Nat) : Word :=
  let x := s.kiln.ls
  match o with
  | 0x0 => BitVec.ofNat 32 (b2n x.enable * 2 ^ 31 + x.part * 2 ^ 28 + x.link * 2 ^ 21 + x.logsz * 2 ^ 12)
  | 0x4 => BitVec.ofNat 32 (b2n x.diverged * 2 ^ 31 + b2n x.lost * 2 ^ 30 + lsLag x % 2 ^ 14 * 2 ^ 16 + min x.mismatch 0xFFFF)
  | 0x8 => x.rep0
  | 0xC => x.rep1
  | 0x10 => x.rep2
  | _ => 0

/-- KLN_DCLASS (R327): characters of the determinism class string. -/
def dclassWord (s : State) (n : Nat) : Word := BitVec.ofNat 32 (leNat ((List.range 4).map (fun i => s.kiln.dclass.getD (4 * n + i) 0)))

/-- PWR_VIN (R367). -/
def pwrVinWord (w : PwrState) : Word := BitVec.ofNat 32 (min w.vinMv 0xFFFF * 2 ^ 16 + w.vinCurr)

/-- PWR_ (R367). -/
def pwrWord (s : State) (o : Nat) : Word :=
  let w := s.pwr
  if o < 0x100 then
    match o with
    | 0x0 => pwrVinWord w
    | 0x4 => BitVec.ofNat 32 w.watts
    | 0x8 => pwrCapWord w
    | 0xC => pwrEmergWord s.clock w
    | 0x10 => pwrConvWord w
    | _ => 0
  else if o < 0x180 then pwrFieldWord w ((o - 0x100) / 16) (o % 16)
  else if 0x200 ≤ o ∧ o < 0x400 then pwrRegionWord w ((o - 0x200) / 4)
  else if 0x400 ≤ o ∧ o < 0x480 then
    match o % 16 with
    | 0 => pwrPolicyWord w ((o - 0x400) / 16)
    | 4 => loOf (policyOf w ((o - 0x400) / 16)).energy
    | 8 => smGet 0 w.hiLatch o
    | _ => 0
  else if o = 0x480 then loOf w.idle
  else if o = 0x484 then smGet 0 w.hiLatch o
  else 0

/-- THM_ (R368). -/
def thmRegWord (s : State) (o : Nat) : Word :=
  let w := s.pwr
  if o < 0x200 then thmWord w 0 (o / 4)
  else if o < 0x240 then thmWord w 1 ((o - 0x200) / 4)
  else if o < 0x260 then thmWord w 3 ((o - 0x240) / 4)
  else if o < 0x2A0 then thmWord w 4 ((o - 0x260) / 4)
  else if o < 0x2D0 then thmWord w 2 ((o - 0x2A0) / 4)
  else if o = 0x300 then thmTripWord w
  else 0

/-- Watchdog restarts of the last 600 s (R410, R411). -/
def recentRestarts (s : State) : Nat := (s.kiln.wdTimes.filter (fun t => decide (s.clock < t + 600 * secCycles))).length

/-- KLN_WDOG (R411). -/
def klnWdogWord (s : State) : Word :=
  BitVec.ofNat 32 (min s.kiln.wdTotal 0xFFFF * 2 ^ 16 + min (recentRestarts s) 15 * 2 ^ 12 + s.kiln.wdCause * 2 ^ 10 + s.kiln.wdCore * 2 ^ 8)

/-- KLN_LOAD (R411). -/
def klnLoadWord (s : State) : Word :=
  BitVec.ofNat 32 (s.kiln.busy * 2 ^ 24 + s.kiln.decim * 2 ^ 16 + min 0xFFFF (s.kiln.queued.foldl (· + ·) 0))

/-- KLN_ (R411). -/
def klnWord (s : State) (o : Nat) : Word :=
  let k := s.kiln
  match o with
  | 0x00 => BitVec.ofNat 32 (k.stat * 2 ^ 30 + (liveCtxs s).length)
  | 0x04 => klnWdogWord s
  | 0x08 => klnLoadWord s
  | 0x30 => k.logSeq
  | 0x34 => k.logLost
  | 0x38 => loOf k.traceEn.toNat
  | 0x3C => hiOf k.traceEn.toNat
  | 0x40 => k.traceLost
  | _ =>
    if 0x10 ≤ o ∧ o < 0x2C then
      BitVec.ofNat 32 (min (nth0 k.cbusy ((o - 0x10) / 4)) 0xFF * 2 ^ 24 + min 0xFFFF (nth0 k.queued ((o - 0x10) / 4)))
    else 0

/-- BOOT_SAVED (R432). -/
def bootSavedWord (b : BootState) : Word :=
  BitVec.ofNat 32 (b2n b.savedOn * 2 ^ 31 + b.reason * 2 ^ 28 + min b.age 0xFFF * 2 ^ 16 + wrapInt 8 b.stemp * 2 ^ 8 + wrapInt 8 b.mtemp)

/-- BOOT_RESET (R432). -/
def bootResetWord (b : BootState) : Word :=
  BitVec.ofNat 32 (b.rLevel * 2 ^ 29 + b2n b.rSelf * 2 ^ 28 + b2n b.rActive * 2 ^ 27 + b.rStatus * 2 ^ 16 + min b.rCount 0xFFFF)

/-- BOOT_ (R432). -/
def bootWord (s : State) (o : Nat) : Word :=
  if o < 0x24 then smGet 0 s.boot.reports (o / 4)
  else if o = 0x40 then bootSavedWord s.boot
  else if o = 0x44 then bootResetWord s.boot
  else 0

/-- VERSION of an image's header (R441). -/
def hdrVersion (h : List Byte) : Nat := beNat ((h.drop 10).take 4)

/-- VERSION of an image in flash, 0 where there is none. -/
def imgVersion (i : Option FwImage) : Nat :=
  match i with
  | some x => hdrVersion x.header
  | none => 0

/-- VERSION of STAGING, 0 when EMPTY (R454). -/
def stagedVersion (s : State) : Nat :=
  match s.flash.staging with
  | 0 => 0
  | 1 => (match s.upd.header with | some h => hdrVersion h.1 | none => 0)
  | _ => imgVersion s.flash.staged

/-- UPD_STATE (R454). -/
def updStateWord (s : State) : Word :=
  BitVec.ofNat 32 (s.flash.staging * 2 ^ 30 + s.flash.copy * 2 ^ 27 + s.flash.tries % 4 * 2 ^ 25 + s.boot.booted * 2 ^ 23 + min s.upd.rxKib 4096)

/-- R447: the conditions of an activation that do not hold: bit 0 fabric time, bit 1 emergency, bit 2 contexts. -/
def actUnmet (s : State) : Nat :=
  b2n (decide (s.upd.actTime ≠ 0) && !s.fab.ftValid) + 2 * b2n (emergAny s.pwr || decide (emergClears s.clock s.pwr < 10))
    + 4 * b2n ((liveCtxs s).any (fun c => (ctxOf s c).st != .paused))

/-- UPD_ACT (R454): a due activation waits for fabric time or the end of an emergency, or pauses contexts. -/
def updActWord (s : State) : Word :=
  let u := s.upd
  let n := if u.actSt = 2 then actUnmet s else u.unmet
  BitVec.ofNat 32 ((if u.actSt = 2 ∧ n % 4 = 0 then 3 else u.actSt) * 2 ^ 29 + n * 2 ^ 26 + u.actWin)

/-- UPD_ (R454): the values stand from the start of Kindling on. -/
def updWord (s : State) (o : Nat) : Word :=
  if !s.boot.running then 0
  else
    match o with
    | 0x00 => BitVec.ofNat 32 (imgVersion s.flash.active)
    | 0x04 => BitVec.ofNat 32 (imgVersion s.flash.previous)
    | 0x08 => BitVec.ofNat 32 (stagedVersion s)
    | 0x0C => BitVec.ofNat 32 s.flash.counter
    | 0x10 => updStateWord s
    | 0x14 => updActWord s
    | 0x18 => loOf s.upd.actTime.toNat
    | 0x1C => s.upd.hiLatch
    | _ => 0

/-- SEC_STAT (R454). -/
def secWord (s : State) : Word :=
  BitVec.ofNat 32 (b2n s.boot.idValid * 2 ^ 31 + b2n (s.flash.chainRec.valid && decide (1 ≤ s.boot.stage)) * 2 ^ 30 + min s.boot.pufCorr 0xFFFF)

/-- The tile registers as a host reads them (R8, R133); 0 while the partition is off (R183). -/
def tileWord (s : State) (o : Nat) : Word := if tilePowered s (o / 1024) then tileRegAt s (o / 1024) (o % 1024) else 0

/-- R374: the first 4 KiB. -/
def hostWord (s : State) (p o : Nat) : Word :=
  match o with
  | 0x0 => mbxStartWord s
  | 0x10 => mbxHostWord s 0
  | 0x14 => mbxHostWord s 1
  | 0x20 => mbxBar2Word (hostOf s p)
  | 0x24 => bar2FaultWord (hostOf s p)
  | _ => 0

/-- R374: a device register of the regions from 0xA0_0000, by its 64 KiB page. -/
def devWord (s : State) (page o : Nat) : Word :=
  match page with
  | 0xA0 => if o < 0x20 then meshPartWord s (o / 4) else 0
  | 0xA1 => if o < 0x200 then clkRegionWord s.pwr (o / 4) (regionPolicy s (o / 4)) else 0
  | 0xA2 => tmapWord s o
  | 0xA3 => movWord s o
  | 0xA4 => memWord s 0 o
  | 0xA5 => memWord s 1 o
  | 0xA6 => linkWord s o
  | 0xA7 => oeWord s o
  | 0xA8 => fabWord s o
  | 0xA9 => redWord s o
  | 0xAA => if o < 0x200 then embWord (emberOf s (o / 0x40)) (o % 0x40) else 0
  | 0xAB => lsWord s o
  | 0xAC => if o < 0x20 then dclassWord s (o / 4) else 0
  | 0xAD => pwrWord s o
  | 0xAE => thmRegWord s o
  | 0xAF => klnWord s o
  | 0xB0 => bootWord s o
  | 0xB1 => updWord s o
  | 0xB2 => if o = 0 then secWord s else 0
  | _ => 0

/-- R374, R375: an aligned 32-bit read of BAR0 through a port; an offset that no table defines reads 0. -/
def bar0Word (s : State) (p off : Nat) : Word :=
  if off < 0x1000 then hostWord s p off
  else if 0x10000 ≤ off ∧ off < 0x14000 then mbxWord s (hostOf s p) (off - 0x10000)
  else if 0x30000 ≤ off ∧ off < 0x38000 then msixWord (hostOf s p) (off - 0x30000)
  else if 0x38000 ≤ off ∧ off < 0x38100 then pbaWord (hostOf s p) (off - 0x38000)
  else if 0x800000 ≤ off ∧ off < 0xA00000 then tileWord s (off - 0x800000)
  else devWord s (off / 65536) (off % 65536)

/-- R203, R259, R292, R320, R367, R454: a read of a LO register latches its HI partner. -/
def bar0Latch (s : State) (off : Nat) : State :=
  let o := off % 65536
  if 0x800000 ≤ off ∧ off < 0xA00000 then
    let t := (off - 0x800000) / 1024
    if tilePowered s t then updTile s t (fun x => tileLatch x (off % 1024)) else s
  else
    match off / 65536 with
    | 0xA6 => if o / 32 < 96 ∧ o % 32 = 4 then updLink s (o / 32) (fun p => { p with hiLatch := hiOf p.peerUnit.toNat }) else s
    | 0xA8 => if o = 0x208 then { s with fab := { s.fab with hiLatch := hiOf (ftimeNs s.fab) } } else s
    | 0xAA => if o < 0x200 ∧ o % 0x40 = 0x34 then setEmber s (o / 0x40) { emberOf s (o / 0x40) with accHi := hiOf (emberOf s (o / 0x40)).acc.toNat } else s
    | 0xAD =>
      if 0x400 ≤ o ∧ o < 0x480 ∧ o % 16 = 4 then
        { s with pwr := { s.pwr with hiLatch := smSet 0 s.pwr.hiLatch (o + 4) (hiOf (policyOf s.pwr ((o - 0x400) / 16)).energy) } }
      else if o = 0x480 then { s with pwr := { s.pwr with hiLatch := smSet 0 s.pwr.hiLatch 0x484 (hiOf s.pwr.idle) } }
      else s
    | 0xB1 => if o = 0x18 then { s with upd := { s.upd with hiLatch := hiOf s.upd.actTime.toNat } } else s
    | _ => s

end Sys2Proof.Machine
end

