-- ==== Sys2Proof/Machine/BootOps.lean ====
section
/-! DEFINITION. Kindling's reports and stops, and the transfer service's end, as other parts of the module meet them
(spec/16_bringup_and_reset.md R412 to R415, R426, spec/17_identity_and_update.md R445). -/

namespace Sys2Proof.Machine

/-- BOOT_REPORTn (R432): RESULT 1 running, 2 passed, 3 stopped. -/
def reportWord (code result : Nat) (fast skipped : Bool) (ms : Nat) : Word :=
  BitVec.ofNat 32 (code * 2 ^ 24 + result * 2 ^ 22 + b2n fast * 2 ^ 21 + b2n skipped * 2 ^ 20 + min ms 0xFFFFF)

/-- Writing a stage's report register. -/
def setReport (s : State) (n : Nat) (w : Word) : State :=
  { s with boot := { s.boot with reports := smSet 0 s.boot.reports n w } }

/-- R413: a report of Kiln's: the register, and the KINDLING_REPORT record. -/
def postReport (s : State) (n : Nat) (w : Word) : State := postAll (setReport s n w) 0x01 [w.toNat, n]

/-- R432: a stage from Stage 3 on uses saved settings or short tests in a fast start. -/
def fastStage (s : State) (n : Nat) : Bool := decide (3 ≤ n) && s.boot.savedOn

/-- R413: a stage begins. -/
def beginStage (s : State) (n : Nat) : State :=
  postReport { s with boot := { s.boot with stage := n, code := 0, stageAt := s.clock } } n (reportWord 0 1 (fastStage s n) false 0)

/-- R413: a stage ends with a stopping code; no later stage runs. -/
def stopKindling (s : State) (n code ms : Nat) : State :=
  postReport { s with boot := { s.boot with state := 1, code := code } } n (reportWord code 3 (fastStage s n) false ms)

/-- R412, R413: a stage has passed, with a code that does not stop, and the next begins. -/
def passStage (s : State) (n code ms : Nat) : State :=
  beginStage (postReport s n (reportWord code 2 (fastStage s n && code != 0x60) (code == 0x60) ms)) (n + 1)

/-- A stage runs: Kindling has reached it and not stopped, and Kiln is not restarting. Stage 0 is the boot ROM's. -/
def inStage (s : State) (n : Nat) : Bool :=
  s.boot.running && s.boot.stage == n && s.boot.state == 0 && (n == 0 || s.kiln.stat != 2)

/-- R426: a trip during Stage 3 or Stage 4 stops Kindling: with CALIBRATION, or with TILE_SPARE (DEDUCED: the first code of Stage 4). -/
def tripInStage (s : State) : State :=
  let ms := (s.clock - s.boot.stageAt) / 1600000
  if inStage s 3 then stopKindling s 3 0x32 ms else if inStage s 4 then stopKindling s 4 0x41 ms else s

/-- R445: a transfer ends before FINISH_RESULT OK: STAGING is EMPTY, the connection is gone. -/
def endTransfer (s : State) : State :=
  { s with
    flash := if s.flash.staging = 1 then s.flash.dropStaged else s.flash
    upd := { s.upd with conn := false, header := none, body := [] } }

end Sys2Proof.Machine
end

