-- ==== Sys2Proof/Machine/HostOps.lean ====
section
/-! DEFINITION. What a host's accesses do: register writes, doorbells, BAR2, posted writes that wait, port resets and host loss
(spec/14_host_interface.md R371 to R391). -/

namespace Sys2Proof.Machine

/-- R371, R373: the port's link is up and its BARs are decoded. -/
def decodes (x : HostPort) : Bool := x.linkUp && !x.d3hot

/-- The partitions that a port owns (R377, R388). -/
def ownedParts (s : State) (p : Nat) : List Nat := (allParts s).filter (fun n => (partOf s n).port == p)

/-- Setting a mailbox. -/
def setMbx (x : HostPort) (m : Nat) (y : Mbx) : HostPort := { x with mbx := smSet mbx0 x.mbx m y }

/-- R379, R380: RING: the command area is latched in IDLE and DONE, and coalesced while a command is pending or running; one rung before
its RETRY_AFTER has passed is marked. -/
def ringMbx (clock : Nat) (y : Mbx) : Mbx :=
  if y.st = 1 ∨ y.st = 2 then { y with coalesced := min (y.coalesced + 1) 0xFF }
  else { y with st := 1, latched := smGetList 0 y.cmd 0 256, rungAt := clock, early := decide (clock < y.busyTill) }

/-- R379: ACK: DONE becomes IDLE. -/
def ackMbx (y : Mbx) : Mbx := if y.st = 3 then { y with st := 0 } else y

/-- R12, R379: a write to the command area, discarded while a command is pending or running; the reserved bits of FLAGS are ignored. -/
def writeCmd (y : Mbx) (o : Nat) (v : Word) : Mbx :=
  if y.st = 1 ∨ y.st = 2 then y else { y with cmd := smSetList 0 y.cmd o (leBytes 4 (if o = 4 then v &&& ~~~0xFE#32 else v).toNat) }

/-- R378, R379: a write to a dword of a mailbox. -/
def writeMbx (clock : Nat) (y : Mbx) (k : Nat) (v : Word) : Mbx :=
  if k < 0x100 then writeCmd y k v
  else if k = 0x200 then
    let y1 := if v.getLsbD 1 then ackMbx y else y
    if v.getLsbD 0 then ringMbx clock y1 else y1
  else y

/-- R386: a write to a dword of the MSI-X table. -/
def writeMsix (x : HostPort) (o : Nat) (v : Word) : HostPort :=
  let y := vecOf x (o / 16)
  let z := match o % 16 with
    | 0 => { y with addr := hiOf y.addr.toNat ++ v }
    | 4 => { y with addr := v ++ loOf y.addr.toNat }
    | 8 => { y with data := v }
    | _ => { y with masked := v.getLsbD 0 }
  { x with vecs := smSet vec0 x.vecs (o / 16) z }

/-- R10: clearing the W1C fields of a stream's EMB_STAT. -/
def clearEmber (e : EmberSt) (v : Word) : EmberSt :=
  { e with range := e.range && !v.getLsbD 28, xlate := e.xlate && !v.getLsbD 27, ue := e.ue && !v.getLsbD 26 }

/-- R10: the W1C fields of the shared device registers; every other write to them is ignored. -/
def writeDev (s : State) (page o : Nat) (v : Word) : State :=
  match page with
  | 0xA2 => if o = 0xC ∧ v.msb then { s with mem := { s.mem with faultOn := false } } else s
  | 0xA3 => if o / 16 < 64 ∧ o % 16 = 8 ∧ v.msb then setMover s (o / 16) { moverOf s (o / 16) with errOn := false } else s
  | 0xA9 =>
    if o < 0x180 ∧ o % 16 = 0 ∧ v.msb then
      updFab s (fun f => { f with red := { f.red with stall := smSet 0 f.red.stall (o / 16) 0 } })
    else s
  | 0xAA => if o < 0x200 ∧ o % 0x40 = 0x1C then setEmber s (o / 0x40) (clearEmber (emberOf s (o / 0x40)) v) else s
  | 0xAB =>
    if o = 4 then
      { s with kiln := { s.kiln with ls := { s.kiln.ls with
        diverged := s.kiln.ls.diverged && !v.getLsbD 31, lost := s.kiln.ls.lost && !v.getLsbD 30 } } }
    else s
  | 0xAD => if o = 0xC ∧ v.getLsbD 7 then updPwr s (fun w => { w with trip := false }) else s
  | 0xAE => if o = 0x300 ∧ v.msb then updPwr s (fun w => { w with tripOn := false }) else s
  | _ => s

/-- R381: Kiln may wake for a mailbox: 1 µs has passed since its last wake. -/
def mayWake (s : State) (y : Mbx) : Bool :=
  match y.wakeAt with
  | some t => decide (t + 1600 ≤ s.clock)
  | none => true

/-- R393, R394: the waiting mailbox commands, as tasks of class 4. -/
def mbxTasks (s : State) : List KTask :=
  (List.range 32).filterMap (fun i =>
    let y := mbxOf (hostOf s (i / 16)) (i % 16)
    if y.st = 1 ∧ mayWake s y then some ⟨4, y.rungAt, i⟩ else none)

/-- R381, R389, R396: Kiln may serve a context's RING_DB now: it runs, 1 µs has passed since its last wake for it, and no mailbox
was rung in the same cycle. -/
def dbReady (s : State) (c : Nat) : Bool :=
  kilnUp s && (match (ctxOf s c).dbAt with
    | some t => decide (t + 1600 ≤ s.clock)
    | none => true) && (mbxTasks s).all (fun k => k.since != s.clock)

/-- R385: Kiln wakes for a context's RING_DB and reads the ring. -/
def serveDb (s : State) (c : Nat) : State :=
  let s1 := updCtx s c (fun x => { x with dbAt := some s.clock, dbWait := false })
  settleCtx (readSubs s1 c (2 ^ (ctxOf s c).sub.logsz)) c

/-- R381, R385, R388: a RING_DB write to a context: its owner's makes Kiln read the ring, at its next wake; another port's is discarded and
counted. -/
def ringDbNow (s : State) (port c : Nat) : State :=
  if !ctxLive s c then s
  else if (ctxOf s c).port ≠ port then updHost s port (fun x => { x with foreign := min (x.foreign + 1) 0xFF })
  else if dbReady s c then serveDb s c
  else updCtx s c (fun x => { x with dbWait := true })

/-- R381, R389: the doorbells that wait, by ascending context. -/
def wakeRings (s : State) : State :=
  (liveCtxs s).foldl (fun x c => if (ctxOf x c).dbWait && dbReady x c then serveDb x c else x) s

/-- One idle IR cycle, with the doorbells that Kiln serves in it. -/
def idleStep (s : State) : State := wakeRings (idleTick s)

/-- R10, R374, R375: an aligned 32-bit write to BAR0 takes effect. The tile windows are read-only to a host (R133). -/
def regWriteNow (s : State) (p off : Nat) (v : Word) : State :=
  if 0x10000 ≤ off ∧ off < 0x14000 then
    let m := (off - 0x10000) / 1024
    updHost s p (fun x => setMbx x m (writeMbx s.clock (mbxOf x m) ((off - 0x10000) % 1024) v))
  else if 0x20000 ≤ off ∧ off < 0x20800 then (if off % 8 = 0 then ringDbNow s p ((off - 0x20000) / 8) else s)
  else if 0x30000 ≤ off ∧ off < 0x38000 then updHost s p (fun x => writeMsix x (off - 0x30000) v)
  else if off = 0x24 then (if v.msb then updHost s p (fun x => { x with b2On := false }) else s)
  else writeDev s (off / 65536) (off % 65536) v

/-- R376: a write posted behind one that waits takes its turn after it. -/
def postReg (s : State) (p off : Nat) (v : Word) : State :=
  if (hostOf s p).waitWr.isEmpty then regWriteNow s p off v
  else updHost s p (fun x => { x with waitWr := x.waitWr ++ [.reg off v] })

/-- R377: a BAR2 write to a virtual address: none where it waits on MOVING. -/
def memWriteNow (s : State) (p va : Nat) (data : List Byte) : Option State :=
  match translateRange (seenMem s.mem) va data.length (ownedParts s p) true with
  | .ok _ _ => some { s with mem := seenWrite s.mem va data }
  | .wait => none
  | .bad st => some (updHost s p (fun x => bar2Fault x true st))

/-- R376, R377: a port's waiting writes, in order, until one must wait again. -/
def drainPort (s : State) (p : Nat) : Nat → State
  | 0 => s
  | n + 1 =>
    match (hostOf s p).waitWr with
    | [] => s
    | w :: ws =>
      let pop := fun (x : State) => updHost x p (fun y => { y with waitWr := ws })
      match w with
      | .reg off v => drainPort (regWriteNow (pop s) p off v) p n
      | .mem va data =>
        match memWriteNow s p va data with
        | none => s
        | some t => drainPort (pop t) p n

/-- R211, R377: the host writes that waited for a migration. -/
def drainPorts (s : State) : State :=
  (List.range 2).foldl (fun x p => drainPort x p (hostOf x p).waitWr.length) s

/-- R379: a mailbox that a port reset or host loss returns to IDLE with both areas 0. -/
def clearMbx (y : Mbx) : Mbx := { y with st := 0, cmd := [], resp := [], latched := [], rungAt := 0, wakeAt := none, busyTill := 0, early := false }

/-- The mailboxes of a port after a reset or host loss. -/
def clearMbxs (x : HostPort) : HostPort :=
  (List.range 16).foldl (fun y m => setMbx y m (clearMbx (mbxOf y m))) x

/-- R391, R402: a context pauses at its next step boundary. -/
def pauseCtx (x : Ctx) : Ctx := if x.run.isSome then { x with pauseReq := true } else { x with st := .paused }

/-- R391: a host is declared lost: its mailboxes clear, HOST_LOST is posted to the other port, its contexts pause, the hold of 120
s begins. -/
def hostLost (s : State) (p : Nat) : State :=
  let s1 := updHost s p clearMbxs
  if (hostOf s p).st ≠ 1 then s1
  else
    let s2 := updHost s1 p (fun x => { x with st := 2, hold := some (s.clock + 120 * secCycles), same := 0, beat := none })
    postEvent ((portCtxs s2 p).foldl (fun x c => updCtx x c pauseCtx) s2) [1 - p] 0x11 none [p]

/-- R373: the port's configuration space, MSI-X table and MBX_BAR2 at their reset values. -/
def clearPort (x : HostPort) : HostPort :=
  { x with
    bar2 := none
    barLog := 6
    aer := false
    d3hot := false
    busMaster := false
    msixOn := false
    fmask := false
    vecs := []
    pend := []
    sentAt := [] }

/-- R387: a vector's message may be sent. A vector sends at most one message per microsecond (1,600 IR cycles). -/
def mayMsix (s : State) (x : HostPort) (v : Nat) : Bool :=
  x.pend.contains v && decodes x && x.msixOn && x.busMaster && !x.fmask && !(vecOf x v).masked && x.st != 2
    && (smGet 0 x.sentAt v == 0 || decide (smGet 0 x.sentAt v + 1600 ≤ s.clock + 1))

/-- R213, R391, R457: unmapping a page: its frame returns to Kiln. The entry of a moving page stays until its migration has ended. -/
def unmapPage (s : State) (page : Nat) (zero : Bool) : State :=
  let e := tmapGet s.mem page
  if !teValid e then s
  else if teMoving e then
    { s with mem := { s.mem with
      unmapWait := s.mem.unmapWait.filter (fun u => u.1 != page) ++ [(page, zero || s.mem.unmapWait.contains (page, true))] } }
  else { s with mem := unmapNow s.mem page zero }

/-- The mapped pages of a list of partitions. -/
def partPages (s : State) (ps : List Nat) : List Nat :=
  (s.mem.tmap.filter (fun e => teValid e.2 && ps.contains (tePart e.2))).map (·.1)

/-- R391, R429: the cord entries of a list of partitions become invalid. -/
def dropCords (s : State) (ps : List Nat) : State :=
  updFab s (fun f => { f with cords := f.cords.filter (fun e => !(e.2.valid && ps.contains e.2.part)) })

/-- R391, R429: what a list of partitions holds ends: contexts, mapped pages with zeros in their frames, cords, and the partitions. -/
def tearDown (s : State) (cs ps : List Nat) : State :=
  let s1 := cs.foldl endCtx s
  let s2 := (partPages s1 ps).foldl (fun x n => unmapPage x n true) s1
  ps.foldl removePart (dropCords s2 ps)

end Sys2Proof.Machine
end

