-- ==== Sys2Proof/Machine/MemoryRows.lean ====
section
/-! DEFINITION. The meanings of the ring, mover and memory commands (spec/06_die_mesh_and_groupings.md R175, spec/08_memory_tiers.md R209 to
R228, spec/10_fabric_and_cords.md R278 to R281). -/

namespace Sys2Proof.Machine

/-- EDGE_SLOT_FILL (R175): the ring builds the flit that the tile of edge port e consumes in a logical cycle. -/
def execEdgeSlotFill (e : Fin 188) (cyc : Nat) (s : State) : Host.Outcome State Fault Refusal := .next (edgeFill s e.val cyc)

/-- MOVER_REQUEST (R214): the oldest descriptor at an edge port reaches its mover. -/
def execMoverRequest (e : Fin 188) (s : State) : Host.Outcome State Fault Refusal := .next (moverEnter s e.val)

/-- GET (R217): a mover copies words from a virtual address into the slot. -/
def execGet (m : Fin 64) (pos : Nat) (s : State) : Host.Outcome State Fault Refusal := .next (moverGet s m.val pos)

/-- PUTM (R217): a mover starts to write the slot's words to a virtual address. -/
def execPutm (m : Fin 64) (pos : Nat) (s : State) : Host.Outcome State Fault Refusal := .next (moverPutm s m.val pos)

/-- GETW (R217): a mover copies words from a virtual address to another tile's window. -/
def execGetw (m : Fin 64) (pos : Nat) (s : State) : Host.Outcome State Fault Refusal := .next (moverGetw s m.val pos)

/-- CGET (R217): a mover copies words at a cluster address into the slot. -/
def execCget (m : Fin 64) (pos : Nat) (s : State) : Host.Outcome State Fault Refusal := .next (moverCget s m.val pos)

/-- CPUT (R217): a mover writes the slot's words to a cluster address. -/
def execCput (m : Fin 64) (pos : Nat) (s : State) : Host.Outcome State Fault Refusal := .next (moverCput s m.val pos)

/-- MIGRATE (R222): a mover starts the migration of a page. -/
def execMigrate (m : Fin 64) (pos : Nat) (s : State) : Host.Outcome State Fault Refusal := .next (moverMigrate s m.val pos)

/-- CORD_WRITE (R278): a mover sends the slot's words to one member of a cord. -/
def execCordWrite (m : Fin 64) (pos : Nat) (s : State) : Host.Outcome State Fault Refusal := .next (moverCord s m.val pos 0)

/-- CORD_GATHER (R279): a mover sends the slot's words to every member of a cord. -/
def execCordGather (m : Fin 64) (pos : Nat) (s : State) : Host.Outcome State Fault Refusal := .next (moverCord s m.val pos 1)

/-- CORD_CONTRIB (R281): a mover sends the slot's words as contributions of a cord. -/
def execCordContrib (m : Fin 64) (pos : Nat) (s : State) : Host.Outcome State Fault Refusal := .next (moverCord s m.val pos 2)

/-- VISIBILITY_POINT (R220): the memory controller accepts the last block of a PUTM. -/
def execVisibilityPoint (id : Nat) (s : State) : Host.Outcome State Fault Refusal := .next (visible s id)

/-- R222, R226, R227: a copy that Kiln asked for ends; a frame of the same tier was left for good. -/
def kilnCopyDone (s : State) (g : Migr) : State :=
  if g.tierOld = g.tierNew then retire (migrSwitch s g []) g.tierOld g.old
  else
    let s1 := migrSwitch s g []
    { s1 with mem := { s1.mem with release := s1.mem.release ++ [(g.tierOld, g.old, g.page)] } }

/-- R222, R223: a migration that a tile asked for ends: the old frame waits for its release, the record is delivered. -/
def moverCopyDone (s : State) (g : Migr) (m : Nat) (d : MDesc) (enter : Nat) : State :=
  let s1 := migrSwitch s g []
  let s2 := { s1 with mem := { s1.mem with release := s1.mem.release ++ [(g.tierOld, g.old, g.page)] } }
  migrAnswer s2 m d 0 g.tierNew g.old g.new enter (if g.tierOld = 0 ∧ g.tierNew = 0 then 8000 else 40000)

/-- R222, R225: an uncorrectable error ends a copy: counted, the page stays, and Kiln answers for the frame. -/
def copyError (s : State) (g : Migr) : State :=
  let s1 := { migrAbandon s g with mem := countUe (migrAbandon s g).mem g.tierOld g.old }
  let s2 := match g.who with
    | .mover m d enter => migrUe s1 m d g.tierOld g.old enter
    | _ => s1
  frameBad s2 g.tierOld g.old false

/-- R222: the copy of a page ends, with or without an uncorrectable error, once no write to it is on its way. -/
def copyDone (s : State) (page : Nat) (err : Bool) : State :=
  match s.mem.migr.find? (fun g => g.page == page && g.who != .retire) with
  | none => s
  | some g =>
    if !pageQuiet s page then s
    else if err then copyError s g
    else
      match g.who with
      | .mover m d enter => moverCopyDone s g m d enter
      | _ => kilnCopyDone s g

/-- OLD_FRAME_RELEASE (R222): every read translated to the old frame has completed; the frame returns to Kiln. -/
def execOldFrameRelease (page : Nat) (s : State) : Host.Outcome State Fault Refusal :=
  .next (match s.mem.release.find? (fun r => r.2.2 == page) with
    | none => s
    | some r => { s with mem := { kilnReturn s.mem r.1 r.2.1 with release := s.mem.release.erase r } })

/-- FREE_QUEUE_REFILL (R222): Kiln refills a tier's free queue once it holds fewer than 256 frames. -/
def execFreeQueueRefill (tier : Fin 2) (frames : Nat) (s : State) : Host.Outcome State Fault Refusal :=
  .next (whileKiln s (if (freeQueue s.mem tier.val).length < 256 then
      { s with mem := refillQueue s.mem tier.val (ddrFitted s) (min frames 1024) }
    else s))

/-- R225, R308: who meets an uncorrectable error. What Kiln and a reduction engine do with the error returned to them the spec
does not say. -/
def ueMet (s : State) (who : UeWho) (tier frame : Nat) : State :=
  match who with
  | .mover m => migrMeetsUe (moverMeetsUe s m.val tier frame) tier frame
  | .host p => raiseVec (updHost s p.val (fun x => { bar2Fault x false 0x36 with aer := true })) p.val 19
  | .tap i => emberInvalid (setEmber s i.val { emberOf s i.val with ue := true }) i.val (b2n (emberOf s i.val).wbuf)
  | .engine _ => s
  | .kiln => s

/-- R225, R226: an uncorrectable error of a frame. -/
def memUncorrectable (s : State) (who : UeWho) (tier frame : Nat) : State :=
  frameBad (ueMet { s with mem := countUe s.mem tier frame } who tier frame) tier frame false

/-- R226: a retirement copy ends. -/
def retirementCopy (s : State) (page : Nat) (badBlocks : List Nat) : State :=
  match s.mem.migr.find? (fun g => g.page == page && g.who == .retire) with
  | none => s
  | some g => if !pageQuiet s page then s else pageLost (retire (migrSwitch s g badBlocks) g.tierOld g.old) page

/-- R227: the corrected errors that a frame has reported in the last 24 hours (1.3824 × 10^14 IR cycles), once n more are entered. -/
def reportCe (s : State) (tier frame n : Nat) : State :=
  { s with mem := { countCe s.mem tier frame n with
    ceLog := s.mem.ceLog.filter (fun e => decide (s.clock < e.2.2.1 + 138240000000000)) ++ [(tier, frame, s.clock, n)] } }

/-- R227: a frame has reported 8 or more corrected errors in 24 hours. -/
def ceOver (s : State) (tier frame : Nat) : Bool :=
  decide (8 ≤ (s.mem.ceLog.filter (fun e => e.1 == tier && e.2.1 == frame)).foldl (fun k e => k + e.2.2.2) 0)

/-- CORRECTED_ERROR_LIMIT (R224, R227): a frame reports corrected errors, which are counted; where it has reported 8 or more in
24 hours its page is migrated and it is retired. -/
def execCorrectedErrorLimit (tier : Fin 2) (e : FrameErr) (s : State) : Host.Outcome State Fault Refusal :=
  if tierFrames tier.val (ddrFitted s) ≤ e.frame then .fault .noSuchFrame
  else
    let s1 := reportCe s tier.val e.frame e.count
    .next (if !ceOver s1 tier.val e.frame || isRetired s.mem tier.val e.frame then s1 else frameBad s1 tier.val e.frame true)

/-- SCRUB_ERROR (R226): the scrub finds an error: a mapped page takes the path at the next step boundary, an unmapped frame is retired. -/
def execScrubError (tier : Fin 2) (frame : Nat) (s : State) : Host.Outcome State Fault Refusal :=
  if tierFrames tier.val (ddrFitted s) ≤ frame then .fault .noSuchFrame
  else
    let s1 := { s with mem := countUe s.mem tier.val frame }
    .next (match pagesOf s.mem tier.val frame with
      | page :: _ =>
        (if (runningCtx s (tePart (tmapGet s.mem page))).isSome then
          { s1 with mem := { s1.mem with scrubBad := s1.mem.scrubBad ++ [(tier.val, frame, false)] } }
        else startRetire s1 page .retire)
      | [] => retire s1 tier.val frame)

/-- TMAP_ECC_ERROR (R209, R294): an uncorrectable Tier Map entry ends every context: a multi-module step fails, others end and pause. -/
def execTmapEccError (_page : Nat) (s : State) : Host.Outcome State Fault Refusal :=
  .next ((liveCtxs s).foldl (fun x c =>
    let k := ctxOf x c
    if k.run.isSome then
      (if k.cord.isSome then noteCause x c krFailed 0x11 else failStep x c 0x91 true)
    else updCtx x c (fun y => { y with st := .paused })) s)

end Sys2Proof.Machine
end

