-- ==== Sys2Proof/Machine/RegisterRows.lean ====
section
/-! DEFINITION. The meanings of the register, BAR2, configuration, port and doorbell commands, and of the commands at whose end
posted writes go on (spec/00_scope.md R10, spec/14_host_interface.md R371 to R391, spec/08_memory_tiers.md R222 to R226). -/

namespace Sys2Proof.Machine

/-- REGISTER_WRITE (R10, R375, R376): an aligned 32-bit BAR0 write. -/
def execRegisterWrite (port : Fin 2) (off : Fin 16777216) (v : Word) (s : State) : Host.Outcome State Fault Refusal :=
  .next (if decodes (hostOf s port.val) ∧ off.val % 4 = 0 then postReg s port.val off.val v else s)

/-- LO_READ_LATCH (R203, R375): an aligned 32-bit BAR0 read; a LO register latches its HI partner. -/
def execLoReadLatch (port : Fin 2) (off : Fin 16777216) (s : State) : Host.Outcome State Fault Refusal :=
  .next (if decodes (hostOf s port.val) ∧ off.val % 4 = 0 then
      updHost (bar0Latch s off.val) port.val (fun x => { x with rd := leBytes 4 (bar0Word s port.val off.val).toNat, ca := false })
    else s)

/-- R375: BAR0 accepts the access: an aligned dword or two, or whole dwords of a mailbox command area. -/
def bar0Accepts (off len : Nat) (isWrite : Bool) : Bool :=
  (len == 4 && off % 4 == 0) || (len == 8 && off % 8 == 0)
    || (isWrite && decide (0x10000 ≤ off) && decide (off < 0x14000) && decide (off % 1024 + len ≤ 0x100) && off % 4 == 0
      && len % 4 == 0 && len != 0)

/-- BAR0_INVALID_ACCESS (R375): any other access: a read returns 0 in every byte, a write is discarded; neither has a side effect. -/
def execBar0InvalidAccess (port : Fin 2) (off : Fin 16777216) (isWrite : Bool) (len : Fin 513) (s : State) :
    Host.Outcome State Fault Refusal :=
  .next (if decodes (hostOf s port.val) && !bar0Accepts off.val len.val isWrite && !isWrite then
      updHost s port.val (fun x => { x with rd := List.replicate len.val 0, ca := false })
    else s)

/-- R369: an offset lies within BAR2 at its size. -/
def inBar2 (x : HostPort) (off len : Nat) : Bool := decide (off + len ≤ 2 ^ (30 + x.barLog))

/-- BAR2_READ (R377): a host read of device memory. -/
def execBar2Read (port : Fin 2) (off : Fin 1099511627776) (len : Fin 4097) (s : State) : Host.Outcome State Fault Refusal :=
  let x := hostOf s port.val
  .next (if !decodes x || !inBar2 x off.val len.val || len.val == 0 then s
    else
      match x.bar2 with
      | none => updHost s port.val (fun y => bar2Fault y false 0x02)
      | some page =>
        let va := page * 2 ^ 18 + off.val
        match translateRange (seenMem s.mem) va len.val (ownedParts s port.val) false with
        | .bad st => updHost s port.val (fun y => bar2Fault y false st)
        | _ => updHost s port.val (fun y => { y with rd := vaRead (seenMem s.mem) va len.val, ca := false }))

/-- BAR2_WRITE (R376, R377): a host write to device memory; one to a moving page waits, and what the port posts after it waits too. -/
def execBar2Write (port : Fin 2) (off : Fin 1099511627776) (data : List Byte) (s : State) : Host.Outcome State Fault Refusal :=
  let x := hostOf s port.val
  .next (if !decodes x || !inBar2 x off.val data.length || data.length == 0 || decide (512 < data.length) then s
    else
      match x.bar2 with
      | none => updHost s port.val (fun y => bar2Fault y true 0x02)
      | some page =>
        let va := page * 2 ^ 18 + off.val
        let queued := updHost s port.val (fun y => { y with waitWr := y.waitWr ++ [.mem va data] })
        if x.waitWr.isEmpty then (memWriteNow s port.val va data).getD queued else queued)

/-- R369: the dword of a port's configuration space at an offset: device ID, class code and subsystem ID as the table gives them. -/
def cfgWord (s : State) (off : Nat) : Nat :=
  match off with
  | 0x00 => 0x7A08 * 2 ^ 16 + Config.cfgSpace 0 % 2 ^ 16
  | 0x08 => 0x120000 * 2 ^ 8 + Config.cfgSpace 8 % 2 ^ 8
  | 0x2C => (s.flash.model + 1) * 2 ^ 16 + Config.cfgSpace 0x2C % 2 ^ 16
  | _ => Config.cfgSpace off

/-- CONFIG_REQUEST (R369, R371, R373, R387): a configuration request completes with Successful Completion. -/
def execConfigRequest (port : Fin 2) (q : CfgReq) (s : State) : Host.Outcome State Fault Refusal :=
  .next (if !(hostOf s port.val).linkUp then s
    else
      updHost s port.val (fun x =>
        let y := { x with ca := false }
        match q with
        | .read off => { y with rd := leBytes 4 (cfgWord s (off.val / 4 * 4)) }
        | .busMaster b => { y with busMaster := b }
        | .msixEnable b => { y with msixOn := b }
        | .functionMask b => { y with fmask := b }
        | .d3hot => { y with d3hot := true }
        | .resize n => { y with barLog := n.val }))

/-- The cause of a port reset can arise: a link that is up, or D3hot left (R373). -/
def canReset (x : HostPort) (how : PortRst) : Bool :=
  match how with
  | .perst => true
  | .d3ToD0 => x.linkUp && x.d3hot
  | _ => x.linkUp

/-- PORT_RESET (R373): a port reset returns the port to its reset values and declares its host lost. -/
def execPortReset (port : Fin 2) (how : PortRst) (s : State) : Host.Outcome State Fault Refusal :=
  .next (if !canReset (hostOf s port.val) how then s
    else
      updHost (hostLost s port.val) port.val (fun x => { clearPort x with
        perst := how == .perst || x.perst
        linkUp := x.linkUp && (how == .flr || how == .d3ToD0) }))

/-- PORT_TRAIN (R371, R373): PERST_N is released and Stage 0 has passed: the port trains. -/
def execPortTrain (port : Fin 2) (s : State) : Host.Outcome State Fault Refusal :=
  .next (if 1 ≤ s.boot.stage then updHost s port.val (fun x => { x with perst := false, linkUp := true }) else s)

/-- RING (R376, R379): a RING write to a mailbox's doorbell. -/
def execRing (port : Fin 2) (m : Fin 16) (s : State) : Host.Outcome State Fault Refusal :=
  .next (if decodes (hostOf s port.val) then postReg s port.val (0x10200 + 0x400 * m.val) 1 else s)

/-- ACK (R379): an ACK write to a mailbox's doorbell. -/
def execAck (port : Fin 2) (m : Fin 16) (s : State) : Host.Outcome State Fault Refusal :=
  .next (if decodes (hostOf s port.val) then postReg s port.val (0x10200 + 0x400 * m.val) 2 else s)

/-- RING_DB (R376, R385, R388): a doorbell write to a context. -/
def execRingDb (port : Fin 2) (c : Fin 256) (s : State) : Host.Outcome State Fault Refusal :=
  .next (if decodes (hostOf s port.val) then postReg s port.val (0x20000 + 8 * c.val) 0 else s)

/-- MSIX_SEND (R387): a vector's message is sent. -/
def execMsixSend (port : Fin 2) (v : Fin 2048) (s : State) : Host.Outcome State Fault Refusal :=
  .next (if mayMsix s (hostOf s port.val) v.val then
      updHost s port.val (fun x => { x with
        pend := x.pend.erase v.val
        sentAt := smSet 0 x.sentAt v.val (s.clock + 1)
        msg := some ((vecOf x v.val).addr, (vecOf x v.val).data) })
    else s)

/-- HEARTBEAT_SAMPLE (R383, R390): Kiln samples HOST_BEAT and advances DEV_BEAT; ten unchanged samples lose the host. -/
def execHeartbeatSample (port : Fin 2) (s : State) : Host.Outcome State Fault Refusal :=
  let x := hostOf s port.val
  .next (whileKiln s (match x.ev with
    | some r =>
      if x.st ≠ 1 then s
      else
        let b := BitVec.ofNat 32 (ringHostBeat s.mem r)
        let n := if x.beat = some b then x.same + 1 else 0
        let s1 := { s with mem := setRingField s.mem r 40 ((ringDevBeat s.mem r + 1) % 2 ^ 32) }
        let s2 := flushLost (updHost s1 port.val (fun y => { y with beat := some b, same := n })) port.val
        if 10 ≤ n then hostLost s2 port.val else s2
    | none => s))

/-- HOST_HOLD_EXPIRY (R391): the hold expires: Kiln tears down what the port held, and its fields become free. -/
def execHostHoldExpiry (port : Fin 2) (s : State) : Host.Outcome State Fault Refusal :=
  .next (whileKiln s (if (hostOf s port.val).st ≠ 2 then s
    else
      updHost (tearDown s (portCtxs s port.val) (ownedParts s port.val)) port.val (fun x => { x with
        st := 0, hold := none, hostId := 0, ev := none, log := none, trace := none, evDrop := 0 })))

/-- MEM_UNCORRECTABLE (R225, R226): an uncorrectable error aborts the transfer that meets it, is counted, and Kiln answers for the frame. -/
def execMemUncorrectable (who : UeWho) (tier : Fin 2) (frame : Nat) (s : State) : Host.Outcome State Fault Refusal :=
  if tierFrames tier.val (ddrFitted s) ≤ frame then .fault .noSuchFrame
  else .next (drainPorts (memUncorrectable s who tier.val frame))

/-- MIGRATE_COPY_DONE (R222): the copy of a page ends, with or without an uncorrectable error, once no write to it is on its way;
what waited for the page goes on. -/
def execMigrateCopyDone (page : Nat) (err : Bool) (s : State) : Host.Outcome State Fault Refusal := .next (drainPorts (copyDone s page err))

/-- RETIREMENT_COPY (R226): the copy of a page to a fresh frame ends; unreadable blocks are zeros; the old frame is retired and
the page passes to the recovery path of R305. -/
def execRetirementCopy (page : Nat) (badBlocks : List Nat) (s : State) : Host.Outcome State Fault Refusal :=
  .next (whileKiln s (drainPorts (retirementCopy s page badBlocks)))

end Sys2Proof.Machine
end

