-- ==== Sys2Proof/Machine/Commands.lean ====
section
/-! DEFINITION. What every mailbox command goes through (spec/18_command_catalogue.md R456) and the commands about the module, its ports,
its partitions and its power (R457): INFO to POWER_POLICY. -/

namespace Sys2Proof.Machine

/-- How a command ends: the state, its STATUS and its result bytes. -/
structure CmdOut where
  st     : State
  status : Nat
  res    : List Byte
  deriving DecidableEq, Repr

/-- R456: a refused command changes nothing. -/
def cmdRefuse (s : State) (st : Nat) : CmdOut := ⟨s, st, []⟩

/-- A command done with status OK. -/
def cmdDone (s : State) (res : List Byte) : CmdOut := ⟨s, 0, res⟩

/-- One check of R456: the first that fails decides the status. -/
def cmdCheck (s : State) (bad : Bool) (st : Nat) (k : CmdOut) : CmdOut := if bad then cmdRefuse s st else k

/-- R456 checks 2 and 3 (R372, R396): before Stage 8 only a start-class command passes; more than 256 waiting class 4 tasks give BUSY. -/
def cmdAdmit (s : State) (start : Bool) (k : CmdOut) : CmdOut :=
  cmdCheck s (!start && !isReady s) 0x02 (cmdCheck s (decide (256 < nth0 s.kiln.queued 3)) 0x01 k)

/-- R393, R396: a class 1 to 3 task works on a context: its section replay or recovery quiesces, or a retirement of its partition
is under way. -/
def ctxTask (s : State) (c : Nat) : Bool :=
  let x := ctxOf s c
  ctxLive s c && ((x.st != .paused && (match x.run with | some r => r.phase == .quiesce | none => false)) || recovering s x.part)

/-- R393, R396: a class 1 to 3 task works on a partition. -/
def partTask (s : State) (n : Nat) : Bool := recovering s n || (partCtxs s n).any (ctxTask s)

/-- R393, R396: a class 1 to 3 task works on a cord: one of a context that such a task works on. -/
def cordTask (s : State) (k : Nat) : Bool := (liveCtxs s).any (fun c => (ctxOf s c).cord == some k && ctxTask s c)

/-- A command's effect, with its STATUS and results as Kiln's last response. -/
def cmdRun (s : State) (k : CmdOut) : State :=
  if kilnUp s then { k.st with kiln := { k.st.kiln with resp := k.res, respSt := k.status } } else s

/-- R388: a partition that exists and belongs to the other port. -/
def foreignPart (s : State) (p n : Nat) : Bool := (partOf s n).on && (partOf s n).port != p

/-- R388: a context of the other port. -/
def foreignCtx (s : State) (p c : Nat) : Bool := ctxLive s c && (ctxOf s c).port != p

/-- R388: a cord of a partition of the other port. -/
def foreignCord (s : State) (p k : Nat) : Bool := (cordOf s.fab k).valid && foreignPart s p (cordOf s.fab k).part

/-- The mapped pages of a range, with their entries. -/
def mappedIn (s : State) (first count : Nat) : List (Nat × Word) :=
  s.mem.tmap.filter (fun e => teValid e.2 && decide (first ≤ e.1) && decide (e.1 < first + count))

/-- R388: the range holds a page of a partition of the other port. -/
def foreignPages (s : State) (p first count : Nat) : Bool := (mappedIn s first count).any (fun e => foreignPart s p (tePart e.2))

/-- A partition number that names none (R456). -/
def noPart (s : State) (n : Nat) : Bool := decide (8 ≤ n) || !(partOf s n).on

/-- SETFMT of an image's header (R441). -/
def hdrSetfmt (h : List Byte) : Nat := beNat ((h.drop 24).take 2)

/-- SETFMT of the running image. -/
def runningFmt (s : State) : Nat := hdrSetfmt s.boot.header

/-- INFO (R457). -/
def cmdInfo (s : State) : CmdOut :=
  cmdAdmit s true (cmdDone s (leBytes 8 s.flash.unit.toNat ++ leBytes 1 s.flash.stepping ++ leBytes 1 s.flash.grade
    ++ leBytes 4 (mbxStartWord s).toNat ++ leBytes 4 (imgVersion s.flash.active)))

/-- R288, R289: the time root takes FTIME from the host: stepped forward once, slewed after that. -/
def rootTime (f : FabState) (utc : Nat) : FabState :=
  if !f.root then f
  else if !f.ftValid && decide (f.ftime < utc * 16000) then { f with ftime := utc * 16000, corr := 0, ftValid := true }
  else { f with corr := (utc * 16000 : Int) - f.ftime, ftValid := true }

/-- R423: the current time comes from the first source that arrives. -/
def learnTime (s : State) (utc : Nat) : State :=
  if s.kiln.utc.isSome then s
  else { s with kiln := { s.kiln with utc := some utc, utcAt := s.clock } }

/-- TIME_SET (R288, R423, R457). -/
def cmdTimeSet (s : State) (utc : Nat) : CmdOut :=
  cmdAdmit s true (cmdDone (updFab (learnTime s utc) (fun f => rootTime f utc)) [])

/-- R413: the power-down of R344, as though PWR_EN had cycled. -/
def restartModule (s : State) : State :=
  let t := powerDown s
  { t with pwr := { t.pwr with mustCycle := false } }

/-- RESTART (R413). -/
def cmdRestart (s : State) : CmdOut := cmdAdmit s true (cmdDone (restartModule s) [])

/-- FULL_START (R424): the request is recorded in flash, in the running firmware's format generation (R452). -/
def cmdFullStart (s : State) : CmdOut :=
  cmdAdmit s true (cmdDone { s with flash := s.flash.putFull (runningFmt s) true } [])

/-- One bit of CRC-32 (IEEE 802.3). -/
def crcBit (c : Nat) : Nat := if c % 2 = 1 then c / 2 ^^^ 0xEDB88320 else c / 2

/-- CRC-32 over bytes. -/
def crc32 (bs : List Byte) : Nat :=
  (bs.foldl (fun c b => foldRange 8 (fun x _ => crcBit x) (c ^^^ b.toNat)) 0xFFFFFFFF) ^^^ 0xFFFFFFFF

/-- 96 bytes of a signature. -/
def fit96 (l : List Byte) : List Byte := (l ++ List.replicate 96 0).take 96

/-- The number of Bynoril's manufacturing key beside the identity keys, which UNIT_IDs number. -/
def mfgKey : Nat := 2 ^ 64

/-- R30, R31: the current copy of a defect map record (kind 0 factory, 1 field): header, entries, signature; none where no copy is valid. -/
def defectRecord (f : Flash) (kind : Nat) : List Byte :=
  let r := if kind = 0 then f.factoryRec else f.fieldRec
  let c := r.current
  let body := c.data.entries.flatMap (fun e => leBytes 8 e.toNat)
  let hdr := leBytes 32 (0x444D4150 * 2 ^ 224 + 2 ^ 208 + c.data.entries.length * 2 ^ 192 + c.sequence % 2 ^ 32 * 2 ^ 160
    + c.data.grade % 2 ^ 8 * 2 ^ 152 + kind * 2 ^ 144 + c.data.unit.toNat * 2 ^ 64 + crc32 body * 2 ^ 32)
  if r.valid then
    hdr ++ body ++ fit96 (Config.ecdsaSign (if kind = 0 then mfgKey else f.unit.toNat) (hdr ++ body))
  else []

/-- DEFECT_READ (R30, R457). -/
def cmdDefectRead (s : State) (kind off : Nat) : CmdOut :=
  cmdAdmit s true (cmdCheck s (decide (1 < kind) || decide (65536 ≤ off)) 0x04
    (cmdDone s (((defectRecord s.flash kind).drop off).take 224)))

/-- R446: a context paused by an activation goes on. -/
def resumeCtx (x : Ctx) : Ctx :=
  { x with
    pauseReq := false
    actPaused := false
    st := if x.st = .paused then (if x.run.isSome then .running else restState { x with pauseReq := false }) else x.st }

/-- R446, R448: Kiln resumes the contexts that an activation paused. -/
def resumeAct (s : State) : State :=
  (liveCtxs s).foldl (fun x c => if (ctxOf x c).actPaused then updCtx x c resumeCtx else x) s

/-- R447: at T Kiln pauses every context at its next step boundary. -/
def pauseAct (s : State) : State :=
  (liveCtxs s).foldl (fun x c =>
    if (ctxOf x c).st = .paused then x else updCtx x c (fun y => { pauseCtx y with actPaused := true })) s

/-- ACTIVATE (R446): schedules the activation of the staged image, replacing a pending one; T 0 is at once. -/
def cmdActivate (s : State) (t : DWord) (window : Nat) : CmdOut :=
  cmdAdmit s true (cmdCheck s (decide (window < 60) || decide (3600 < window)) 0x04 (cmdCheck s (s.flash.staging != 2) 0x4A
    (let s1 := resumeAct s
     let s2 := if t = 0 then pauseAct s1 else s1
     cmdDone { s2 with upd := { s2.upd with actSt := if t = 0 then 2 else 1, actTime := t, actWin := window, unmet := 0 } } [])))

/-- ACTIVATE_CANCEL (R446). -/
def cmdActivateCancel (s : State) : CmdOut :=
  cmdAdmit s true (cmdDone (if s.upd.actSt = 1 ∨ s.upd.actSt = 2 then
      let s1 := resumeAct s
      { s1 with upd := { s1.upd with actSt := 0, actTime := 0, actWin := 0, unmet := 0 } }
    else s) [])

/-- R382: a ring that Kiln may register: aligned, in device virtual space, its pages mapped in HBM in one of the partitions. -/
def ringOk (s : State) (r : Ring) (parts : List Nat) : Bool :=
  r.addr % 64 == 0 && decide (r.addr + 64 + 64 * 2 ^ r.logsz ≤ 2 ^ 42)
    && (ringPages r).all (fun n =>
      let e := tmapGet s.mem n
      teValid e && teTier e == 0 && parts.contains (tePart e))

/-- R382: LOGSZ is 6 to 16. -/
def logszOk (n : Nat) : Bool := decide (6 ≤ n) && decide (n ≤ 16)

/-- The event, log and trace ring of an ATTACH (R382, R390). -/
def attachRings (a : AttachArgs) : Ring × Ring × Ring :=
  (⟨a.ev.toNat, a.evSz.toNat, 0⟩, ⟨a.log.toNat, a.logSz.toNat, a.logWm.toNat⟩, ⟨a.trace.toNat, a.traceSz.toNat, a.traceWm.toNat⟩)

/-- R420: the links in IDENT, as discovery events of a port. -/
def postDiscovered (s : State) (p : Nat) : State :=
  (List.range 96).foldl (fun x l =>
    let k := portOf x.lk l
    if k.st = lsIdent ∧ k.known then postEvent x [p] 0x02 none [l, k.peerUnit.toNat, k.peerLink] else x) s

/-- R449: a start from PREVIOUS is posted once a port attaches. -/
def postPrevious (s : State) (p : Nat) : State :=
  if s.boot.bootPosts.contains p then
    postEvent { s with boot := { s.boot with bootPosts := s.boot.bootPosts.erase p } } [p] 0x1D none [imgVersion s.flash.previous]
  else s

/-- R314: SPARE_READY of an expelled module after its full start, once a port attaches. -/
def postSpare (s : State) (p : Nat) : State :=
  if s.boot.sparePosts.contains p then
    postEvent { s with boot := { s.boot with sparePosts := s.boot.sparePosts.erase p } } [p] 0x0B none []
  else s

/-- R390, R403: the port's rings are created, and the log and trace buffers are written into them. -/
def makeRings (s : State) (p : Nat) (r : Ring × Ring × Ring) : State :=
  let m := ringCreate (ringCreate (ringCreate s.mem 2 0 r.1) 3 0 r.2.1) 4 0 r.2.2
  let s1 := updHost { s with mem := m } p (fun x => { x with ev := some r.1, log := some r.2.1, trace := some r.2.2, evDrop := 0 })
  replayBuffer (replayBuffer s1 p false) p true

/-- R390, R391: the port is attached; a new host, or one back within its hold, is told what waited for it. -/
def attachPort (s : State) (p : Nat) (a : AttachArgs) : State :=
  let s1 := updHost s p (fun x => { x with
    st := 1, hostId := a.hostId, hold := none, beat := if x.st = 1 then x.beat else none, same := if x.st = 1 then x.same else 0 })
  let s2 := makeRings s1 p (attachRings a)
  if (hostOf s p).st = 1 then s2 else postSpare (postPrevious (postDiscovered s2 p) p) p

/-- ATTACH (R390, R391, R457). -/
def cmdAttach (s : State) (p : Nat) (a : AttachArgs) : CmdOut :=
  let x := hostOf s p
  let r := attachRings a
  let own := ownedParts s p
  cmdAdmit s false (cmdCheck s (!(logszOk r.1.logsz && logszOk r.2.1.logsz && logszOk r.2.2.logsz)) 0x04
    (cmdCheck s (x.st != 0 && x.hostId != a.hostId) 0x03
      (cmdCheck s (!(ringOk s r.1 own && ringOk s r.2.1 own && ringOk s r.2.2 own)) 0x08 (cmdDone (attachPort s p a) []))))

/-- DETACH (R382, R390). -/
def cmdDetach (s : State) (p : Nat) : CmdOut :=
  cmdAdmit s false (cmdCheck s (!(portCtxs s p).isEmpty) 0x06 (cmdDone (updHost s p (fun x => { x with
    st := 0, hostId := 0, hold := none, ev := none, log := none, trace := none, beat := none, same := 0, evDrop := 0 })) []))

/-- BAR2_WINDOW (R377, R388, R457): PAGE 0xFFFF_FFFF clears the window. -/
def cmdBar2Window (s : State) (p page : Nat) : CmdOut :=
  cmdAdmit s false (if page = 0xFFFFFFFF then cmdDone (updHost s p (fun x => { x with bar2 := none })) []
    else cmdCheck s (foreignPages s p page 1) 0x03 (cmdCheck s (decide (2 ^ 24 ≤ page)) 0x04
      (cmdDone (updHost s p (fun x => { x with bar2 := some page })) [])))

/-- TRACE_CONFIG (R405). -/
def cmdTraceConfig (s : State) (mask : DWord) : CmdOut :=
  cmdAdmit s false (cmdDone { s with kiln := { s.kiln with traceEn := mask } } [])

/-- R176: the fields of a mask form a rectangle in the 4 × 2 field grid. -/
def isRect (m : Nat) : Bool :=
  (List.range 2).any (fun r0 => (List.range 2).any (fun r1 => (List.range 4).any (fun c0 => (List.range 4).any (fun c1 =>
    (List.range 8).all (fun f =>
      m.testBit f == (decide (r0 ≤ f / 4) && decide (f / 4 ≤ r1) && decide (c0 ≤ f % 4) && decide (f % 4 ≤ c1)))))))

/-- R178: the field sets of one gang, by its size code. -/
def gangSets (gang : Nat) : List Nat :=
  match gang with
  | 0 => [1, 2, 4, 8, 16, 32, 64, 128]
  | 1 => [0x03, 0x0C, 0x30, 0xC0]
  | 2 => [0x33, 0xCC]
  | _ => [0xFF]

/-- R178: the fields of a mask are a union of gangs of one size. -/
def gangsOk (gang m : Nat) : Bool := (gangSets gang).all (fun g => m &&& g == 0 || m &&& g == g)

/-- R176: the fields that a set-up places lie in no other partition. -/
def fieldsTaken (s : State) (n m : Nat) : Bool :=
  (setBits 8 m).any (fun f => match partOfField s f with | some q => q != n | none => false)

/-- R176, R178: applying a partition's set-up. One whose fields change is switched off first; one that keeps them loads its images again. -/
def setupPart (s : State) (n port m mode gang : Nat) : State :=
  let q := partOf s n
  let s1 := if q.on && q.fmask != m then partOff s n else s
  let s2 := setPart s1 n { partOf s1 n with on := true, fmask := m, mode := mode, gang := gang, port := port, loaded := none }
  updTiles s2 (partTiles (partOf s2 n)) (fun t x => placeTile s2 t x)

/-- PART_CONFIG (R176, R178, R457). -/
def cmdPartConfig (s : State) (p n m mode gang : Nat) : CmdOut :=
  cmdAdmit s false (cmdCheck s (partTask s n) 0x01 (cmdCheck s (foreignPart s p n) 0x03
    (cmdCheck s (decide (8 ≤ n) || decide (2 < mode) || decide (3 < gang)) 0x04
      (cmdCheck s (((partOf s n).on && !(partCtxs s n).isEmpty) || fieldsTaken s n m) 0x07
        (cmdCheck s (m != 0 && (!isRect m || (mode == 1 && !gangsOk gang m))) 0x04
          (cmdDone (if m ≠ 0 then setupPart s n p m mode gang else if (partOf s n).on then removePart s n else s) []))))))

/-- R361, R365: a partition that cannot be switched on: a tripped sensor of it is not yet below stage 1 or not cleared by the
host, or a field of it cannot be sustained. -/
def cannotPower (s : State) (n : Nat) : Bool :=
  let q := partOf s n
  let mine := fun (kind idx : Nat) =>
    (kind == 0 && q.fmask.testBit (regionField idx)) || (kind == 3 && q.fmask.testBit idx)
  (s.pwr.tripOn && mine s.pwr.tripKind s.pwr.tripIdx) || s.pwr.hot.any (fun k => mine (k / 128) (k % 128))
    || (partFields q).any (fun f => unsustainable (fieldOf s.pwr f))

/-- R183, R364: the fields of a partition wait for their soft start. -/
def startPart (s : State) (n : Nat) : State :=
  let q := partOf s n
  updPwr (setPart s n { q with powering := true, draining := false }) (fun w => (partFields q).foldl (fun v f =>
    let x := fieldOf v f
    if x.st = 2 ∨ x.st = 1 then v else setField v f { x with st := 0, waiting := true }) w)

/-- PART_POWER with 1 (R183, R365, R366): the end of the switching is posted as PART_POWERED. -/
def cmdPartPowerOn (s : State) (p n : Nat) : CmdOut :=
  let q := partOf s n
  cmdAdmit s false (cmdCheck s (partTask s n) 0x01 (cmdCheck s (foreignPart s p n) 0x03 (cmdCheck s (noPart s n) 0x04
    (cmdDone (if q.powered then partPowered (setPart s n { q with draining := false }) n 0
      else if q.powering then s
      else if cannotPower s n then partPowered s n 0x0B
      else startPart s n) []))))

/-- R183: a partition is idle for power: no context READY or RUNNING, no step. -/
def idleForPower (s : State) (n : Nat) : Bool :=
  (partCtxs s n).all (fun c =>
    let x := ctxOf s c
    x.run.isNone && x.st != .ready && x.st != .running)

/-- PART_POWER with 0 (R183): a powered partition drains; one on its way up, or off, is off at once. -/
def cmdPartPowerOff (s : State) (p n : Nat) : CmdOut :=
  let q := partOf s n
  cmdAdmit s false (cmdCheck s (partTask s n) 0x01 (cmdCheck s (foreignPart s p n) 0x03 (cmdCheck s (noPart s n) 0x04
    (cmdCheck s (!idleForPower s n) 0x07
      (cmdDone (if q.powered then setPart s n { q with draining := true }
        else if q.powering then partPowered (partOff s n) n 0
        else partPowered s n 0) [])))))

/-- R183: a draining partition is switched off once its queues are empty; one whose switching a command ordered is posted. -/
def partDrained (s : State) (n : Nat) : State :=
  let q := partOf s n
  if q.on && q.draining && queuesEmpty s n then
    (if q.powered then partPowered (partOff s n) n 0 else partOff s n)
  else s

/-- R351, R355: the values of a POWER_POLICY are out of range. -/
def policyBad (s : State) (cap n mode stp : Nat) : Bool :=
  (cap != 0 && (decide (cap < 3000) || decide (6400 < cap)))
    || (if n = 0xFF then mode != 0 || stp != 0
      else noPart s n || decide (1 < mode) || (mode == 1 && (decide (stp < 28) || decide (42 < stp))) || (mode == 0 && stp != 0))

/-- R355: a policy of a partition that runs a step waits for the step boundary. -/
def setPartPolicy (s : State) (n mode stp : Nat) : State :=
  updPwr s (fun w =>
    let y := policyOf w n
    setPolicy w n (if (runningCtx s n).isSome then { y with pending := some (mode == 1, stp) }
      else { y with fixed := mode == 1, step := stp, target := stp, pending := none }))

/-- POWER_POLICY (R351, R355, R457). -/
def cmdPowerPolicy (s : State) (p cap n mode stp : Nat) : CmdOut :=
  cmdAdmit s false (cmdCheck s (n != 0xFF && partTask s n) 0x01 (cmdCheck s (n != 0xFF && foreignPart s p n) 0x03
    (cmdCheck s (policyBad s cap n mode stp) 0x04
      (let s1 := updPwr s (fun w => if p = 0 then { w with capP0 := cap } else { w with capP1 := cap })
       cmdDone (if n = 0xFF then s1 else setPartPolicy s1 n mode stp) []))))

end Sys2Proof.Machine
end

