-- ==== Sys2Proof/Machine/CtxCommands.lean ====
section
/-! DEFINITION. The commands about contexts and the Tier Map (spec/18_command_catalogue.md R457, spec/15_kiln_firmware.md R399 to R402,
spec/08_memory_tiers.md R209, R210, spec/11_surviving_failures.md R305, R309, R310, R318). -/

namespace Sys2Proof.Machine

/-- The job cord of a CTX_CREATE: 0xFFFF names none. -/
def argCord (n : Nat) : Option Nat := if n = 0xFFFF then none else some n

/-- The lowest context number that is free (DESIGN CHOICE: the spec does not say which number Kiln gives). -/
def freeCtx (s : State) : Option Nat := (List.range 256).find? (fun c => !ctxLive s c)

/-- R399: values of a CTX_CREATE out of range. -/
def ctxArgsBad (s : State) (a : CtxArgs) : Bool :=
  noPart s a.part.toNat || decide (3 < a.prio.toNat) || decide (a.quantum.toNat < 1) || decide (1000 < a.quantum.toNat)
    || !logszOk a.subSz.toNat || !logszOk a.cplSz.toNat || decide (a.vector.toNat < 32) || decide (2047 < a.vector.toNat)
    || decide (a.timeout.toNat < 4) || (decide (4096 ≤ a.cord.toNat) && a.cord != 0xFFFF)

/-- R400: the partition has a pinned context already. -/
def pinnedTwice (s : State) (a : CtxArgs) : Bool :=
  (argCord a.cord.toNat).isSome && (partCtxs s a.part.toNat).any (fun c => (ctxOf s c).cord.isSome)

/-- R308: a stream keeps no valid copy from the start of a context on its partition. -/
def dropCopies (s : State) (p : Nat) : State :=
  (List.range 8).foldl (fun x i =>
    let e := emberOf x i
    if e.valid && e.part == p then setEmber x i { e with valid0 := false, valid1 := false } else x) s

/-- R382, R399: a context comes to be, IDLE, with its two rings. -/
def newCtx (s : State) (p c : Nat) (a : CtxArgs) : State :=
  let sub : Ring := ⟨a.sub.toNat, a.subSz.toNat, 0⟩
  let cpl : Ring := ⟨a.cpl.toNat, a.cplSz.toNat, 0⟩
  setCtx (dropCopies { s with mem := ringCreate (ringCreate s.mem 0 c sub) 1 c cpl } a.part.toNat) c { ctx0 with
    port := p, part := a.part.toNat, prio := a.prio.toNat, quantum := a.quantum.toNat, sub := sub, cpl := cpl
    vector := a.vector.toNat, timeout := a.timeout.toNat, cord := argCord a.cord.toNat, born := s.clock }

/-- CTX_CREATE (R382, R399, R400, R457). -/
def cmdCtxCreate (s : State) (p : Nat) (a : CtxArgs) : CmdOut :=
  let n := a.part.toNat
  let own := fun (addr sz : Nat) => ringOk s ⟨addr, sz, 0⟩ [n]
  cmdAdmit s false (cmdCheck s (partTask s n || (a.cord != 0xFFFF && cordTask s a.cord.toNat)) 0x01
    (cmdCheck s (foreignPart s p n || (a.cord != 0xFFFF && foreignCord s p a.cord.toNat)) 0x03
      (cmdCheck s (ctxArgsBad s a) 0x04
        (cmdCheck s (!(own a.sub.toNat a.subSz.toNat && own a.cpl.toNat a.cplSz.toNat)) 0x08
          (cmdCheck s (pinnedTwice s a) 0x07
            (match freeCtx s with
             | none => cmdRefuse s 0x06
             | some c => cmdDone (newCtx s p c a) (leBytes 1 c)))))))

/-- The checks of a command that names a context (R456). -/
def cmdCtx (s : State) (p c : Nat) (k : CmdOut) : CmdOut :=
  cmdAdmit s false (cmdCheck s (ctxTask s c) 0x01 (cmdCheck s (foreignCtx s p c) 0x03 (cmdCheck s (!ctxLive s c) 0x04 k)))

/-- CTX_PAUSE (R402). -/
def cmdCtxPause (s : State) (p c : Nat) : CmdOut := cmdCtx s p c (cmdDone (updCtx s c pauseCtx) [])

/-- CTX_RESUME (R402, R410): submissions that wait make the context READY. -/
def cmdCtxResume (s : State) (p c : Nat) : CmdOut :=
  cmdCtx s p c (cmdCheck s (s.kiln.stat == 3) 0x0D (cmdDone (settleCtx (updCtx s c resumeCtx) c) []))

/-- CTX_DESTROY (R457): at the next step boundary; a paused context goes at once. -/
def cmdCtxDestroy (s : State) (p c : Nat) : CmdOut :=
  let x := ctxOf s c
  cmdCtx s p c (cmdDone (if x.run.isSome && x.st != .paused then updCtx s c (fun y => { y with dropReq := true }) else endCtx s c) [])

/-- A data or RNG position as one argument: the step above the micro-batch. -/
def posArg (n : Word) (mb : BitVec 16) : Nat := n.toNat * 2 ^ 16 + mb.toNat

/-- CTX_RESTORE (R318): the data position wins; positions that disagree are posted. -/
def cmdCtxRestore (s : State) (p c : Nat) (a : RestoreArgs) : CmdOut :=
  cmdCtx s p c (cmdCheck s ((ctxOf s c).st != .paused) 0x06
    (let s1 := updCtx s c (fun x => { x with restore := some (a.seed, a.dataStep, a.dataMb) })
     cmdDone (if a.dataStep = a.rngStep ∧ a.dataMb = a.rngMb then s1
       else postCtx s1 c 0x0D [posArg a.dataStep a.dataMb, posArg a.rngStep a.rngMb]) []))

/-- Mapping n pages from first on, each to a free frame (R209). -/
def mapPages (part tier : Nat) (writable ddr : Bool) : Nat → Nat → MemState → MemState
  | 0, _, m => m
  | n + 1, first, m =>
    match takeFrame m tier ddr with
    | some (f, m1) => mapPages part tier writable ddr n (first + 1) (tmapSet m1 first (teMake writable part tier false f))
    | none => m

/-- TMAP_MAP (R209, R210, R457). -/
def cmdTmapMap (s : State) (p first count part tier writable : Nat) : CmdOut :=
  let ddr := ddrFitted s
  let mapped := mappedIn s first count
  cmdAdmit s false (cmdCheck s (partTask s part) 0x01 (cmdCheck s (foreignPart s p part || foreignPages s p first count) 0x03
    (cmdCheck s (noPart s part || decide (1 < tier) || decide (1 < writable) || decide (2 ^ 24 < first + count)) 0x04
      (cmdCheck s (tier == 1 && !ddr) 0x35
        (cmdCheck s (mapped.any (fun e => tePart e.2 != part)) 0x31
          (cmdCheck s (!mapped.isEmpty) 0x06
            (cmdCheck s (decide (freeFrames s.mem tier ddr < count)) 0x34
              (cmdDone { s with mem := mapPages part tier (writable == 1) ddr count first s.mem } []))))))))

/-- The pages of every ring that exists (R382). -/
def allRingPages (s : State) : List Nat :=
  ((liveCtxs s).flatMap (fun c => ringPages (ctxOf s c).sub ++ ringPages (ctxOf s c).cpl))
    ++ ([s.p0, s.p1].flatMap (fun x => (x.ev.toList ++ x.log.toList ++ x.trace.toList).flatMap ringPages))

/-- TMAP_UNMAP (R382, R457): the pages of a range that are mapped lose their frames. -/
def cmdTmapUnmap (s : State) (p first count : Nat) : CmdOut :=
  let mapped := mappedIn s first count
  cmdAdmit s false (cmdCheck s (foreignPages s p first count) 0x03 (cmdCheck s (decide (2 ^ 24 < first + count)) 0x04
    (cmdCheck s (mapped.any (fun e => !(ownedParts s p).contains (tePart e.2))) 0x31
      (cmdCheck s ((allRingPages s).any (fun n => decide (first ≤ n) && decide (n < first + count))) 0x06
        (cmdDone (drainPorts (mapped.foldl (fun x e => unmapPage x e.1 false) s)) [])))))

/-- TMAP_READ (R209). -/
def cmdTmapRead (s : State) (p first count : Nat) : CmdOut :=
  cmdAdmit s false (cmdCheck s (foreignPages s p first count) 0x03
    (cmdCheck s (decide (count < 1) || decide (56 < count) || decide (2 ^ 24 < first + count)) 0x04
      (cmdDone s ((List.range count).flatMap (fun i => leBytes 4 (tmapGet s.mem (first + i)).toNat)))))

/-- FAILURE_RATE (R309, R388): either port publishes a context's mtbf. -/
def cmdFailureRate (s : State) (c mtbf : Nat) : CmdOut :=
  cmdAdmit s false (cmdCheck s (ctxTask s c) 0x01 (cmdCheck s (!ctxLive s c) 0x04
    (cmdDone (updCtx s c (fun x => { x with mtbf := some mtbf })) [])))

/-- R305: the host has rewritten a lost page: a context held for no other arrives at QUIET, or starts again. -/
def refillDone (s : State) (c page : Nat) : State :=
  if !(ctxOf s c).refill.contains page then s
  else
  let s1 := updCtx s c (fun y => { y with refill := y.refill.erase page })
  match (ctxOf s1 c).run with
  | none => s1
  | some r =>
      if r.phase ≠ .held ∨ ¬ (ctxOf s1 c).refill.isEmpty then s1
      else if (ctxOf s c).cord.isSome then arriveJob s1 c 2 0 0
      else afterQuiet s1 c

/-- REFILL_DONE (R305). -/
def cmdRefillDone (s : State) (p c page : Nat) : CmdOut :=
  cmdAdmit s false (cmdCheck s (ctxTask s c) 0x01 (cmdCheck s (foreignCtx s p c || foreignPages s p page 1) 0x03
    (cmdCheck s (!ctxLive s c || decide (2 ^ 24 ≤ page)) 0x04 (cmdDone (refillDone s c page) []))))

/-- FORCE_COPY (R310): the next section B takes a moment copy. -/
def cmdForceCopy (s : State) (p c : Nat) : CmdOut := cmdCtx s p c (cmdDone (updCtx s c (fun x => { x with holderNew := true })) [])

end Sys2Proof.Machine
end

