-- ==== Sys2Proof/Machine/FabCommands.lean ====
section
/-! DEFINITION. The commands about links, the fabric, cords, Ember and digest streams, rank replacement and lock-step
(spec/18_command_catalogue.md R457, spec/09_optical_links.md R243, R253, R256, spec/10_fabric_and_cords.md R261 to R266, R276, R277, R292,
spec/11_surviving_failures.md R306, R312, R313, R316, R317, spec/12_determinism.md R331, R335). -/

namespace Sys2Proof.Machine

/-- Entry n of a FABRIC_ASSIGN's map as a LINK_MAP value (R457). -/
def assignEntry (map : Nat) (n : Nat) : Nat := bits map (18 * n) 18 * 2 ^ 13

/-- R260, R261, R263: values of a FABRIC_ASSIGN out of range: sizes above 32, an address outside them or of a gateway, no map for
sizes without a default map, a reserved ROLE. -/
def assignBad (a : AssignArgs) : Bool :=
  let szs := [a.sxm.toNat + 1, a.sym.toNat + 1, a.szm.toNat + 1]
  szs.any (fun n => decide (32 < n)) || decide (1 < a.root.toNat) || decide (1 < a.explicit.toNat) || isGw a.addr
    || (List.range 3).any (fun d => decide (nth0 szs d ≤ coord a.addr d))
    || (a.explicit == 0 && !szs.all defaultSize)
    || (a.explicit != 0 && (List.range 96).any (fun n => mapRole (assignEntry a.map.toNat n) == 3))

/-- LINK_MAP of a FABRIC_ASSIGN (R261, R292). -/
def assignMap (a : AssignArgs) (n : Nat) : Word :=
  if a.explicit = 0 then defaultMap (a.sxm.toNat + 1) (a.sym.toNat + 1) (a.szm.toNat + 1) n
  else BitVec.ofNat 32 (2 ^ 31 + assignEntry a.map.toNat n)

/-- R266: a link goes back to IDENT, to be admitted again. -/
def backToIdent (p : LinkPort) : LinkPort :=
  if p.st = lsUp ∨ p.st = lsPaused then { plainPort p with st := lsIdent, cause := 0, leftUp := true, lockstep := false } else p

/-- R264, R266: the assignment is loaded, and every link goes back to IDENT. -/
def assignFabric (s : State) (a : AssignArgs) : State :=
  let s1 := linksStep s (List.range 96) (fun k => updPorts k (List.range 96) backToIdent)
  updFab s1 (fun f => { f with
    addrOn := true, root := a.root == 1, addr := a.addr, sxm := a.sxm.toNat, sym := a.sym.toNat, szm := a.szm.toNat
    map := (List.range 96).foldl (fun m n => smSet 0 m n (assignMap a n)) [], lines := [], mine := []
    depth := if a.root = 1 then 0 else f.depth })

/-- R264, R399: a context is scheduled: READY or RUNNING. -/
def isScheduled (s : State) (c : Nat) : Bool := (ctxOf s c).st == .ready || (ctxOf s c).st == .running

/-- FABRIC_ASSIGN (R264, R292, R388, R457). -/
def cmdFabricAssign (s : State) (a : AssignArgs) : CmdOut :=
  cmdAdmit s false (cmdCheck s (assignBad a) 0x04 (cmdCheck s ((liveCtxs s).any (isScheduled s)) 0x26
    (cmdCheck s (a.explicit != 0 && !mapOk a.addr (a.sxm.toNat + 1) (a.sym.toNat + 1) (a.szm.toNat + 1) (assignEntry a.map.toNat)) 0x29
      (cmdDone (assignFabric s a) []))))

/-- R243, R253, R257: a link goes to DISABLED and hands its traffic to its detours. -/
def disableLink (p : LinkPort) : LinkPort :=
  { plainPort p with
    st := lsDisabled
    cause := 0
    leftUp := p.leftUp || p.st == lsUp || p.st == lsPaused }

/-- R242, R254, R256: enabling a link ends TOO_LONG, DISABLED or DOWN in one training; ending a fence so counts as a retrain. A link without
light goes to DOWN. -/
def enableLink (p : LinkPort) (clock : Nat) (light : Bool) : LinkPort :=
  if p.st = lsFenced then retrain { plainPort p with retrains := [] } clock
  else if p.st = lsTooLong ∨ p.st = lsDisabled ∨ p.st = lsDown then
    (if !light then { p with st := lsDown, cause := 2 }
    else if p.st = lsDown ∧ p.cause = 4 then p
    else startTraining p true)
  else p

/-- LINK_CTRL with 0 (R253). -/
def cmdLinkDisable (s : State) (l : Nat) : CmdOut :=
  cmdAdmit s false (cmdCheck s (decide (96 ≤ l)) 0x04 (cmdDone (linkStep s l disableLink) []))

/-- LINK_CTRL with 1 (R254, R256). -/
def cmdLinkEnable (s : State) (l : Nat) : CmdOut :=
  cmdAdmit s false (cmdCheck s (decide (96 ≤ l)) 0x04
    (cmdDone (linkStep s l (fun p => enableLink p s.clock (linkLit s.lk l))) []))

/-- BLADE_RELEASE (R243). -/
def cmdBladeRelease (s : State) (b : Nat) : CmdOut :=
  cmdAdmit s false (cmdCheck s (decide (6 ≤ b)) 0x04
    (cmdDone (linksStep s (bladeLinks b) (fun k =>
      updPorts (setBlade k b { bladeOf k b with release := true }) (bladeLinks b) disableLink)) []))

/-- The tile count of a partition. -/
def partSize (s : State) (n : Nat) : Nat := 256 * (partFields (partOf s n)).length

/-- CORD_SETUP (R276, R277, R388, R457): an entry with VALID 0 invalidates. It is written at a step boundary of every context that uses the
cord. -/
def cmdCordSetup (s : State) (p k : Nat) (ent : BitVec 256) : CmdOut :=
  let w := ent.toNat
  let c := decCord w
  cmdCheck s (bits w 184 4 != 0 || bits w 0 128 != 0) 0x05
    (cmdAdmit s false (cmdCheck s (cordTask s k || (c.valid && partTask s c.part)) 0x01
      (cmdCheck s (foreignCord s p k || (c.valid && foreignPart s p c.part)) 0x03
        (cmdCheck s (decide (4096 ≤ k) || (c.valid && (noPart s c.part || c.btiles == 0 || decide (2048 < c.btiles)
            || decide (hbmFrames ≤ c.mframe)))) 0x04
          (cmdCheck s (c.valid && !cordSetupOk s.fab s.mem c (partSize s c.part)) 0x29
            (cmdDone (if cordBusy s k then { s with kiln := { s.kiln with cordWait := s.kiln.cordWait ++ [(k, c)] } }
              else writeCord s k c) []))))))

/-- CORD_READ (R276). -/
def cmdCordRead (s : State) (p k : Nat) : CmdOut :=
  cmdAdmit s false (cmdCheck s (cordTask s k) 0x01 (cmdCheck s (foreignCord s p k) 0x03 (cmdCheck s (decide (4096 ≤ k)) 0x04
    (cmdDone s (leBytes 32 (encCord (cordOf s.fab k)))))))

/-- R306: values of an EMBER_SETUP out of range; N is that of the cord, where it is set up. -/
def emberArgsBad (s : State) (a : EmberArgs) : Bool :=
  let c := cordOf s.fab a.cord.toNat
  decide (8 ≤ a.str.toNat) || decide (1 < a.valid.toNat)
    || (a.valid == 1 && (decide (4096 ≤ a.cord.toNat) || decide (16 ≤ a.ewin.toNat) || a.bofs == 0 || decide (1024 < a.wspan.toNat)
      || a.wspan == 0 || (c.valid && decide (cordN c ≤ a.bofs.toNat)) || decide (2 ^ 28 ≤ a.shard.toNat)
      || decide (2 ^ 24 < a.buf0.toNat + 32 * a.wspan.toNat) || decide (2 ^ 24 < a.buf1.toNat + 32 * a.wspan.toNat)))

/-- R306: every page of a buffer is mapped in a partition. -/
def bufferIn (s : State) (first pages part : Nat) : Bool :=
  (List.range pages).all (fun i =>
    let e := tmapGet s.mem (first + i)
    teValid e && tePart e == part)

/-- R306, R308: a stream is set up, with no valid copy; its digest set-up stays. -/
def setupEmber (s : State) (a : EmberArgs) : State :=
  let c := cordOf s.fab a.cord.toNat
  let e := emberOf s a.str.toNat
  let d := { ember0 with digEn := e.digEn, vcord := e.vcord, every := e.every, key := e.key }
  setEmber s a.str.toNat (if a.valid = 0 then d
    else { d with
      valid := true, part := c.part, ewin := a.ewin.toNat, cord := a.cord.toNat, bofs := a.bofs.toNat
      brank := (c.myrank + cordN c - a.bofs.toNat) % cordN c, wspan := a.wspan.toNat, shard := a.shard.toNat
      buf0 := a.buf0.toNat, buf1 := a.buf1.toNat })

/-- R388: a stream of a partition of the other port. -/
def foreignStream (s : State) (p i : Nat) : Bool := (emberOf s i).valid && foreignPart s p (emberOf s i).part

/-- EMBER_SETUP (R306, R388, R457). -/
def cmdEmberSetup (s : State) (p : Nat) (a : EmberArgs) : CmdOut :=
  let c := cordOf s.fab a.cord.toNat
  let on := a.valid == 1
  let pages := 32 * a.wspan.toNat
  cmdAdmit s false (cmdCheck s (on && cordTask s a.cord.toNat) 0x01
    (cmdCheck s (foreignStream s p a.str.toNat || (on && (foreignCord s p a.cord.toNat
        || foreignPages s p a.buf0.toNat pages || foreignPages s p a.buf1.toNat pages))) 0x03
      (cmdCheck s (emberArgsBad s a) 0x04
        (cmdCheck s (on && c.valid && !(bufferIn s a.buf0.toNat pages c.part && bufferIn s a.buf1.toNat pages c.part)) 0x31
          (cmdCheck s (on && !(c.valid && c.ember)) 0x29 (cmdDone (setupEmber s a) []))))))

/-- R317: a cord that may be voted on. -/
def voteShape (c : CordEntry) : Bool := c.valid && c.ry == 1 && c.rz == 1 && decide (c.rx ≤ 32)

/-- DIGEST_SETUP (R316, R317, R388, R457). -/
def cmdDigestSetup (s : State) (p : Nat) (a : DigestArgs) : CmdOut :=
  let on := a.enable == 1
  cmdAdmit s false (cmdCheck s (on && cordTask s a.vcord.toNat) 0x01
    (cmdCheck s (foreignStream s p a.str.toNat || (on && foreignCord s p a.vcord.toNat)) 0x03
      (cmdCheck s (decide (8 ≤ a.str.toNat) || decide (1 < a.enable.toNat)
          || (on && (decide (4096 ≤ a.vcord.toNat) || a.every == 0))) 0x04
        (cmdCheck s (on && !voteShape (cordOf s.fab a.vcord.toNat)) 0x29
          (cmdDone (setEmber s a.str.toNat { emberOf s a.str.toNat with
            digEn := on, vcord := a.vcord.toNat % 4096, every := a.every.toNat, key := a.key }) [])))))

/-- R312: the ranks of the excused micro-batch group, as the image names them. -/
def excusedRanks (x : Ctx) (group n : Nat) : List Nat :=
  match x.image with
  | some i => (List.range n).filter (fun r => i.groups[r]? == some group)
  | none => []

/-- R312: the excused ranks of the step, with a group more; those of an earlier replacement in the same step stay excused. -/
def excusedNow (x : Ctx) (group n : Nat) : List Nat :=
  (List.range n).filter (fun r => x.excused.contains r || (excusedRanks x group n).contains r)

/-- R312: the listed cords can be rewritten: set up, with the lost rank in them, and without the spare's address at another rank. -/
def replaceOk (s : State) (x : Ctx) (a : ReplaceArgs) : Bool :=
  (match x.cord with
   | some k =>
     let c := cordOf s.fab k
     a.cords.contains (BitVec.ofNat 16 k) && decide (a.source.toNat < cordN c) && a.source != a.lost
   | none => false)
  && !isGw a.spare
  && a.cords.all (fun k =>
    let c := cordOf s.fab k.toNat
    c.valid && decide (a.lost.toNat < cordN c)
      && (List.range (cordN c)).all (fun r => r == a.lost.toNat || memberAddr s.mem c r != a.spare))

/-- R277, R312: the lost rank's row of a cord's member table is rewritten; Kiln's barrier in progress on it is abandoned, and its
channel takes the new generation. -/
def rewriteCord (s : State) (a : ReplaceArgs) (k : Nat) : State :=
  let c := cordOf s.fab k
  let s1 := { s with mem := setMember s.mem c a.lost.toNat a.spare }
  let s2 := if isKilnChannel s1 k 3 then
      updFab s1 (fun f => setBar { f with cords := smSet cord0 f.cords k (cordGenSet c 3 a.gen.toNat) } k 3 bar0)
    else s1
  trace s2 0x0B 0 0 0 (k * 2 ^ 340)

/-- R312: what a member does in the restore: 2 RESTORE_SEND at the source, 3 RESTORE_RECV at the spare, 4 neither. -/
def restoreRole (s : State) (k : Nat) (a : ReplaceArgs) : Nat :=
  let me := (cordOf s.fab k).myrank
  if me = a.lost.toNat then 3 else if me = a.source.toNat then 2 else 4

/-- R312, R313: the run of a member's recovery. MAGE is known at the holder of the copy alone: at the spare it is a free value. -/
def recoveryRun (s : State) (x : Ctx) (k : Nat) (a : ReplaceArgs) (r : StepRun) (mage : Nat) : StepRun :=
  let ex := excusedNow x a.group.toNat (cordN (cordOf s.fab k))
  let role := restoreRole s k a
  { r with
    sect := role
    resume := if r.sect = 0 then 0 else if r.sect = 1 then 1 else r.resume
    peer := if role = 3 then a.source.toNat else a.lost.toNat
    mage := if role = 3 then mage % 2 ^ 16 else 0
    excused := ex.contains (cordOf s.fab k).myrank
    ncontrib := cordN (cordOf s.fab k) - ex.length
    recov := some (a.lost.toNat, a.source.toNat)
    expel := r.expel || r.cause == 0x12
    attempt := 0, status := 0, cause := 0, phase := .quiesce, done := [], voted := [] }

/-- R313: the spare's step: its oldest submission, with its image loaded; none where it has no step to start. -/
def spareRun (s : State) (c : Nat) : State :=
  let x := ctxOf s c
  match x.queue, x.image, startRefusal s c with
  | .step tag n mb seed :: _, some i, none =>
    let r := { newRun s c tag n mb seed with sect := 1 }
    updCtx (switchCtx (popSub s c) x.part c i) c (fun y => { y with restore := none, run := some r })
  | _, _, _ => s

/-- R310, R312: the module that holds this rank's moment copy is the lost one. -/
def holderLost (s : State) (k lost : Nat) : Bool :=
  let c := cordOf s.fab k
  (List.range 8).any (fun i =>
    let e := emberOf s i
    e.valid && e.cord == k && (c.myrank + e.bofs) % cordN c == lost)

/-- RANK_REPLACE on a member (R312, R315): the cords are rewritten, the attempt is abandoned, and the recovery quiesces. The job
that a spare joins has committed: before its first commit a loss is not repaired. -/
def replaceRank (s : State) (c : Nat) (a : ReplaceArgs) : State :=
  let x := ctxOf s c
  match x.cord with
  | none => s
  | some k =>
    let s1 := a.cords.foldl (fun y w => rewriteCord y a w.toNat) s
    let s2 := if x.run.isNone ∧ restoreRole s1 k a = 3 then spareRun s1 c else s1
    let d := drawFree s2
    match (ctxOf s2 c).run with
    | none => s2
    | some r =>
      let s3 := dropAttempt d.2 x.part
      updCtx s3 c (fun y => { y with
        st := .running
        pauseReq := false
        run := some (recoveryRun s3 y k a r d.1)
        excused := excusedNow y a.group.toNat (cordN (cordOf s3.fab k))
        commits := if restoreRole s3 k a = 3 then max 1 y.commits else y.commits
        late := (0, 0)
        losses := if r.phase = .quiesce then y.losses else y.losses + 1
        holderNew := y.holderNew || holderLost s3 k a.lost.toNat })

/-- RANK_REPLACE (R312, R388, R457). -/
def cmdRankReplace (s : State) (p : Nat) (a : ReplaceArgs) : CmdOut :=
  let c := a.c.toNat
  cmdAdmit s false (cmdCheck s (ctxTask s c || a.cords.any (fun k => cordTask s k.toNat)) 0x01
    (cmdCheck s (foreignCtx s p c || a.cords.any (fun k => foreignCord s p k.toNat)) 0x03
      (cmdCheck s (!ctxLive s c || decide (100 < a.cords.length) || a.cords.any (fun k => decide (4096 ≤ k.toNat))) 0x04
        (cmdCheck s (!replaceOk s (ctxOf s c) a) 0x29 (cmdDone (replaceRank s c a) [])))))

/-- R331: a lock-step start that is refused: LOCKSTEP_STATE tells its owner, and nothing changes. -/
def lockRefused (s : State) (port : Nat) : State := postEvent s [port] 0x18 none [0x2B]

/-- R331: what this module brings to lock-step comparison of a partition. -/
def ownSide (s : State) (n : Nat) : LockSide :=
  let y := policyOf s.pwr n
  ⟨s.kiln.dclass, imgVersion s.flash.active, y.fixed, y.step, (partOf s n).loaded⟩

/-- LOCKSTEP_START (R331, R388, R457): comparison starts once the partner link shows the partner. -/
def cmdLockstepStart (s : State) (p : Nat) (a : LockArgs) : CmdOut :=
  let n := a.part.toNat
  cmdAdmit s false (cmdCheck s (partTask s n) 0x01 (cmdCheck s (foreignPart s p n) 0x03
    (cmdCheck s (noPart s n || decide (96 ≤ a.link.toNat) || decide (12 < a.logsz.toNat)) 0x04
      (cmdDone (if a.theirs != ownSide s n || mapRole (mapOf s.fab a.link.toNat) != 0 then lockRefused s p
        else
          { s with kiln := { s.kiln with ls := { s.kiln.ls with
            want := some ⟨n, a.link.toNat, a.logsz.toNat, p, a.partner, a.key⟩ } } }) []))))

/-- R335: lock-step ends: ENABLE clears, and the partner link is out of service again. -/
def endLock (s : State) : State :=
  let x := s.kiln.ls
  let s1 := { s with kiln := { s.kiln with ls := { x with
    enable := false, want := none, sec := none, sums := [], next := 0, log := [], theirs := [], sentRec := none } } }
  if x.enable then linkStep s1 x.link (fun p => if p.lockstep then { backToIdent p with leftUp := false } else p) else s1

/-- LOCKSTEP_STOP (R335). -/
def cmdLockstepStop (s : State) : CmdOut := cmdAdmit s false (cmdDone (endLock s) [])

end Sys2Proof.Machine
end

