-- ==== Sys2Proof/Machine/LockRows.lean ====
section
/-! DEFINITION. Lock-step comparison: windows, records, divergence, and its ends (spec/12_determinism.md R331 to R335). -/

namespace Sys2Proof.Machine

/-- The 32 tiles of a cluster (R7). -/
def clusterTiles (m : Nat) : List Nat := (List.range 2048).filter (fun t => tileCluster t == m)

/-- R333: the digest of a stream: the sum over its cluster's tiles of their digests of its kind (0 link, 1 memory). -/
def streamDigest (tiles : SMap DWord) (n : Nat) : DWord :=
  (clusterTiles (n % 64)).foldl (fun d t => d + smGet 0 tiles (2 * t + n / 64)) 0

/-- R333: the 128 stream digests of a window. -/
def streamDigests (tiles : SMap DWord) : SMap DWord :=
  (List.range 128).foldl (fun m n => smSet 0 m n (streamDigest tiles n)) []

/-- R333: the tile digests of a window. -/
def windowTiles (sums : SMap DWord) (w : Nat) : SMap DWord :=
  (sums.filter (fun e => e.1 / 4096 == w)).map (fun e => (e.1 % 4096, e.2))

/-- An item of lock-step comparison of a window: a CORD or PUTM descriptor (R332). -/
def isItem (s : State) (w : Nat) (d : MDesc) : Bool := inPart s s.kiln.ls.part d.tile && d.cyc / 32768 == w && (dOp d == 6 || dOp d == 1)

/-- A word on the mesh is a request whose descriptor satisfies a test. -/
def requestIs (f : MDesc → Bool) (q : Option MWord) : Bool :=
  match q with
  | some (.request d) => f d
  | _ => false

/-- A tile holds such a request that has not left it: on its outbound path, or in a flit that it has yet to pass on. -/
def holdsRequest (f : MDesc → Bool) (t : Tile) : Bool :=
  t.outq.any (fun o => match o.2 with | .request d => f d | _ => false)
    || (t.wire ++ t.inbuf).any (fun e => e.2.any (fun x => [x.q0, x.q1, x.q2, x.q3].any (requestIs f)))

/-- R333: every item of a window has been offered to the crossbar or has reached its visibility point. -/
def itemsDone (s : State) (w : Nat) : Bool :=
  (partTiles (partOf s s.kiln.ls.part)).all (fun t => !holdsRequest (isItem s w) (tileOf s t)) &&
  s.ring.outQ.all (fun q => q.2.all (fun d => !isItem s w d))
    && s.ring.movers.all (fun m => m.2.queue.all (fun q => !isItem s w q.1))
    && s.ring.pulls.all (fun x => !isItem s w x.d || (x.op == 6 && decide (x.need ≤ x.got.length)))

/-- R333: every tile of the partition has completed the window's logical cycles, or has halted. -/
def tilesPast (s : State) (w : Nat) : Bool :=
  (partTiles (partOf s s.kiln.ls.part)).all (fun t =>
    let x := tileOf s t
    x.st != .run || x.halted || decide (32768 * (w + 1) ≤ x.cyc))

/-- A record belongs to a section of a step, in an attempt. -/
def sameSec (a b : LsWin) : Bool := a.step == b.step && a.sect == b.sect && a.attempt == b.attempt

/-- R334: a record of a higher ATTEMPT replaces those of lower attempts for that section. -/
def outdated (new old : LsWin) : Bool := new.step == old.step && new.sect == old.sect && decide (old.attempt < new.attempt)

/-- R334: the lowest stream in which two records differ. -/
def firstStream (a b : LsWin) : Option Nat := (List.range 128).find? (fun n => smGet 0 a.streams n != smGet 0 b.streams n)

/-- R334: the lowest tile of a differing stream. -/
def firstTile (a b : SMap DWord) (n : Nat) : Nat :=
  ((clusterTiles (n % 64)).find? (fun t => smGet 0 a (2 * t + n / 64) != smGet 0 b (2 * t + n / 64))).getD ((clusterTiles (n % 64)).headD 0)

/-- R334, R335: the first divergence is latched and posted; later ones only add to MISMATCH. -/
def diverge (s : State) (a : LsWin) (n t : Nat) : State :=
  let x := s.kiln.ls
  let y := { x with mismatch := min (x.mismatch + 1) 0xFFFF }
  if x.diverged then { s with kiln := { s.kiln with ls := y } }
  else
    let r1 := a.sect * 2 ^ 28 + a.attempt * 2 ^ 26 + a.win % 2 ^ 16 * 2 ^ 10 + n * 2 ^ 3
    postEvent { s with kiln := { s.kiln with ls := { y with
      diverged := true, rep0 := a.step, rep1 := BitVec.ofNat 32 r1, rep2 := BitVec.ofNat 32 t } } } [x.port] 0x17 none [a.step.toNat, r1, t]

/-- R334: comparing an own window with the partner's record of it. -/
def compareWin (s : State) (a : LsLog) (b : LsWin × SMap DWord) : State :=
  let s1 := { s with kiln := { s.kiln with ls := { s.kiln.ls with
    log := s.kiln.ls.log.map (fun e => if e = a then { e with met := true } else e)
    theirs := s.kiln.ls.theirs.erase b } } }
  match firstStream a.own b.1 with
  | some n => diverge s1 a.own n (firstTile a.tiles b.2 n)
  | none => s1

/-- The log keeps 2^LOGSZ windows: the oldest that has been compared goes (R333). -/
def trimLog (logsz : Nat) (l : List LsLog) : List LsLog :=
  if l.length ≤ 2 ^ logsz then l else l.eraseP (·.met)

/-- R333: window w of the section completes: it is logged, its record sent, and compared where the partner's is held. -/
def windowDone (s : State) (w : Nat) : State :=
  let x := s.kiln.ls
  match x.sec with
  | none => s
  | some (n, sect, att) =>
    let tiles := windowTiles x.sums w
    let own : LsWin := ⟨n, sect, att, w, streamDigests tiles⟩
    if !x.enable || x.next != w || !tilesPast s w || !itemsDone s w then s
    else
      let e : LsLog := ⟨own, tiles, false⟩
      let s1 := { s with kiln := { s.kiln with ls := { x with
        sums := x.sums.filter (fun k => k.1 / 4096 != w)
        next := w + 1
        log := trimLog x.logsz (x.log.filter (fun o => !outdated own o.own) ++ [e])
        theirs := x.theirs.filter (fun o => !outdated own o.1)
        sentRec := some own } } }
      match s1.kiln.ls.theirs.find? (fun o => sameSec o.1 own && o.1.win == w) with
      | some b => compareWin s1 e b
      | none => s1

/-- The record of a partner's message: streams and tiles that it leaves out are 0. -/
def recOf (x : LsRec) : LsWin × SMap DWord :=
  (⟨x.step, x.sect % 16, x.attempt % 4, x.win, x.streams.foldl (fun m e => smSet 0 m e.1 e.2) []⟩,
    x.tiles.foldl (fun m e => smSet 0 m e.1 e.2) [])

/-- R334: the partner's record arrives: compared where the own window is complete, else held. -/
def takeRec (s : State) (b : LsWin × SMap DWord) : State :=
  let x := s.kiln.ls
  if !x.enable then s
  else
    let s1 := { s with kiln := { s.kiln with ls := { x with
      log := x.log.filter (fun o => !outdated b.1 o.own)
      theirs := x.theirs.filter (fun o => !outdated b.1 o.1) ++ [b] } } }
    match s1.kiln.ls.log.find? (fun e => sameSec e.own b.1 && e.own.win == b.1.win && !e.met) with
    | some e => compareWin s1 e b
    | none => s1

/-- R335: lock-step is lost. -/
def loseLock (s : State) : State :=
  let port := s.kiln.ls.port
  let s1 := endLock s
  postEvent { s1 with kiln := { s1.kiln with ls := { s1.kiln.ls with lost := true } } } [port] 0x18 none [0x2C]

/-- COMPARISON_WINDOW_COMPLETE (R333). -/
def execComparisonWindowComplete (win : Nat) (s : State) : Host.Outcome State Fault Refusal := .next (windowDone s win)

/-- LOCKSTEP_RECORD (R334). -/
def execLockstepRecord (x : LsRec) (s : State) : Host.Outcome State Fault Refusal := .next (takeRec s (recOf x))

/-- LOCKSTEP_LAG_EXCEEDED (R335): the lag passes 2^LOGSZ windows. -/
def execLockstepLagExceeded (s : State) : Host.Outcome State Fault Refusal :=
  .next (whileKiln s (if s.kiln.ls.enable && decide (2 ^ s.kiln.ls.logsz < lsLag s.kiln.ls) then loseLock s else s))

/-- LOCKSTEP_RECORD_TIMEOUT (R335): no record for 10 ms after a window completed. -/
def execLockstepRecordTimeout (s : State) : Host.Outcome State Fault Refusal :=
  .next (whileKiln s (if s.kiln.ls.enable && decide (0 < lsLag s.kiln.ls) then loseLock s else s))

/-- LOCKSTEP_PARTNER_TIMEOUT (R331): the partner has not shown itself within 1 s: the start is refused. -/
def execLockstepPartnerTimeout (s : State) : Host.Outcome State Fault Refusal :=
  .next (whileKiln s (match s.kiln.ls.want with
    | some w => lockRefused { s with kiln := { s.kiln with ls := { s.kiln.ls with want := none } } } w.port
    | none => s))

end Sys2Proof.Machine
end

