-- ==== Sys2Proof/Machine/WatchRows.lean ====
section
/-! DEFINITION. The watchdog restart, Kiln's recovery, and telemetry (spec/15_kiln_firmware.md R397, R406 to R411,
spec/16_bringup_and_reset.md R426, R431). -/

namespace Sys2Proof.Machine

/-- KLN_WDOG. -/
def wdogWord (s : State) : Nat := (klnWord s 4).toNat

/-- R426: a watchdog restart during Kindling goes back to Stage 2, with the same start type. -/
def rewindKindling (s : State) : State :=
  if s.boot.state = 0 ∧ 2 < s.boot.stage then { s with boot := { s.boot with stage := 2, code := 0, stageAt := s.clock } } else s

/-- R406 to R408: the watchdog holds the Kiln cores in reset; work in progress is lost, a transfer's connection with it. -/
def watchdogFire (s : State) (core cause : Nat) : State :=
  let s0 := endTransfer (rewindKindling s)
  let s1 := (liveCtxs s0).foldl (fun x c => updCtx x c (fun y => { y with dbWait := false })) s0
  { s1 with kiln := { s1.kiln with
    stat := 2
    wdTotal := min (s1.kiln.wdTotal + 1) 0xFFFF
    wdTimes := s1.kiln.wdTimes ++ [s.clock]
    wdCause := cause
    wdCore := core
    cordWait := []
    resp := []
    regIn := none } }

/-- WATCHDOG_RESTART (R406, R407): core missed its reset, met an exception, or found an SRAM error (cause 0, 1, 2). -/
def execWatchdogRestart (core : Fin 4) (cause : Fin 3) (s : State) : Host.Outcome State Fault Refusal :=
  .next (if s.boot.running && decide (1 ≤ s.boot.stage) && s.kiln.stat != 2 then watchdogFire s core.val cause.val else s)

/-- R409 step 2: ABORT in every tile of every partition that holds a step. -/
def abortSteps (s : State) : State :=
  (allParts s).foldl (fun x p => if (runningCtx s p).isSome then abortPart x p else x) s

/-- R409 step 3: a mailbox whose command was RUNNING shows it done with KILN_RESTART. -/
def restartMbx (y : Mbx) : Mbx := if y.st = 2 then { y with st := 3, code := 0x0C } else y

/-- R409 steps 3 and 4: the mailboxes, and heartbeat sampling afresh. -/
def restartHost (x : HostPort) : HostPort :=
  { x with mbx := x.mbx.map (fun e => (e.1, restartMbx e.2)), beat := none, same := 0 }

/-- R302, R409 step 5: an interrupted step: a job arrives with REPLAY, a replayable image reruns from its first section, another
step ends. -/
def recoverStep (s : State) (c : Nat) : State :=
  let x := ctxOf s c
  match x.run with
  | none => s
  | some r =>
    match x.cord with
    | some _ =>
      let s1 := noteCause s c krReplay 0x08
      (match (ctxOf s1 c).run with
       | some q => if q.phase = .run then arriveJob s1 c (if r.sect = 1 then 1 else 0) q.status q.cause else s1
       | none => s1)
    | none =>
      if isReplayable x then
        updRun s c (fun y => { y with sect := 0, attempt := 0, attA := 0, attB := 0, status := 0, cause := 0x08, phase := .quiesce, done := [] })
      else failStep s c 0x0C true

/-- R409: the keep region is lost: every multi-module context arrives with FAILED, every step completes, every context pauses. -/
def loseStep (s : State) (c : Nat) : State :=
  let x := ctxOf s c
  match x.run with
  | none => updCtx s c (fun y => { y with st := .paused })
  | some r => failStep (if x.cord.isSome then arriveJob s c (if r.sect = 1 then 1 else 0) krFailed 0x08 else s) c 0x0C true

/-- R410: every context is left paused. -/
def pauseAll (s : State) : State := (liveCtxs s).foldl (fun x c => updCtx x c (fun y => { y with st := .paused })) s

/-- R413, R426: after a restart during Kindling, Stage 2 begins again. -/
def rebegin (s : State) : State := if s.boot.state = 0 ∧ s.boot.stage = 2 then beginStage s 2 else s

/-- R344: a Kiln that comes back while the handshake of a deasserted PWR_EN stands ends every context. -/
def endHandshake (s : State) : State := if s.pwr.handshake then (liveCtxs s).foldl endCtx s else s

/-- R409, R410: what the restarted Kiln does. -/
def recoverKiln (s : State) (keepOk : Bool) : State :=
  let s1 := abortSteps s
  let s2 := { s1 with p0 := restartHost s1.p0, p1 := restartHost s1.p1 }
  let s3 := (liveCtxs s2).foldl (if keepOk then recoverStep else loseStep) s2
  let s4 := if keepOk then s3 else postAll s3 0x15 []
  let s5 := logOnly (postAll { s4 with kiln := { s4.kiln with stat := 1 } } 0x14 [wdogWord s4]) 0x85 [wdogWord s4]
  if 4 ≤ recentRestarts s5 then
    let s6 := pauseAll s5
    postAll { s6 with kiln := { s6.kiln with stat := 3 } } 0x16 []
  else s5

/-- KILN_RESTART_RECOVERY (R409, R410): keepOk says that the keep region's CRC holds. -/
def execKilnRestartRecovery (keepOk : Bool) (s : State) : Host.Outcome State Fault Refusal :=
  .next (if s.boot.running && s.kiln.stat == 2 then endHandshake (rebegin (recoverKiln s keepOk)) else s)

/-- TELEMETRY_SAMPLE (R397, R472): every 1 ms; one in 2^decim is taken, and leaves KLN_LOAD and MBX_START for the side-band. -/
def execTelemetrySample (s : State) : Host.Outcome State Fault Refusal :=
  let n := (s.kiln.tick + 1) % 64
  .next (if kilnUp s then
      { s with kiln := { s.kiln with
        tick := n
        telem := if n % 2 ^ s.kiln.decim = 0 then some [klnWord s 8, mbxStartWord s] else s.kiln.telem } }
    else s)

/-- R397: the decimation exponent after 100 ms of a busy percentage. -/
def nextDecim (d busy : Nat) : Nat := if 90 < busy then min (d + 1) 6 else if busy < 70 then d - 1 else d

/-- DECIMATION_UPDATE (R397, R398): every 100 ms Kiln records its load and adjusts the decimation. -/
def execDecimationUpdate (x : LoadRead) (s : State) : Host.Outcome State Fault Refusal :=
  .next (if kilnUp s then
      { s with kiln := { s.kiln with
        busy := x.busy.val
        cbusy := x.cbusy
        queued := x.queued
        decim := nextDecim s.kiln.decim x.busy.val } }
    else s)

end Sys2Proof.Machine
end

