-- ==== Sys2Proof/Machine/BootRows.lean ====
section
/-! DEFINITION. Kindling: its nine stages, the start of an image, saved settings, the end of a trial (spec/16_bringup_and_reset.md R412 to
R425, spec/17_identity_and_update.md R433, R434, R441, R442, R449 to R453, spec/12_determinism.md R326, R327, spec/13_power_and_thermal.md
R347). -/

namespace Sys2Proof.Machine

/-- The big-endian field of n bytes at byte o of a header (R441). -/
def hdrField (h : List Byte) (o n : Nat) : Nat := beNat ((h.drop o).take n)

/-- Every byte of a range of a header is 0. -/
def hdrZero (h : List Byte) (o n : Nat) : Bool := ((h.drop o).take n).all (· == 0)

/-- BODY_LEN (R441). -/
def hdrBodyLen (h : List Byte) : Nat := hdrField h 18 4

/-- NBIND (R441). -/
def hdrNbind (h : List Byte) : Nat := hdrField h 22 2

/-- ROLLBACK (R441). -/
def hdrRollback (h : List Byte) : Nat := hdrField h 14 4

/-- BODY_DIGEST (R441). -/
def hdrDigest (h : List Byte) : List Byte := (h.drop 28).take 48

/-- R442 check 1: MAGIC, FORMAT, the range of BODY_LEN, NBIND, reserved bits and bytes. -/
def hdrFormOk (h : List Byte) : Bool :=
  let len := hdrBodyLen h
  let n := hdrNbind h
  h.length == 4096 && hdrField h 0 4 == 0x47543846 && hdrField h 4 2 == 1
    && decide (4096 ≤ len) && decide (len ≤ 4194304) && len % 4096 == 0 && decide (n ≤ 256) && decide (hdrField h 8 1 < 16)
    && hdrZero h 26 2 && hdrZero h 76 52 && hdrZero h (128 + 8 * n) (8 * (256 - n)) && hdrZero h 2176 1824

/-- R442 check 5: NBIND is 0, or the unit is bound. -/
def hdrBound (h : List Byte) (unit : Nat) : Bool :=
  hdrNbind h == 0 || (List.range (hdrNbind h)).any (fun i => hdrField h (128 + 8 * i) 8 == unit)

/-- R442: the status of a header: the first check that fails. -/
def headerStatus (f : Flash) (h : List Byte) (sigOk : Bool) : Nat :=
  if !hdrFormOk h then 0x40
  else if !sigOk then 0x41
  else if hdrField h 6 2 ≠ 0x7A08 ∨ !(hdrField h 8 1).testBit f.stepping then 0x42
  else if hdrField h 9 1 ≠ 1 then 0x43
  else if !hdrBound h f.unit.toNat then 0x44
  else if hdrRollback h < f.counter then 0x45
  else 0

/-- R442: an image that the boot ROM may start: its header passes, and its body has the digest. -/
def bootable (f : Flash) (i : FwImage) : Bool :=
  headerStatus f i.header i.sigOk == 0 && digest48 i.body == hdrDigest i.header

/-- An image region that verifies. -/
def okImage (f : Flash) (i : Option FwImage) : Option FwImage := i.filter (bootable f)

/-- R449: ACTIVE, else PREVIOUS, with its BOOTED number. -/
def idleImage (f : Flash) : Option (Nat × FwImage) :=
  match okImage f f.active, okImage f f.previous with
  | some i, _ => some (0, i)
  | none, some i => some (1, i)
  | none, none => none

/-- R449: STAGING where it verifies, else as for IDLE. -/
def stagedImage (f : Flash) : Option (Nat × FwImage) :=
  match okImage f f.staged with
  | some i => some (2, i)
  | none => idleImage f

/-- R453: a body that a power loss cut short is gone. -/
def dropCut (f : Flash) : Flash := if f.staging = 1 then f.dropStaged else f

/-- R449: the copy state at Stage 0: the update state record afterwards, and the image to start. -/
def chooseImage (f : Flash) : Flash × Option (Nat × FwImage) :=
  match f.copy with
  | 1 =>
    (match okImage f f.staged with
     | some i => (f.putUpd (fun u => { u with copy := 2 }), some (2, i))
     | none => let g := f.putUpd (fun u => { u with staging := 3, copy := 0 }); (g, idleImage g))
  | 2 => (f, stagedImage f)
  | 3 => (f, stagedImage f)
  | 4 =>
    if 4 ≤ f.tries + 1 then
      let g := f.putUpd (fun u => { u with tries := u.tries + 1, copy := 5 })
      (g, (okImage g g.previous).map (fun i => (1, i)))
    else
      let g := f.putUpd (fun u => { u with tries := u.tries + 1 })
      (g, idleImage g)
  | 5 => (f, (okImage f f.previous).map (fun i => (1, i)))
  | _ => (f, idleImage f)

/-- R449: the boot ROM starts an image; Kiln runs. -/
def startImage (s : State) (n : Nat) (i : FwImage) (ms : Nat) : State :=
  passStage { s with
    kiln := { s.kiln with stat := 1 }
    boot := { s.boot with booted := n, header := i.header, bootPosts := if n = 1 then [0, 1] else [] } } 0 0 ms

/-- R415: a stop in Stage 0: no Kiln runs, the register and the LED show it. -/
def romStop (s : State) (code ms : Nat) : State :=
  setReport { s with boot := { s.boot with state := 1, code := code, led := code, recovery := code == 2 } } 0 (reportWord code 3 false false ms)

/-- R415: without the service bank the qualifier removes the converter enable and shows code 3; PWR_EN must be cycled. -/
def serviceStop (s : State) : State :=
  let t := powerDown s
  { t with
    boot := { t.boot with state := 1, code := 3, led := 3 }
    pwr := { t.pwr with mustCycle := true, lowSeen := false } }

/-- STAGE_0 (R412, R415, R449): the self-test (codes 1 and 3 from the hardware), then the image by copy state. -/
def execStage0 (x : StageOut) (s : State) : Host.Outcome State Fault Refusal :=
  .next (if !inStage s 0 then s
    else if x.code = 1 then romStop s 1 x.ms
    else if x.code = 3 then serviceStop s
    else
      let r := chooseImage (dropCut s.flash)
      let s1 := { s with flash := r.1 }
      match r.2 with
      | some (n, i) => startImage s1 n i x.ms
      | none => romStop s1 2 x.ms)

/-- ROM_SELFTEST_TIMEOUT (R415): the boot ROM gives no result within 100 ms. -/
def execRomSelftestTimeout (s : State) : Host.Outcome State Fault Refusal := .next (if inStage s 0 then romStop s 1 100 else s)

/-- SERVICE_BANK_TIMEOUT (R415): no power-good of the service bank 50 ms after VPKG is up. -/
def execServiceBankTimeout (s : State) : Host.Outcome State Fault Refusal := .next (if inStage s 0 then serviceStop s else s)

/-- ASCII text. -/
def ascii (x : String) : List Byte := x.toList.map (fun c => BitVec.ofNat 8 c.toNat)

/-- R326: a trim as two letters and a two-digit revision. -/
def trimText (t : Nat × Nat × Nat) : List Byte :=
  [BitVec.ofNat 8 t.1, BitVec.ofNat 8 t.2.1, BitVec.ofNat 8 (0x30 + t.2.2 / 10 % 10), BitVec.ofNat 8 (0x30 + t.2.2 % 10)]

/-- Inserting a trim in alphabetical order of code. -/
def trimInsert (t : Nat × Nat × Nat) : List (Nat × Nat × Nat) → List (Nat × Nat × Nat)
  | [] => [t]
  | u :: us => if 256 * t.1 + t.2.1 < 256 * u.1 + u.2.1 then t :: u :: us else u :: trimInsert t us

/-- R326: the determinism class string. -/
def classString (f : Flash) : List Byte :=
  let trims := (f.trims.foldr trimInsert []).map trimText
  ascii "GT8/" ++ ascii (["A0", "A1", "B0", "B1"].getD f.stepping "A0") ++ ascii "/" ++ ascii (if f.grade = 0x0A then "A" else "B")
    ++ ascii "/" ++ (List.intersperse (ascii ".") trims).flatten

/-- R452: the settings records in another format generation: saved settings, service settings, full-start request. -/
def oldSettings (f : Flash) (fmt : Nat) : Nat :=
  b2n (match f.saved with | some r => r.fmt != fmt | none => false) + 2 * b2n (f.svcRec.value.fmt != fmt)
    + 4 * b2n (f.fullRec.value.1 != fmt)

/-- R452: settings records of another generation are written again with their defaults. -/
def resetSettings (s : State) : State :=
  let fmt := runningFmt s
  let k := oldSettings s.flash fmt
  if k = 0 then s
  else
    postAll { s with
      flash := { s.flash with
        savedRec := if k % 2 = 1 then s.flash.savedRec.write none else s.flash.savedRec
        svcRec := if k / 2 % 2 = 1 then s.flash.svcRec.write (svcDefault fmt) else s.flash.svcRec
        fullRec := if 4 ≤ k then s.flash.fullRec.write (fmt, false) else s.flash.fullRec }
      boot := { s.boot with reason := if k % 2 = 1 then 6 else s.boot.reason } } 0x1E [k]

/-- R433, R434: the identity key is reconstructed and the identity record is valid. -/
def identOk (f : Flash) (puf : PufRead) : Bool := f.identRec.valid && f.helperRec.valid && puf.within && puf.keyEq

/-- R33: both defect map records have a valid copy, with the module's UNIT_ID and one GRADE. -/
def defectMapOk (f : Flash) : Bool :=
  let a := f.factoryRec
  let b := f.fieldRec
  a.valid && b.valid && a.value.unit == f.unit && b.value.unit == f.unit && a.value.grade == b.value.grade

/-- R414, R434, R33: what stops Stage 1. -/
def stage1Code (f : Flash) (puf : PufRead) : Nat :=
  if !identOk f puf then 0x11
  else if !defectMapOk f then 0x12
  else if !(f.gradeRec.valid && f.trimRec.valid && f.retiredRec.valid) then 0x13
  else 0

/-- STAGE_1 (R327, R412, R433, R434, R451, R452): identity, records, settings, the determinism class string. A trial that reaches Stage 2
has its TRIES cleared. -/
def execStage1 (x : StageOut) (puf : PufRead) (serials : List Nat) (s : State) : Host.Outcome State Fault Refusal :=
  let code := stage1Code s.flash puf
  .next (if !inStage s 1 then s
    else
      let s1 := { s with
        boot := { s.boot with
          pufCorr := min puf.corr 0xFFFF
          idValid := identOk s.flash puf
          serials := (List.range 12).map (nth0 serials) }
        mem := (List.range 12).foldl (fun m i => setMemDev m 1 i { memDevOf m 1 i with present := nth0 serials i != 0 }) s.mem }
      if code ≠ 0 then stopKindling s1 1 code x.ms
      else
        let s2 := resetSettings s1
        passStage { s2 with
          kiln := { s2.kiln with dclass := (classString s2.flash).take 31 }
          flash := if s2.flash.copy = 4 then s2.flash.putUpd (fun u => { u with tries := 0 }) else s2.flash } 1 0 x.ms)

/-- R345, R347: the phases that fail the test are shed. -/
def shedAll (s : State) (bad : List (Nat × Nat × Nat)) : State :=
  bad.foldl (fun x b => if b.1 < 8 ∧ b.2.1 < 4 then logOnly (updPwr x (fun w => shedPhase w b.1 b.2.1)) 0x81 [b.1, b.2.1] else x) s

/-- R347, R414: what stops Stage 2. -/
def stage2Code (w : PwrState) : Nat :=
  if (List.range 8).any (fun n => unsustainable (fieldOf w n)) then 0x21 else if convWorking w < 15 then 0x22 else 0

/-- STAGE_2 (R347, R412, R422): every phase is tested; mtemp is the mean of the 16 converter sensors. bad names a field, a bank
and a phase. -/
def execStage2 (x : StageOut) (bad : List (Nat × Nat × Nat)) (mtemp : Int) (s : State) : Host.Outcome State Fault Refusal :=
  .next (if !inStage s 2 then s
    else
      let s1 := shedAll { s with boot := { s.boot with mtemp := mtemp } } bad
      let code := stage2Code s1.pwr
      if code ≠ 0 then stopKindling s1 2 code x.ms else passStage s1 2 0 x.ms)

/-- 30 days in ns (R422). -/
def thirtyDays : Nat := 2592000000000000

/-- R422: the age of saved settings in ns, where the current time counts. -/
def savedAge (s : State) (r : SavedRec) : Option Nat := if s.boot.waited then none else (utcNow s).map (fun u => u - r.time)

/-- R422, R424, R432: REASON: the first rule that fails. -/
def savedReason (s : State) : Nat :=
  match s.flash.saved with
  | none => if s.boot.reason = 6 then 6 else 1
  | some r =>
    if r.fmt ≠ runningFmt s then 6
    else if r.unit ≠ s.flash.unit then 2
    else if r.serials ≠ s.boot.serials then 3
    else if 15 < (s.boot.mtemp - r.temp).natAbs then 4
    else
      match savedAge s r with
      | none => 5
      | some a => if thirtyDays ≤ a then 5 else if s.flash.fullReq then 7 else 0

/-- R422, R423: at the beginning of Stage 3 Kiln decides the kind of start. -/
def decideStart (s : State) : State :=
  if s.boot.decided then s
  else
    let n := savedReason s
    { s with boot := { s.boot with
      decided := true
      savedOn := n == 0
      reason := n
      age := match s.flash.saved with
        | some r => min ((savedAge s r).getD 0 / 3600000000000) 0xFFF
        | none => 0
      stemp := match s.flash.saved with
        | some r => r.temp
        | none => 0 } }

/-- R192, R416: the replica-path results after Stage 3, by (64 × region + step) × 2 + 1 at 0.80 V: all measured at a full start;
at a fast start the saved ones, with steps 42 and 46 measured again. -/
def measuredPaths (s : State) (found : List PathRead) : SMap Nat :=
  let old := if s.boot.savedOn then (match s.flash.saved with | some r => r.paths | none => []) else []
  (found.filter (fun m => decide (20 ≤ m.step) && decide (m.step ≤ 46) && (!s.boot.savedOn || m.step == 42 || m.step == 46))).foldl
    (fun p m => smSet 0 p ((64 * m.region.val + m.step) * 2 + b2n m.high) m.value) old

/-- R192: every region's warning level is set from its results. -/
def setLevels (s : State) : State :=
  updPwr s (fun w => (List.range 128).foldl (fun v n => setRegion v n { regionOf v n with
    level := Config.warnLevel n (s.boot.paths.filter (fun e => e.1 / 128 == n)) }) w)

/-- STAGE_3 (R192, R416, R422, R423): the start type, then calibration, which records the voltage table. Kiln holds the stage
until a time has arrived or the wait is over. The hardware's codes are REFERENCE and CALIBRATION. -/
def execStage3 (x : StageOut) (c : Calib) (s : State) : Host.Outcome State Fault Refusal :=
  .next (if !inStage s 3 || (!s.boot.decided && !s.boot.waited && s.kiln.utc.isNone) then s
    else
      let s1 := decideStart s
      if x.code = 0x31 ∨ x.code = 0x32 then stopKindling s1 3 x.code x.ms
      else
        let s2 := updPwr s1 (fun w => { w with vtable := c.vtab.foldl (fun m e => smSet 0 m e.1 e.2) w.vtable })
        passStage (setLevels { s2 with boot := { s2.boot with paths := measuredPaths s1 c.paths } }) 3 0 x.ms)

/-- STAGE_3_TIME_WAIT (R423): 5 s after Stage 1 ended no time has arrived. -/
def execStage3TimeWait (s : State) : Host.Outcome State Fault Refusal :=
  .next (if inStage s 3 && s.kiln.utc.isNone then { s with boot := { s.boot with waited := true } } else s)

/-- NTP_ANSWER (R423): the current time in ns since 1970, once Stage 1 has begun. -/
def execNtpAnswer (utc : Nat) (s : State) : Host.Outcome State Fault Refusal := .next (if kilnUp s then learnTime s utc else s)

/-- R24, R417: what the wave of a field can find: defects of its tiles, and of the seams whose second field it brings up; a fast start
tests only lane groups that hold an entry. -/
def waveTests (s : State) (field : Nat) (x : Finding) : Bool :=
  match x with
  | .tile r c => physField r c == field
  | .column r c _ => physField r c == field
  | .lane m g _ => seamSecond m == field && (!s.boot.savedOn || !(badLanes (defects s.flash) m g).isEmpty)

/-- R39, R414: what stops Stage 4, where full says that a finding could not be recorded. -/
def stage4Code (es : List Nat) (full : Bool) : Nat :=
  if full then 0x43 else if twoBadTiles es then 0x41 else if threeBadLanes es then 0x42 else 0

/-- R36, R39, R417: one wave: its findings in one write, and the code that stops the stage. -/
def powerWave (s : State) (field : Nat) (found : List Defect) : State × Nat :=
  let r := addDefects s.flash (if s.boot.savedOn then 2 else 1) (dayNow s) ((found.filterMap findingOf).filter (waveTests s field))
  ({ s with flash := r.1 }, stage4Code (defects r.1) r.2)

/-- R417: the eight waves in order; a stop ends them. -/
def powerWaves (s : State) (found : List (List Defect)) : State × Nat :=
  (List.range 8).foldl (fun x n => if x.2 ≠ 0 then x else powerWave x.1 n (found.getD n [])) (s, 0)

/-- STAGE_4 (R37, R39, R40, R417): found holds the findings of the eight waves. The map takes effect, TILE_PHYS is loaded and every
scratchpad is zero. -/
def execStage4 (x : StageOut) (found : List (List Defect)) (s : State) : Host.Outcome State Fault Refusal :=
  .next (if !inStage s 4 then s
    else
      let r := powerWaves s found
      if r.2 ≠ 0 then stopKindling { r.1 with boot := { r.1.boot with unrep := true } } 4 r.2 x.ms
      else passStage (updTiles (applyMap { r.1 with boot := { r.1.boot with unrep := false } } (List.range 2048)) (List.range 2048)
        (fun _ y => { y with spad := [], badPar := [] })) 4 0 x.ms)

/-- R228, R418: recorded frames of a tier are withheld, and those that fail now are retired and recorded. -/
def withhold (s : State) (tier : Nat) (ws : List Nat) : State :=
  let s1 := (s.flash.retired.filter (fun r => r.1 == tier)).foldl (fun x r =>
    if isRetired x.mem r.1 r.2 then x else { x with mem := retireFrame x.mem r.1 r.2 }) s
  ws.foldl (fun x w => if w < tierFrames tier (ddrFitted s) then retire x tier w else x) s1

/-- R418: a device of a tier has more frames withheld than its limit. -/
def overWithheld (m : MemState) (tier n limit : Nat) : Bool :=
  (List.range n).any (fun i => decide (limit < (m.retired.filter (fun r => r.1 == tier && devOf tier r.2 == i)).length))

/-- The training of a tier's devices is done (R418, R419); present says which channels hold an RDIMM. -/
def trainDevs (m : MemState) (tier n : Nat) (present : Nat → Bool) : MemState :=
  (List.range n).foldl (fun x i => setMemDev x tier i { memDevOf x tier i with trained := true, present := present i }) m

/-- R422, R425: the training results of a tier's devices, by 16 × tier + device: those trained now, beside the saved ones at a
fast start. -/
def keepTraining (s : State) (tier : Nat) (res : List (Fin 16 × Nat)) : State :=
  let old := if s.boot.savedOn then (match s.flash.saved with | some r => r.train.filter (fun e => e.1 / 16 == tier) | none => []) else []
  { s with boot := { s.boot with
    train := res.foldl (fun m e => smSet 0 m (16 * tier + e.1.val) e.2)
      (old.foldl (fun m e => smSet 0 m e.1 e.2) (s.boot.train.filter (fun e => e.1 / 16 != tier))) } }

/-- STAGE_5 (R228, R418, R419): HBM4 training and test; the hardware's code is HBM_TRAIN. -/
def execStage5 (x : StageOut) (r : MemTrain) (s : State) : Host.Outcome State Fault Refusal :=
  .next (if !inStage s 5 then s
    else if x.code = 0x51 then stopKindling s 5 0x51 x.ms
    else
      let s1 := withhold (keepTraining { s with mem := trainDevs s.mem 0 16 (fun _ => true) } 0 r.trained) 0 r.withheld
      if overWithheld s1.mem 0 16 2621 then stopKindling s1 5 0x52 x.ms else passStage s1 5 0 x.ms)

/-- R254: the saved link settings are loaded where the module's saved settings are valid. -/
def loadSaved (s : State) (l : Nat) : Option LinkSaved :=
  match s.flash.saved with
  | some r => if s.boot.savedOn then (r.links.find? (fun e => e.1 == l)).map (·.2) else none
  | none => none

/-- R254, R420: Stage 7 begins: every link that has light from its blade trains. -/
def trainAll (s : State) : State :=
  linksStep s (List.range 96) (fun k => (List.range 96).foldl (fun y l =>
    let p := portOf y l
    if p.st = lsDown ∧ p.cause ≠ 4 ∧ linkLit y l then
      setPort y l (startTraining { p with savedSet := loadSaved s l } s.boot.savedOn)
    else y) k)

/-- STAGE_6 (R4, R418 to R420): DDR5, skipped on GT8-A-1024; the hardware's codes are DIMM_UNQUALIFIED and DDR_TRAIN. -/
def execStage6 (x : StageOut) (r : MemTrain) (s : State) : Host.Outcome State Fault Refusal :=
  .next (if !inStage s 6 then s
    else if !ddrFitted s then trainAll (passStage s 6 0x60 x.ms)
    else if s.boot.serials.any (· == 0) then stopKindling s 6 0x61 x.ms
    else if x.code = 0x62 ∨ x.code = 0x63 then stopKindling s 6 x.code x.ms
    else
      let s1 := withhold (keepTraining { s with mem := trainDevs s.mem 1 12 (fun i => nth0 s.boot.serials i != 0) } 1 r.trained) 1 r.withheld
      if overWithheld s1.mem 1 12 5242 then stopKindling s1 6 0x64 x.ms else trainAll (passStage s1 6 0 x.ms))

/-- R420: LINKS_PARTIAL where a link ended outside IDENT. -/
def linksCode (s : State) : Nat := if (List.range 96).all (fun l => (portOf s.lk l).st == lsIdent) then 0 else 0x70

/-- STAGE_7 (R420): no link is training any more. -/
def execStage7 (x : StageOut) (s : State) : Host.Outcome State Fault Refusal :=
  .next (if inStage s 7 && (List.range 96).all (fun l => (portOf s.lk l).st != lsTraining) then passStage s 7 (linksCode s) x.ms else s)

/-- STAGE_7_TIMEOUT (R420): 2 s after it began Stage 7 ends; links still training go on. -/
def execStage7Timeout (ms : Nat) (s : State) : Host.Outcome State Fault Refusal :=
  .next (if inStage s 7 then passStage s 7 (linksCode s) ms else s)

/-- R254: the links' settings as they are saved. -/
def linkEntries (s : State) : List (Nat × LinkSaved) :=
  (List.range 96).filterMap (fun l => (portOf s.lk l).savedSet.map (fun v => (l, v)))

/-- R421, R424: saved settings at the end of Kindling: new ones after a full start, which clears a full-start request; after a
fast start the link entries only. The saving time is a free value where the current time is not known. -/
def saveSettings (s : State) : State :=
  if s.boot.savedOn then
    { s with flash := s.flash.putSaved (s.flash.saved.map (fun r => { r with links := linkEntries s })) }
  else
    let d := drawFree s
    let t := if (utcNow s).isSome then s else d.2
    { t with flash := (t.flash.putSaved (some ⟨runningFmt s, s.flash.unit, s.boot.serials, (utcNow s).getD d.1, s.boot.mtemp,
      linkEntries s, s.boot.paths, s.boot.train⟩)).putFull (runningFmt s) false }

/-- R451: the end of a trial: the counter is raised, STAGING is EMPTY, FIRMWARE_ACTIVATED is posted. -/
def endTrial (s : State) : State :=
  if s.flash.copy ≠ 4 then s
  else
    let c := max s.flash.counter (match s.flash.active with | some i => hdrRollback i.header | none => 0)
    postAll { s with flash := { s.flash.putUpd (fun u => { u with staging := 0, copy := 0 }) with
      counter := c, staged := none } } 0x1B [imgVersion s.flash.active, c]

/-- R314: an expelled module offers itself as a spare after a full start. -/
def spareAgain (s : State) : State :=
  if s.flash.expelled && !s.boot.savedOn then
    { s with flash := { s.flash with expelled := false }, boot := { s.boot with sparePosts := [0, 1] } }
  else s

/-- STAGE_8 (R314, R421, R451): the module is ready. -/
def execStage8 (x : StageOut) (s : State) : Host.Outcome State Fault Refusal :=
  .next (if !inStage s 8 then s
    else
      let s1 := spareAgain (saveSettings s)
      endTrial (postReport { s1 with boot := { s1.boot with state := 2, code := 0 } } 8 (reportWord 0 2 (fastStage s 8) false x.ms)))

/-- R450, R451: a background copy ends. -/
def advanceCopy (s : State) : State :=
  let f := s.flash
  match f.copy with
  | 2 =>
    (match okImage f f.active with
     | some i => { s with flash := { f.putUpd (fun u => { u with copy := 3 }) with previous := some i } }
     | none => { s with flash := f.putUpd (fun u => { u with copy := 3 }) })
  | 3 => { s with flash := { f.putUpd (fun u => { u with copy := 4, tries := 0 }) with active := f.staged } }
  | 5 => postAll { s with flash := { f.putUpd (fun u => { u with staging := 3, copy := 0 }) with active := f.previous } } 0x1C [imgVersion f.previous]
  | _ => s

/-- IMAGE_COPY_DONE (R450, R451): the copy that the started image makes has been written and verifies. -/
def execImageCopyDone (s : State) : Host.Outcome State Fault Refusal :=
  .next (if kilnUp s && ((s.boot.booted == 2 && decide (s.flash.copy < 4)) || (s.boot.booted == 1 && s.flash.copy == 5)) then advanceCopy s else s)

end Sys2Proof.Machine
end

