-- ==== Sys2Proof/Machine/CommandRows.lean ====
section
/-! DEFINITION. The meanings of the mailbox commands as commands of the block (spec/18_command_catalogue.md R455 to R457): the effect, with
STATUS and results as Kiln's last response. -/

namespace Sys2Proof.Machine

/-- INFO (R457): unit, stepping, grade, MBX_START and the version of ACTIVE. -/
def execInfo (_port : Fin 2) (s : State) : Host.Outcome State Fault Refusal :=
  .next (cmdRun s (cmdInfo s))

/-- TIME_SET (R288, R423, R457). -/
def execTimeSet (_port : Fin 2) (utc : DWord) (s : State) : Host.Outcome State Fault Refusal :=
  .next (cmdRun s (cmdTimeSet s utc.toNat))

/-- RESTART (R413). -/
def execRestart (_port : Fin 2) (s : State) : Host.Outcome State Fault Refusal :=
  .next (cmdRun s (cmdRestart s))

/-- FULL_START (R424). -/
def execFullStart (_port : Fin 2) (s : State) : Host.Outcome State Fault Refusal :=
  .next (cmdRun s (cmdFullStart s))

/-- DEFECT_READ (R30, R457). -/
def execDefectRead (_port : Fin 2) (kind : Byte) (off : Word) (s : State) : Host.Outcome State Fault Refusal :=
  .next (cmdRun s (cmdDefectRead s kind.toNat off.toNat))

/-- ACTIVATE (R446). -/
def execActivate (_port : Fin 2) (at_ : DWord) (window : BitVec 16) (s : State) : Host.Outcome State Fault Refusal :=
  .next (cmdRun s (cmdActivate s at_ window.toNat))

/-- ACTIVATE_CANCEL (R446). -/
def execActivateCancel (_port : Fin 2) (s : State) : Host.Outcome State Fault Refusal :=
  .next (cmdRun s (cmdActivateCancel s))

/-- ATTACH (R382, R390, R391). -/
def execAttach (port : Fin 2) (a : AttachArgs) (s : State) : Host.Outcome State Fault Refusal :=
  .next (cmdRun s (cmdAttach s port.val a))

/-- DETACH (R390). -/
def execDetach (port : Fin 2) (s : State) : Host.Outcome State Fault Refusal :=
  .next (cmdRun s (cmdDetach s port.val))

/-- BAR2_WINDOW (R377). -/
def execBar2Window (port : Fin 2) (page : Word) (s : State) : Host.Outcome State Fault Refusal :=
  .next (cmdRun s (cmdBar2Window s port.val page.toNat))

/-- TRACE_CONFIG (R405). -/
def execTraceConfig (_port : Fin 2) (mask : DWord) (s : State) : Host.Outcome State Fault Refusal :=
  .next (cmdRun s (cmdTraceConfig s mask))

/-- PART_CONFIG (R176, R178). -/
def execPartConfig (port : Fin 2) (part : Byte) (fmask : Byte) (mode : Byte) (gang : Byte) (s : State) : Host.Outcome State Fault Refusal :=
  .next (cmdRun s (cmdPartConfig s port.val part.toNat fmask.toNat mode.toNat gang.toNat))

/-- PART_POWER_ON (R366). -/
def execPartPowerOn (port : Fin 2) (part : Byte) (s : State) : Host.Outcome State Fault Refusal :=
  .next (cmdRun s (cmdPartPowerOn s port.val part.toNat))

/-- PART_POWER_OFF (R183). -/
def execPartPowerOff (port : Fin 2) (part : Byte) (s : State) : Host.Outcome State Fault Refusal :=
  .next (cmdRun s (cmdPartPowerOff s port.val part.toNat))

/-- POWER_POLICY (R351, R355). -/
def execPowerPolicy (port : Fin 2) (cap : BitVec 16) (part : Byte) (mode : Byte) (stp : Byte) (s : State) : Host.Outcome State Fault Refusal :=
  .next (cmdRun s (cmdPowerPolicy s port.val cap.toNat part.toNat mode.toNat stp.toNat))

/-- CTX_CREATE (R399). -/
def execCtxCreate (port : Fin 2) (a : CtxArgs) (s : State) : Host.Outcome State Fault Refusal :=
  .next (cmdRun s (cmdCtxCreate s port.val a))

/-- CTX_PAUSE (R402). -/
def execCtxPause (port : Fin 2) (c : Byte) (s : State) : Host.Outcome State Fault Refusal :=
  .next (cmdRun s (cmdCtxPause s port.val c.toNat))

/-- CTX_RESUME (R402, R410). -/
def execCtxResume (port : Fin 2) (c : Byte) (s : State) : Host.Outcome State Fault Refusal :=
  .next (cmdRun s (cmdCtxResume s port.val c.toNat))

/-- CTX_DESTROY (R457). -/
def execCtxDestroy (port : Fin 2) (c : Byte) (s : State) : Host.Outcome State Fault Refusal :=
  .next (cmdRun s (cmdCtxDestroy s port.val c.toNat))

/-- CTX_RESTORE (R318). -/
def execCtxRestore (port : Fin 2) (c : Byte) (a : RestoreArgs) (s : State) : Host.Outcome State Fault Refusal :=
  .next (cmdRun s (cmdCtxRestore s port.val c.toNat a))

/-- TMAP_MAP (R209, R210, R457). -/
def execTmapMap (port : Fin 2) (first : Word) (count : Word) (part : Byte) (tier : Byte) (writable : Byte) (s : State) : Host.Outcome State Fault Refusal :=
  .next (cmdRun s (cmdTmapMap s port.val first.toNat count.toNat part.toNat tier.toNat writable.toNat))

/-- TMAP_UNMAP (R382, R457). -/
def execTmapUnmap (port : Fin 2) (first : Word) (count : Word) (s : State) : Host.Outcome State Fault Refusal :=
  .next (cmdRun s (cmdTmapUnmap s port.val first.toNat count.toNat))

/-- TMAP_READ (R209). -/
def execTmapRead (port : Fin 2) (first : Word) (count : Byte) (s : State) : Host.Outcome State Fault Refusal :=
  .next (cmdRun s (cmdTmapRead s port.val first.toNat count.toNat))

/-- FABRIC_ASSIGN (R264, R292). -/
def execFabricAssign (_port : Fin 2) (a : AssignArgs) (s : State) : Host.Outcome State Fault Refusal :=
  .next (cmdRun s (cmdFabricAssign s a))

/-- LINK_DISABLE (R253). -/
def execLinkDisable (_port : Fin 2) (link : Byte) (s : State) : Host.Outcome State Fault Refusal :=
  .next (cmdRun s (cmdLinkDisable s link.toNat))

/-- LINK_ENABLE (R254, R256). -/
def execLinkEnable (_port : Fin 2) (link : Byte) (s : State) : Host.Outcome State Fault Refusal :=
  .next (cmdRun s (cmdLinkEnable s link.toNat))

/-- BLADE_RELEASE (R243). -/
def execBladeRelease (_port : Fin 2) (blade : Byte) (s : State) : Host.Outcome State Fault Refusal :=
  .next (cmdRun s (cmdBladeRelease s blade.toNat))

/-- FAILURE_RATE (R309). -/
def execFailureRate (_port : Fin 2) (c : Byte) (mtbf : Word) (s : State) : Host.Outcome State Fault Refusal :=
  .next (cmdRun s (cmdFailureRate s c.toNat mtbf.toNat))

/-- CORD_SETUP (R276, R277). -/
def execCordSetup (port : Fin 2) (cord : BitVec 16) (ent : BitVec 256) (s : State) : Host.Outcome State Fault Refusal :=
  .next (cmdRun s (cmdCordSetup s port.val cord.toNat ent))

/-- CORD_READ (R276). -/
def execCordRead (port : Fin 2) (cord : BitVec 16) (s : State) : Host.Outcome State Fault Refusal :=
  .next (cmdRun s (cmdCordRead s port.val cord.toNat))

/-- RANK_REPLACE (R312). -/
def execRankReplace (port : Fin 2) (a : ReplaceArgs) (s : State) : Host.Outcome State Fault Refusal :=
  .next (cmdRun s (cmdRankReplace s port.val a))

/-- EMBER_SETUP (R306). -/
def execEmberSetup (port : Fin 2) (a : EmberArgs) (s : State) : Host.Outcome State Fault Refusal :=
  .next (cmdRun s (cmdEmberSetup s port.val a))

/-- DIGEST_SETUP (R316, R317). -/
def execDigestSetup (port : Fin 2) (a : DigestArgs) (s : State) : Host.Outcome State Fault Refusal :=
  .next (cmdRun s (cmdDigestSetup s port.val a))

/-- REFILL_DONE (R305). -/
def execRefillDone (port : Fin 2) (c : Byte) (page : Word) (s : State) : Host.Outcome State Fault Refusal :=
  .next (cmdRun s (cmdRefillDone s port.val c.toNat page.toNat))

/-- FORCE_COPY (R310). -/
def execForceCopy (port : Fin 2) (c : Byte) (s : State) : Host.Outcome State Fault Refusal :=
  .next (cmdRun s (cmdForceCopy s port.val c.toNat))

/-- LOCKSTEP_START (R331). -/
def execLockstepStart (port : Fin 2) (a : LockArgs) (s : State) : Host.Outcome State Fault Refusal :=
  .next (cmdRun s (cmdLockstepStart s port.val a))

/-- LOCKSTEP_STOP (R335). -/
def execLockstepStop (_port : Fin 2) (s : State) : Host.Outcome State Fault Refusal :=
  .next (cmdRun s (cmdLockstepStop s))

/-- PARTITION_OFF_DRAINED (R183): a draining partition's queues are empty. -/
def execPartitionOffDrained (part : Fin 8) (s : State) : Host.Outcome State Fault Refusal := .next (whileKiln s (partDrained s part.val))

end Sys2Proof.Machine
end

