-- ==== Sys2Proof/Machine/FabricRows.lean ====
section
/-! DEFINITION. The meanings of the fabric's packet, line state and time commands (spec/10_fabric_and_cords.md R267 to R289). -/

namespace Sys2Proof.Machine

/-- A bulk packet arrives on a link; the partner link's is consumed (R331). -/
def bulkOn (s : State) (l : Nat) (cls : PClass) (h : PktHdr) (words : List (List Byte)) : State :=
  let s1 := takeRx s l (.bulk cls h words)
  if onPartner s l then s1 else receiveBulk s1 cls h words

/-- WRITE (R269, R270, R277): a window write packet arrives on a link. -/
def execWrite (l : Fin 96) (h : PktHdr) (words : List (List Byte)) (s : State) : Host.Outcome State Fault Refusal :=
  .next (bulkOn s l.val .write h words)

/-- GATHER (R270, R279, R307): a GATHER copy arrives on a link. -/
def execGather (l : Fin 96) (h : PktHdr) (words : List (List Byte)) (s : State) : Host.Outcome State Fault Refusal :=
  .next (bulkOn s l.val .gather h words)

/-- CONTRIB (R270, R280 to R284): a contribution arrives on a link. -/
def execContrib (l : Fin 96) (h : PktHdr) (words : List (List Byte)) (s : State) : Host.Outcome State Fault Refusal :=
  .next (bulkOn s l.val .contrib h words)

/-- PARTIAL (R270, R283, R284): a partial arrives on a link. -/
def execPartialSum (l : Fin 96) (h : PktHdr) (words : List (List Byte)) (s : State) : Host.Outcome State Fault Refusal :=
  .next (bulkOn s l.val .part h words)

/-- RED_SLOT_STALL (R284): a slot is incomplete 10 ms after its first contribution: it is freed, and CORD_STALL ends the step. -/
def execRedSlotStall (k : Fin 24) (slot : Fin 128) (s : State) : Host.Outcome State Fault Refusal :=
  .next (match (redSlots s.fab.red k.val)[slot.val]? with
    | none => s
    | some o =>
      notePart (updFab s (fun f => { f with red := { freeSlot f.red o with stall := smSet 0 f.red.stall k.val 1 } }))
        (cordOf s.fab o.cord).part krReplay 0x05)

/-- The completion heads a received COMPL packet of a port. -/
def headCompl (p : LinkPort) (x : Compl) : Bool :=
  match p.rxPkts with
  | .compl (y :: _) :: _ => y == x
  | _ => false

/-- Taking the first completion of a received COMPL packet (R267: up to eight). -/
def dropCompl (p : LinkPort) : LinkPort :=
  match p.rxPkts with
  | .compl (_ :: y :: ys) :: rest => { p with rxPkts := .compl (y :: ys) :: rest }
  | .compl _ :: rest => { p with rxPkts := rest }
  | _ => p

/-- A completion is taken from the port that received it. -/
def takeRxCompl (s : State) (x : Compl) : State :=
  match (List.range 96).find? (fun l => headCompl (portOf s.lk l) x) with
  | some l => updLink s l dropCompl
  | none => s

/-- The completion was received on the partner link of lock-step (R331). -/
def complOnPartner (s : State) (x : Compl) : Bool :=
  match (List.range 96).find? (fun l => headCompl (portOf s.lk l) x) with
  | some l => onPartner s l
  | none => false

/-- COMPL (R269, R270): a completion arrives; it answers an outstanding packet or GATHER copy here, or goes on. -/
def execCompl (x : Compl) (s : State) : Host.Outcome State Fault Refusal :=
  let s1 := takeRxCompl s x
  .next (if complOnPartner s x then s1 else if x.dst = s.fab.addr then takeCompl s1 x else sendCtl s1 (.compl [x]))

/-- PACKET_RETRY (R269): 10 µs after a refusal with RESETTING or RED_FULL the packet is resent; after 10 ms the refusal is final. -/
def execPacketRetry (i : Nat) (expired : Bool) (s : State) : Host.Outcome State Fault Refusal :=
  .next (match s.fab.out[i]? with
    | none => s
    | some o =>
      match o.again, o.refused with
      | true, some r =>
        (if expired then packetDone s o r.2
        else
          injectBulk (updFab s (fun f => { f with out := f.out.map (fun x => if x = o then { x with again := false } else x) })) o.pkt)
      | _, _ => s)

/-- LINKSTATE (R271): a notice replaces the sender's row, or goes on. -/
def execLinkstate (l : Fin 96) (dst : BitVec 16) (src : BitVec 16) (dim : Fin 3) (m : LineMask)
    (s : State) : Host.Outcome State Fault Refusal :=
  let k : Packet := .lineState dst src dim.val m.mask.toNat m.dtr
  let s1 := takeRx s l.val k
  .next (if onPartner s l.val then s1
    else if dst = s.fab.addr then
      updFab s1 (fun f => { f with lines := smSet 0 f.lines (32 * dim.val + coord src dim.val) m.mask.toNat })
    else sendCtl s1 k)

/-- LINKSTATE_TIMER (R271): every 100 ms the module announces its bundles in every dimension. -/
def execLinkstateTimer (s : State) : Host.Outcome State Fault Refusal := .next ((List.range 3).foldl sendLine s)

/-- The coordinates in which two addresses differ: the depth below the root is at most 3 (R288). -/
def addrDepth (a b : BitVec 16) : Nat := ((List.range 3).filter (fun d => coord a d != coord b d)).length

/-- TIME_EXCHANGE (R288): a module that is not the time root sends a TIME packet to its time parent below a root; its stamp is
taken as it leaves. -/
def execTimeExchange (root : BitVec 16) (s : State) : Host.Outcome State Fault Refusal :=
  .next (if s.fab.addrOn && !s.fab.root then
      sendCtl (updFab s (fun f => { f with t1 := none, depth := addrDepth f.addr root }))
        (.time (timeParent s.fab root) s.fab.addr 0 0 0 false false)
    else s)

/-- R288: the offset of the parent's time over this module's, from the four stamps, for equal path delays; t4 is this module's receipt. -/
def timeOffset (x : TimeStamps) (t4 : Nat) : Int := (((x.t2 : Int) - x.t1) + ((x.t3 : Int) - t4)) / 2

/-- The IR cycles since the last exchange; 0 where there was none. -/
def sinceExchange (f : FabState) (clock : Nat) : Nat :=
  match f.lastX with
  | some c => clock - c
  | none => 0

/-- R288: the rate that an exchange sets: the drift found since the last one, beyond what was still to be corrected, joins the
rate in use. -/
def newRate (f : FabState) (o : Int) (clock : Nat) : Int :=
  let n := sinceExchange f clock
  if n = 0 then 0 else (if f.period = 0 then 0 else f.rate * (n : Int) / (f.period : Int)) + (o * 16000 - f.corr)

/-- R288, R289: an exchange completes: the correction is slewed, or stepped forward once at admission. -/
def timeAnswer (s : State) (l : Nat) (x : TimeStamps) : State :=
  if s.fab.t1 ≠ some x.t1 then s
  else
    let o := timeOffset x (ftimeNs s.fab)
    updFab s (fun f =>
      let g := { f with
        t1 := none
        ftValid := true
        parent := l
        rate := newRate f o s.clock
        period := sinceExchange f s.clock
        acc := 0
        lastX := some s.clock
        offset := o }
      if !f.stepped && decide (0 < o) then { g with ftime := f.ftime + o.toNat * 16000, corr := 0, stepped := true }
      else { g with corr := o * 16000, stepped := true })

/-- TIME (R288): a TIME packet arrives: a child's is answered with the stamp of its receipt, and that of the answer is taken as it
leaves; the parent's answer sets offset and rate; one for another module goes on. -/
def execTime (l : Fin 96) (dst : BitVec 16) (src : BitVec 16) (stamps : TimeStamps) (s : State) : Host.Outcome State Fault Refusal :=
  let k : Packet := .time dst src stamps.t1 stamps.t2 stamps.t3 stamps.answer stamps.dtr
  let s1 := takeRx s l.val k
  .next (if onPartner s l.val then s1
    else if dst ≠ s.fab.addr then sendCtl s1 k
    else if stamps.answer then timeAnswer s1 l.val stamps
    else sendCtl s1 (.time src dst stamps.t1 (ftimeNs s1.fab) 0 true false))

/-- FTIME_SYNC_LOST (R289): no exchange completes for 1 s; LINK_FTSTAT.VALID clears. The root keeps its own time. -/
def execFtimeSyncLost (s : State) : Host.Outcome State Fault Refusal :=
  .next (if s.fab.root then s else updFab s (fun f => { f with ftValid := false }))

end Sys2Proof.Machine
end

