-- ==== Sys2Proof/Machine/LinkRows.lean ====
section
/-! DEFINITION. The meanings of the commands of the optical links and laser blades (spec/09_optical_links.md R240 to R257,
spec/10_fabric_and_cords.md R264, R265, spec/19_module_hardware.md R474). -/

namespace Sys2Proof.Machine

/-- The four links of a laser, or of the laser that a spare replaces. -/
def failLinks (s : State) (b laser : Nat) : List Nat :=
  if 16 ≤ laser then laserLinks b (smGet 0 (bladeOf s.lk b).spareFor (laser - 16)) else laserLinks b laser

/-- R240: a failure that switches a spare in is logged as a swap. -/
def logSwap (s0 s : State) (b laser : Nat) (wear : Bool) : State :=
  if (bladeOf s.lk b).spareUsed ≠ (bladeOf s0.lk b).spareUsed then logOnly s 0x82 [b, laser, b2n wear] else s

/-- LASER_FAIL (R240, R242): a laser of blade b is declared failed: 0–15 active, 16–19 spares by wavelength. -/
def execLaserFail (b : Fin 6) (laser : Fin 20) (wear : Bool) (s : State) : Host.Outcome State Fault Refusal :=
  .next (logSwap s (linksStep s (failLinks s b.val laser.val) (fun k => laserFail k b.val laser.val)) b.val laser.val wear)

/-- SPARE_LASER_STABLE (R240): the spare's light is stable and its ports send the resynchronisation pattern. -/
def execSpareLaserStable (b : Fin 6) (w : Fin 4) (s : State) : Host.Outcome State Fault Refusal :=
  let x := bladeOf s.lk b.val
  .next (if x.spareUsed.testBit w.val then
      updLinks s (fun k => updPorts k (laserLinks b.val (smGet 0 x.spareFor w.val)) (fun p => spareStable p w.val))
    else s)

/-- RESYNC_DONE (R240): the port returns to UP and resends every unacknowledged flit, where its signal is there. -/
def execResyncDone (l : Fin 96) (s : State) : Host.Outcome State Fault Refusal :=
  .next (if (portOf s.lk l.val).resync then linkStep s l.val (fun p => unpause { p with resync := false } s.clock) else s)

/-- LOSS_OF_SIGNAL (R241): the port enters PAUSED and owes NAKs. -/
def execLossOfSignal (l : Fin 96) (s : State) : Host.Outcome State Fault Refusal := .next (linkStep s l.val lossOfSignal)

/-- LANE_SYNC_REGAINED (R241): the port returns to UP without retraining. -/
def execLaneSyncRegained (l : Fin 96) (s : State) : Host.Outcome State Fault Refusal :=
  .next (linkStep s l.val (fun p => unpause { p with noSignal := false } s.clock))

/-- PAUSED_TIMEOUT (R241): signal is not back within 1 ms; the port retrains. -/
def execPausedTimeout (l : Fin 96) (s : State) : Host.Outcome State Fault Refusal :=
  .next (linkStep s l.val (fun p => if p.st = lsPaused ∧ p.noSignal then retrain p s.clock else p))

/-- BLADE_DRAWN (R243): a blade is drawn. -/
def execBladeDrawn (b : Fin 6) (s : State) : Host.Outcome State Fault Refusal :=
  .next (linksStep s (bladeLinks b.val) (fun k => bladeDrawn k b.val))

/-- Kiln trains links: it runs, and Stage 7 has begun (R253, R420). -/
def kilnTrains (s : State) : Bool := kilnUp s && decide (7 ≤ s.boot.stage)

/-- BLADE_INSERTED (R243, R259, R474): a blade is seated; its state clears and Kiln trains its links. -/
def execBladeInserted (b : Fin 6) (s : State) : Host.Outcome State Fault Refusal :=
  .next (linksStep s (bladeLinks b.val) (fun k => bladeInserted k b.val (useSaved s) (kilnTrains s)))

/-- BLADE_SEAT_TIMEOUT (R474): a blade is still partly seated after 2 s: its links train only after it is drawn and seated again. -/
def execBladeSeatTimeout (b : Fin 6) (s : State) : Host.Outcome State Fault Refusal :=
  .next (updLinks s (fun k =>
    if (bladeOf k b.val).present then k else setBlade k b.val { bladeOf k b.val with stuck := true }))

/-- LINK_FLIT_RECEIVE (R244 to R250, R272): a flit frame arrives and is decoded; a good flit goes to the crossbar. -/
def execLinkFlitReceive (l : Fin 96) (x : LineRead) (s : State) : Host.Outcome State Fault Refusal :=
  let y := readLine x.frame x.err
  let r := receiveFrame (portOf s.lk l.val) y.1 y.2 s.clock
  let s1 := linkStep s l.val (fun _ => r.1)
  .next (match r.2 with
    | some g => crossFlit s1 l.val g
    | none => s1)

/-- ACK_TIMEOUT (R250): a flit of a VC stays unacknowledged for 1,024 flit times. -/
def execAckTimeout (l : Fin 96) (vc : Fin 3) (s : State) : Host.Outcome State Fault Refusal :=
  .next (linkStep s l.val (fun p => ackTimeout p vc.val s.clock))

/-- LINK_ERROR_RATE (R251): too many corrected symbols or bad flits in 1 ms. -/
def execLinkErrorRate (l : Fin 96) (s : State) : Host.Outcome State Fault Refusal :=
  .next (linkStep s l.val (fun p => if p.st = lsUp then retrain p s.clock else p))

/-- LANE_SYNC_LOST (R251): lane sync is lost outside PAUSED. -/
def execLaneSyncLost (l : Fin 96) (s : State) : Host.Outcome State Fault Refusal :=
  .next (linkStep s l.val (fun p => if p.st = lsUp then retrain p s.clock else p))

/-- LINK_TRAIN (R253, R254, R242): Kiln starts training a link that is DOWN, unless it has no light or its engine is hot. -/
def execLinkTrain (l : Fin 96) (s : State) : Host.Outcome State Fault Refusal :=
  .next (linkStep s l.val (fun p =>
    if kilnUp s ∧ p.st = lsDown ∧ p.cause ≠ 4 ∧ linkLit s.lk l.val then startTraining p (useSaved s) else p))

/-- TRAINING_COMPLETE (R253, R254): a training ends; it goes on only while Kiln runs. -/
def execTrainingComplete (l : Fin 96) (ok : Bool) (rtt : Nat) (s : State) : Host.Outcome State Fault Refusal :=
  .next (if kilnUp s then linkStep s l.val (fun p => trainingComplete p ok rtt) else s)

/-- FENCE_EXPIRY (R256): a fence ends; one training starts with an empty retrain window. -/
def execFenceExpiry (l : Fin 96) (s : State) : Host.Outcome State Fault Refusal := .next (linkStep s l.val fenceExpiry)

/-- LINK_LEAVE_UP (R253, R257): a link in UP loses its peer; its port keeps its retry buffer and traffic detours. -/
def execLinkLeaveUp (l : Fin 96) (s : State) : Host.Outcome State Fault Refusal :=
  .next (linkStep s l.val (fun p => if p.st = lsUp then goDown p 3 else p))

/-- RETRY_BUFFER_EXPIRY (R257): 10 ms have passed since the link left UP; the buffer is discarded. -/
def execRetryBufferExpiry (l : Fin 96) (s : State) : Host.Outcome State Fault Refusal :=
  .next (if (portOf s.lk l.val).leftUp && !keepsTraffic (portOf s.lk l.val).st then dropBuffer s l.val else s)

/-- IDENT (R253, R255, R264 to R266): an IDENT record arrives for Kiln. -/
def execIdent (l : Fin 96) (rec : IdentRec) (s : State) : Host.Outcome State Fault Refusal :=
  let s1 := takeRx s l.val (.ident rec)
  .next (if kilnUp s then takeIdent s1 l.val rec else s1)

/-- FENCE (R256): a fence marker arrives; the port enters FENCED for the time announced, if any is left. -/
def execFence (l : Fin 96) (secs : Fin 601) (s : State) : Host.Outcome State Fault Refusal :=
  .next (linkStep (takeRx s l.val (.fence secs.val)) l.val (fun p =>
    if secs.val ≠ 0 ∧ (keepsTraffic p.st || p.st == lsTraining || p.st == lsIdent) then enterFence p s.clock secs.val true else p))

/-- R288: the stamp of an own TIME packet that has just left. -/
def noteStamp (s : State) (l : Nat) : State :=
  match (portOf s.lk l).sent with
  | some f =>
    (match f.flit.pkt with
     | some (.time _ src t1 _ _ false _) => if src = s.fab.addr then updFab s (fun x => { x with t1 := some t1 }) else s
     | _ => s)
  | none => s

/-- FLIT_BOUNDARY (R241, R248, R256, R288): a port in UP sends its next flit; a fenced port sends its marker; one that is paused
for its peer's light sends the NAKs that it owes. -/
def execFlitBoundary (l : Fin 96) (s : State) : Host.Outcome State Fault Refusal :=
  let x : LineNow := ⟨s.clock, ftimeNs s.fab, s.fab.addr⟩
  let p := portOf s.lk l.val
  .next (if p.st = lsUp then noteStamp (updLink s l.val (fun y => flitBoundary y x)) l.val
    else if p.st = lsFenced then updLink s l.val (fun y => sendOwn y (.fence (fenceRemaining y s.clock)))
    else if p.st = lsPaused ∧ p.dark = 0 ∧ ¬ p.resync then updLink s l.val (fun y => sendFrame y idleFlit)
    else s)

/-- IDENT_RECORD_SEND (R264): a link in IDENT sends its IDENT record. -/
def execIdentRecordSend (l : Fin 96) (s : State) : Host.Outcome State Fault Refusal :=
  .next (updLink s l.val (fun p => if p.st = lsIdent then sendOwn p (.ident (ownIdent s l.val)) else p))

/-- Every link to the peer of a link is out of UP (R311). -/
def peerUnreached (s : State) (l : Nat) : Bool :=
  let p := portOf s.lk l
  p.known && (List.range 96).all (fun i =>
    let q := portOf s.lk i
    !(q.known && q.peerUnit == p.peerUnit && q.st == lsUp))

/-- PEER_LOST (R311): every link to a module has been out of UP for 10 ms. -/
def execPeerLost (l : Fin 96) (s : State) : Host.Outcome State Fault Refusal :=
  .next (whileKiln s (if peerUnreached s l.val then postAll s 0x04 [l.val, (portOf s.lk l.val).peerUnit.toNat] else s))

end Sys2Proof.Machine
end

