-- ==== Sys2Proof/Machine/ResetRows.lean ====
section
/-! DEFINITION. The five reset levels, their drain and their end (spec/16_bringup_and_reset.md R427 to R431,
spec/18_command_catalogue.md R457). -/

namespace Sys2Proof.Machine

/-- The partition that a reset's target lies in: a tile, a cluster, or itself (R427). -/
def targetPart (s : State) (level target : Nat) : Option Nat :=
  match level with
  | 1 => if target < 2048 then partOfTile s target else none
  | 2 => if target < 64 then partOfTile s (256 * (target / 8) + 8 * (target % 8)) else none
  | _ => if noPart s target then none else some target

/-- The partitions whose every tile is in the scope of a reset (R427). -/
def resetParts (s : State) (level target : Nat) : List Nat :=
  match level with
  | 1 => []
  | 2 => []
  | 3 => [target]
  | _ => poweredParts s

/-- R431: the scope of a reset overlaps one in progress. -/
def resetOverlaps (s : State) (level target : Nat) : Bool :=
  let ts := resetScope s level target
  s.kiln.resets.any (fun j => (decide (4 ≤ level) && decide (4 ≤ j.level)) || j.tiles.any (fun t => ts.contains t))

/-- R430: the scope holds a step of a pinned context; for a tile or cluster, its partition holds a step. -/
def resetHeld (s : State) (level target : Nat) : Bool :=
  match level with
  | 1 => (match targetPart s 1 target with | some p => (runningCtx s p).isSome | none => false)
  | 2 => (match targetPart s 2 target with | some p => (runningCtx s p).isSome | none => false)
  | _ => (resetParts s level target).any (fun p =>
      match runningCtx s p with
      | some c => (ctxOf s c).cord.isSome
      | none => false)

/-- R427: a port may order a compute or device reset. -/
def mayReset (s : State) (p level : Nat) : Bool :=
  match level with
  | 4 => (poweredParts s).all (fun n => (partOf s n).port == p) || (hostOf s (1 - p)).st == 0
  | _ => (portCtxs s (1 - p)).isEmpty

/-- RESET of a tile, a cluster or a partition (R427, R430, R431, R457). -/
def cmdResetPart (s : State) (p level target : Nat) (selftest : Bool) : CmdOut :=
  cmdAdmit s false (cmdCheck s (level == 3 && partTask s target) 0x01
    (cmdCheck s (match targetPart s level target with | some n => foreignPart s p n | none => false) 0x03
      (cmdCheck s (targetPart s level target).isNone 0x04
        (cmdCheck s (resetOverlaps s level target) 0x01
          (cmdCheck s (resetHeld s level target) 0x06 (cmdDone (openReset s level target selftest p) []))))))

/-- RESET of the compute or device level (R427, R430, R431, R457). -/
def cmdResetAll (s : State) (p level selftest : Nat) : CmdOut :=
  cmdAdmit s false (cmdCheck s (decide (1 < selftest)) 0x04 (cmdCheck s (!mayReset s p level) 0x03
    (cmdCheck s (resetOverlaps s level 0) 0x01
      (cmdCheck s (resetHeld s level 0) 0x06 (cmdDone (openReset s level 0 (selftest == 1) p) [])))))

/-- R428 steps 3 and 4: nothing of the scope is under way. -/
def scopeQuiet (s : State) (j : ResetJob) : Bool :=
  let mine := fun (t : Nat) => j.tiles.contains t
  let ps := resetParts s j.level j.target
  j.tiles.all (fun t => (tileOf s t).dq.isEmpty && (tileOf s t).inw.isNone)
    && s.ring.movers.all (fun m => m.2.queue.all (fun q => !mine q.1.tile))
    && s.ring.outQ.all (fun q => q.2.isEmpty || !mine (tileOfEdge q.1))
    && (s.ring.ready ++ s.ring.live).all (fun x => !isCancelled mine x)
    && s.ring.pulls.all (fun x => !mine x.d.tile)
    && s.fab.out.all (fun o => !ps.contains o.part)

/-- R429: a step that a reset interrupts completes with RESETTING. -/
def resetSteps (s : State) (ps : List Nat) : State :=
  ps.foldl (fun x p => match runningCtx x p with
    | some c => finishStep x c 0x22 false
    | none => x) s

/-- R428 step 4: the reduction slots of the scope's cords are freed. -/
def resetSlots (s : State) (ps : List Nat) : State :=
  updFab s (fun f => { f with red := freeCordSlots f.red (ps.flatMap (partCords s)) })

/-- R429: a compute reset of the tiles: stores and scratchpads zero, images to be loaded again. -/
def resetCompute (s : State) (ts ps : List Nat) : State :=
  let s1 := ts.foldl zeroTile s
  ps.foldl (fun x p => setPart x p { partOf x p with loaded := none }) s1

/-- R335, R410, R429: what a compute reset ends besides: lock-step and the unstable state; it is counted. -/
def resetKiln (s : State) : State :=
  let s1 := endLock s
  { s1 with
    kiln := { s1.kiln with stat := if s1.kiln.stat = 3 then 1 else s1.kiln.stat }
    boot := { s1.boot with rCount := min (s1.boot.rCount + 1) 0xFFFF } }

/-- R429: a device reset takes every context, page, cord and partition, and clears the streams. -/
def resetDevice (s : State) : State :=
  let s1 := tearDown s (liveCtxs s) (allParts s)
  let s2 := (partPages s1 (List.range 8)).foldl (fun x n => unmapPage x n true) s1
  let s3 := updFab s2 (fun f => { f with cords := [], bars := [] })
  { s3 with kiln := { s3.kiln with embers := [], cordWait := [] } }

/-- R429: a reset's self-test covers the tiles of the powered fields and the seams between them. -/
def resetTests (s : State) (x : Finding) : Bool :=
  let on := fun f => match partOfField s f with | some p => (partOf s p).powered | none => false
  match x with
  | .tile r c => on (physField r c)
  | .column r c _ => on (physField r c)
  | .lane m _ _ => on (seamField m) && on (seamSecond m)

/-- R34, R429: the findings of a reset's self-test join the field record: ORIGIN 4 on the tile-death path, else 1. -/
def selfTest (s : State) (j : ResetJob) (found : List Defect) : State :=
  if j.selftest then recordFindings s (if 2 ≤ j.port then 4 else 1) ((found.filterMap findingOf).filter (resetTests s)) else s

/-- R37, R429: the reset of a job, applied; a compute reset applies the defect map after its self-test. -/
def resetEffect (s : State) (j : ResetJob) (found : List Defect) : State :=
  let ps := resetParts s j.level j.target
  let s1 := resetSlots (writeDefects (resetSteps s ps)) ps
  if j.level < 4 then j.tiles.foldl resetTile s1
  else
    let s2 := applyMap (selfTest (resetKiln (resetCompute s1 j.tiles ps)) j found) j.tiles
    if j.level = 5 then resetDevice s2 else s2

/-- R427, R314: the end of a reset: its registers, and RESET_DONE to the port, or SPARE_READY from Kiln's own; an expelled
module waits for a full start. -/
def resetEnd (s : State) (j : ResetJob) : State :=
  let rest := s.kiln.resets.erase j
  let s1 := { s with
    kiln := { s.kiln with resets := rest }
    boot := { s.boot with rActive := !rest.isEmpty, rStatus := 0 } }
  if j.port < 2 then postEvent s1 [j.port] 0x13 none [j.level, 0]
  else if j.port = 2 ∧ s.boot.unrep = false then postAll s1 0x0B []
  else if j.port = 3 then { s1 with flash := { s1.flash with expelled := true } }
  else s1

/-- RESET_APPLY (R428, R429): the oldest reset whose scope has drained is applied. -/
def resetApply (s : State) (found : List Defect) : State :=
  match s.kiln.resets with
  | [] => s
  | j :: _ =>
    if !scopeQuiet s j then s
    else
      resetEnd (resetEffect s j found) j

/-- R428 step 3: the transfers of a scope that are still outstanding are cancelled. -/
def resetCancel (s : State) : State :=
  match s.kiln.resets with
  | [] => s
  | j :: _ =>
    let ps := resetParts s j.level j.target
    if ps.isEmpty then cancelTiles s (fun t => j.tiles.contains t) none else ps.foldl cancelPart s

/-- TILE_RESET (R427, R429). -/
def execTileReset (port : Fin 2) (target : BitVec 16) (s : State) : Host.Outcome State Fault Refusal :=
  .next (cmdRun s (cmdResetPart s port.val 1 target.toNat false))

/-- CLUSTER_RESET (R427, R429). -/
def execClusterReset (port : Fin 2) (target : BitVec 16) (s : State) : Host.Outcome State Fault Refusal :=
  .next (cmdRun s (cmdResetPart s port.val 2 target.toNat false))

/-- PARTITION_RESET (R427, R429). -/
def execPartitionReset (port : Fin 2) (target : BitVec 16) (s : State) : Host.Outcome State Fault Refusal :=
  .next (cmdRun s (cmdResetPart s port.val 3 target.toNat false))

/-- COMPUTE_RESET (R427, R429). -/
def execComputeReset (port : Fin 2) (selftest : Byte) (s : State) : Host.Outcome State Fault Refusal :=
  .next (cmdRun s (cmdResetAll s port.val 4 selftest.toNat))

/-- DEVICE_RESET (R427, R429). -/
def execDeviceReset (port : Fin 2) (selftest : Byte) (s : State) : Host.Outcome State Fault Refusal :=
  .next (cmdRun s (cmdResetAll s port.val 5 selftest.toNat))

/-- RESET_APPLY (R428, R429): found are the entries of the self-test. -/
def execResetApply (found : List Defect) (s : State) : Host.Outcome State Fault Refusal := .next (whileKiln s (resetApply s found))

/-- RESET_MOVER_CANCEL (R428): a transfer is still outstanding 10 ms after ABORT. -/
def execResetMoverCancel (s : State) : Host.Outcome State Fault Refusal := .next (whileKiln s (resetCancel s))

end Sys2Proof.Machine
end

