-- ==== Sys2Proof/Machine/MailboxRows.lean ====
section
/-! DEFINITION. Mailbox commands as Kiln takes them: the command area's layout, the check of its form, its response, and COMMAND_TAKE
(spec/14_host_interface.md R378 to R381, spec/18_command_catalogue.md R455 to R457). -/

namespace Sys2Proof.Machine

/-- R455: a little-endian argument of a command area: n bytes, o bytes into the arguments. -/
def cmdArg (b : List Byte) (o n : Nat) : Nat := leNat ((b.drop (16 + o)).take n)

/-- A field of the command header (R378). -/
def cmdHdr (b : List Byte) (lo n : Nat) : Nat := bits (leNat (b.take 16)) lo n

/-- R457: the argument bytes of an opcode; none where the opcode is not assigned. -/
def cmdLen (op : Nat) (b : List Byte) : Option Nat :=
  match op with
  | 0x01 => some 0
  | 0x02 => some 8
  | 0x03 => some 0
  | 0x04 => some 0
  | 0x05 => some 5
  | 0x06 => some 10
  | 0x07 => some 0
  | 0x10 => some 43
  | 0x11 => some 0
  | 0x12 => some 4
  | 0x13 => some 8
  | 0x20 => some 4
  | 0x21 => some 2
  | 0x22 => some 5
  | 0x23 => some 4
  | 0x30 => some 28
  | 0x31 => some 1
  | 0x32 => some 1
  | 0x33 => some 1
  | 0x34 => some 21
  | 0x40 => some 11
  | 0x41 => some 8
  | 0x42 => some 5
  | 0x50 => some 223
  | 0x51 => some 2
  | 0x52 => some 1
  | 0x53 => some 5
  | 0x60 => some 34
  | 0x61 => some 2
  | 0x62 => some (11 + 2 * cmdArg b 10 1)
  | 0x63 => some 21
  | 0x64 => some 13
  | 0x65 => some 5
  | 0x66 => some 1
  | 0x70 => some 19
  | 0x71 => some 0
  | _ => none

/-- R456 check 1: the opcode is assigned, LEN matches, reserved bytes are 0. The reserved bits of FLAGS are ignored (R12). -/
def cmdFormOk (b : List Byte) : Bool :=
  cmdLen (cmdHdr b 0 16) b == some (cmdHdr b 96 16) && decide (cmdHdr b 96 16 ≤ 240)
    && cmdHdr b 16 16 == 0 && cmdHdr b 40 24 == 0 && cmdHdr b 112 16 == 0

/-- R372: the start-class opcodes. -/
def startClass (op : Nat) : Bool := decide (op < 0x10)

/-- Arguments of ATTACH. -/
def argAttach (b : List Byte) : AttachArgs where
  hostId := BitVec.ofNat 64 (cmdArg b 0 8)
  ev := BitVec.ofNat 64 (cmdArg b 8 8)
  log := BitVec.ofNat 64 (cmdArg b 16 8)
  trace := BitVec.ofNat 64 (cmdArg b 24 8)
  evSz := BitVec.ofNat 8 (cmdArg b 32 1)
  logSz := BitVec.ofNat 8 (cmdArg b 33 1)
  traceSz := BitVec.ofNat 8 (cmdArg b 34 1)
  logWm := BitVec.ofNat 32 (cmdArg b 35 4)
  traceWm := BitVec.ofNat 32 (cmdArg b 39 4)

/-- Arguments of CTX_CREATE. -/
def argCtx (b : List Byte) : CtxArgs where
  part := BitVec.ofNat 8 (cmdArg b 0 1)
  prio := BitVec.ofNat 8 (cmdArg b 1 1)
  quantum := BitVec.ofNat 16 (cmdArg b 2 2)
  sub := BitVec.ofNat 64 (cmdArg b 4 8)
  cpl := BitVec.ofNat 64 (cmdArg b 12 8)
  subSz := BitVec.ofNat 8 (cmdArg b 20 1)
  cplSz := BitVec.ofNat 8 (cmdArg b 21 1)
  vector := BitVec.ofNat 16 (cmdArg b 22 2)
  timeout := BitVec.ofNat 16 (cmdArg b 24 2)
  cord := BitVec.ofNat 16 (cmdArg b 26 2)

/-- Arguments of CTX_RESTORE after the context. -/
def argRestore (b : List Byte) : RestoreArgs where
  seed := BitVec.ofNat 64 (cmdArg b 1 8)
  dataStep := BitVec.ofNat 32 (cmdArg b 9 4)
  dataMb := BitVec.ofNat 16 (cmdArg b 13 2)
  rngStep := BitVec.ofNat 32 (cmdArg b 15 4)
  rngMb := BitVec.ofNat 16 (cmdArg b 19 2)

/-- Arguments of FABRIC_ASSIGN. -/
def argAssign (b : List Byte) : AssignArgs where
  addr := BitVec.ofNat 16 (cmdArg b 0 2)
  sxm := BitVec.ofNat 8 (cmdArg b 2 1)
  sym := BitVec.ofNat 8 (cmdArg b 3 1)
  szm := BitVec.ofNat 8 (cmdArg b 4 1)
  root := BitVec.ofNat 8 (cmdArg b 5 1)
  explicit := BitVec.ofNat 8 (cmdArg b 6 1)
  map := BitVec.ofNat 1728 (cmdArg b 7 216)

/-- Arguments of RANK_REPLACE. -/
def argReplace (b : List Byte) : ReplaceArgs where
  c := BitVec.ofNat 8 (cmdArg b 0 1)
  lost := BitVec.ofNat 16 (cmdArg b 1 2)
  spare := BitVec.ofNat 16 (cmdArg b 3 2)
  source := BitVec.ofNat 16 (cmdArg b 5 2)
  group := BitVec.ofNat 16 (cmdArg b 7 2)
  gen := BitVec.ofNat 8 (cmdArg b 9 1)
  cords := (List.range (cmdArg b 10 1)).map (fun i => BitVec.ofNat 16 (cmdArg b (11 + 2 * i) 2))

/-- Arguments of EMBER_SETUP. -/
def argEmber (b : List Byte) : EmberArgs where
  str := BitVec.ofNat 8 (cmdArg b 0 1)
  valid := BitVec.ofNat 8 (cmdArg b 1 1)
  cord := BitVec.ofNat 16 (cmdArg b 2 2)
  ewin := BitVec.ofNat 8 (cmdArg b 4 1)
  bofs := BitVec.ofNat 16 (cmdArg b 5 2)
  wspan := BitVec.ofNat 16 (cmdArg b 7 2)
  buf0 := BitVec.ofNat 32 (cmdArg b 9 4)
  buf1 := BitVec.ofNat 32 (cmdArg b 13 4)
  shard := BitVec.ofNat 32 (cmdArg b 17 4)

/-- Arguments of DIGEST_SETUP. -/
def argDigest (b : List Byte) : DigestArgs where
  str := BitVec.ofNat 8 (cmdArg b 0 1)
  enable := BitVec.ofNat 8 (cmdArg b 1 1)
  vcord := BitVec.ofNat 16 (cmdArg b 2 2)
  every := BitVec.ofNat 8 (cmdArg b 4 1)
  key := BitVec.ofNat 64 (cmdArg b 5 8)

/-- Arguments of LOCKSTEP_START; theirs is what the partner tells (R331). -/
def argLock (b : List Byte) (theirs : LockSide) : LockArgs where
  part := BitVec.ofNat 8 (cmdArg b 0 1)
  link := BitVec.ofNat 8 (cmdArg b 1 1)
  partner := BitVec.ofNat 64 (cmdArg b 2 8)
  key := BitVec.ofNat 64 (cmdArg b 10 8)
  logsz := BitVec.ofNat 8 (cmdArg b 18 1)
  theirs := theirs

/-- PART_POWER (R457): 1 on, 0 off. -/
def cmdPartPower (s : State) (p n on : Nat) : CmdOut :=
  match on with
  | 0 => cmdPartPowerOff s p n
  | 1 => cmdPartPowerOn s p n
  | _ => cmdAdmit s false (cmdCheck s (foreignPart s p n) 0x03 (cmdRefuse s 0x04))

/-- LINK_CTRL (R457): 0 disables, 1 enables. -/
def cmdLinkCtrl (s : State) (l on : Nat) : CmdOut :=
  match on with
  | 0 => cmdLinkDisable s l
  | 1 => cmdLinkEnable s l
  | _ => cmdAdmit s false (cmdRefuse s 0x04)

/-- RESET (R427, R457). -/
def cmdReset (s : State) (p level target selftest : Nat) : CmdOut :=
  if level = 0 ∨ 5 < level then cmdAdmit s false (cmdRefuse s 0x04)
  else if 4 ≤ level then cmdResetAll s p level selftest
  else
    let r := cmdResetPart s p level target (selftest == 1)
    if 1 < selftest ∧ r.status ≠ 0x01 ∧ r.status ≠ 0x02 ∧ r.status ≠ 0x03 then cmdAdmit s false (cmdRefuse s 0x04) else r

/-- R457: running a command whose form is right. -/
def cmdExec (s : State) (p : Nat) (theirs : LockSide) (b : List Byte) : CmdOut :=
  let a := cmdArg b
  match cmdHdr b 0 16 with
  | 0x01 => cmdInfo s
  | 0x02 => cmdTimeSet s (a 0 8)
  | 0x03 => cmdRestart s
  | 0x04 => cmdFullStart s
  | 0x05 => cmdDefectRead s (a 0 1) (a 1 4)
  | 0x06 => cmdActivate s (BitVec.ofNat 64 (a 0 8)) (a 8 2)
  | 0x07 => cmdActivateCancel s
  | 0x10 => cmdAttach s p (argAttach b)
  | 0x11 => cmdDetach s p
  | 0x12 => cmdBar2Window s p (a 0 4)
  | 0x13 => cmdTraceConfig s (BitVec.ofNat 64 (a 0 8))
  | 0x20 => cmdPartConfig s p (a 0 1) (a 1 1) (a 2 1) (a 3 1)
  | 0x21 => cmdPartPower s p (a 0 1) (a 1 1)
  | 0x22 => cmdPowerPolicy s p (a 0 2) (a 2 1) (a 3 1) (a 4 1)
  | 0x23 => cmdReset s p (a 0 1) (a 1 2) (a 3 1)
  | 0x30 => cmdCtxCreate s p (argCtx b)
  | 0x31 => cmdCtxPause s p (a 0 1)
  | 0x32 => cmdCtxResume s p (a 0 1)
  | 0x33 => cmdCtxDestroy s p (a 0 1)
  | 0x34 => cmdCtxRestore s p (a 0 1) (argRestore b)
  | 0x40 => cmdTmapMap s p (a 0 4) (a 4 4) (a 8 1) (a 9 1) (a 10 1)
  | 0x41 => cmdTmapUnmap s p (a 0 4) (a 4 4)
  | 0x42 => cmdTmapRead s p (a 0 4) (a 4 1)
  | 0x50 => cmdFabricAssign s (argAssign b)
  | 0x51 => cmdLinkCtrl s (a 0 1) (a 1 1)
  | 0x52 => cmdBladeRelease s (a 0 1)
  | 0x53 => cmdFailureRate s (a 0 1) (a 1 4)
  | 0x60 => cmdCordSetup s p (a 0 2) (BitVec.ofNat 256 (a 2 32))
  | 0x61 => cmdCordRead s p (a 0 2)
  | 0x62 => cmdRankReplace s p (argReplace b)
  | 0x63 => cmdEmberSetup s p (argEmber b)
  | 0x64 => cmdDigestSetup s p (argDigest b)
  | 0x65 => cmdRefillDone s p (a 0 1) (a 1 4)
  | 0x66 => cmdForceCopy s p (a 0 1)
  | 0x70 => cmdLockstepStart s p (argLock b theirs)
  | 0x71 => cmdLockstepStop s
  | _ => cmdRefuse s 0x05

/-- R380, R456: checking and running a command area; early says that it was rung before its RETRY_AFTER had passed. -/
def cmdServe (s : State) (p : Nat) (theirs : LockSide) (early : Bool) (b : List Byte) : CmdOut :=
  if !cmdFormOk b then cmdRefuse s 0x05
  else if early then cmdAdmit s (startClass (cmdHdr b 0 16)) (cmdRefuse s 0x01)
  else cmdExec s p theirs b

/-- R378: the response area: header and results, the rest 0. -/
def cmdResponse (b : List Byte) (status retry : Nat) (res : List Byte) : SMap Byte :=
  smSetList 0 [] 0 (leBytes 16 (cmdHdr b 0 16 + status * 2 ^ 16 + retry * 2 ^ 32 + cmdHdr b 64 32 * 2 ^ 64 + res.length * 2 ^ 96) ++ res)

/-- R405: DATA of the mailbox trace points. -/
def mbxTrace (p m op status : Nat) : Nat := p * 2 ^ 351 + m * 2 ^ 347 + op * 2 ^ 331 + status * 2 ^ 323

/-- R379, R380: a response is written: DONE, CODE, the vector if IRQ is set; with BUSY a RETRY_AFTER of 100 µs to 100 ms, a free value. -/
def cmdRespond (s : State) (p m : Nat) (b : List Byte) (k : CmdOut) : State :=
  let d := drawFree k.st
  let retry := if k.status = 1 then 100 + d.1 % 99901 else 0
  let s1 := updHost (if k.status = 1 then d.2 else k.st) p (fun x => setMbx x m { mbxOf x m with
    st := 3
    code := k.status
    resp := cmdResponse b k.status retry k.res
    wakeAt := some s.clock
    busyTill := if k.status = 1 then s.clock + 1600 * retry else (mbxOf x m).busyTill })
  let s2 := trace s1 0x09 0 0 0 (mbxTrace p m (cmdHdr b 0 16) k.status)
  if (cmdHdr b 32 1) = 1 then raiseVec s2 p m else s2

/-- R379: Kiln takes a pending command, checks it and runs it to its response. A restart leaves no response. -/
def takeCmd (s : State) (p m : Nat) (theirs : LockSide) : State :=
  let y := mbxOf (hostOf s p) m
  if !kilnUp s || y.st != 1 || !mayWake s y then s
  else
    let b := y.latched
    let s1 := trace s 0x08 0 0 0 (mbxTrace p m (cmdHdr b 0 16) 0)
    let k := cmdServe s1 p theirs y.early b
    let s2 := { k.st with kiln := { k.st.kiln with resp := k.res, respSt := k.status } }
    if cmdHdr b 0 16 = 0x03 ∧ k.status = 0 then k.st else cmdRespond s p m b { k with st := s2 }

/-- R389, R394, R395: the waiting mailboxes are taken in the order of their tasks, up to mailbox i = 16 × port + number. -/
def takeUpTo (s : State) (theirs : LockSide) (i : Nat) : Nat → State
  | 0 => s
  | n + 1 =>
    match nextTask 1 (mbxTasks s) with
    | none => s
    | some k =>
      let s1 := takeCmd s (k.idx / 16) (k.idx % 16) theirs
      if k.idx = i then s1 else takeUpTo s1 theirs i n

/-- COMMAND_TAKE (R379, R389, R394): Kiln takes the command of a mailbox, after those that go before it. -/
def execCommandTake (port : Fin 2) (m : Fin 16) (theirs : LockSide) (s : State) : Host.Outcome State Fault Refusal :=
  let i := 16 * port.val + m.val
  .next (if kilnUp s && (mbxTasks s).any (fun k => k.idx == i) then takeUpTo s theirs i 32 else s)

end Sys2Proof.Machine
end

