-- ==== Sys2Proof/Machine/PowerRows.lean ====
section
/-! DEFINITION. The meanings of the clock, power, pin and thermal commands (spec/07_clocks_and_logical_time.md R189 to R192,
spec/13_power_and_thermal.md R337 to R366, spec/19_module_hardware.md R469, R470). -/

namespace Sys2Proof.Machine

/-- DROOP (R189): a tile's droop sensor reads below the threshold, or no longer. -/
def execDroop (t : Fin 2048) (low : Bool) (s : State) : Host.Outcome State Fault Refusal :=
  .next (updTile s t.val (fun x => { x with droopLow := low }))

/-- REGION_MONITOR_TICK (R190, R191, R341): one CF cycle of the region's monitor, with or without a margin warning. -/
def execRegionMonitorTick (n : Fin 128) (warn : Bool) (s : State) : Host.Outcome State Fault Refusal :=
  .next (if (fieldOf s.pwr (regionField n.val)).st = 2 then
      updPwr s (fun w => syncVset (monitorTick w n.val warn (regionPolicy s n.val)) (regionField n.val))
    else s)

/-- OSC_RECALIBRATION (R192): a powered region calibrates its oscillators; no period that has begun changes. -/
def execOscRecalibration (n : Fin 128) (s : State) : Host.Outcome State Fault Refusal :=
  .next (if (fieldOf s.pwr (regionField n.val)).st = 2 then
      updPwr s (fun w => setRegion w n.val { regionOf w n.val with calAt := s.clock })
    else s)

/-- STANDBY_QUALIFIER_START (R337): VIN exceeds 36 V; the qualifier starts with nothing qualified. -/
def execStandbyQualifierStart (mv : Nat) (s : State) : Host.Outcome State Fault Refusal :=
  .next (if !s.pwr.qualifier && decide (36000 < mv) then { s with pwr := { pwrInit with qualifier := true, vinMv := mv } } else s)

/-- PWR_EN_ASSERT (R469 to R471): PWR_EN is qualified high; a handshake that has not started the power-down is abandoned and logged. -/
def execPwrEnAssert (s : State) : Host.Outcome State Fault Refusal :=
  .next (if !s.pwr.qualifier then s
    else
      let s1 := updPwr s (fun w => { w with
        pwrEn := true
        mustCycle := w.mustCycle && !w.lowSeen
        lowSeen := false
        handshake := false })
      if s.pwr.handshake then logFree s1 [] else s1)

/-- POWER_UP (R342, R468): VIN has stood within 40 to 50 V for 100 ms while PWR_EN is asserted: VPKG and the service bank start, and
Stage 0 begins. -/
def execPowerUp (straps : Fin 4) (s : State) : Host.Outcome State Fault Refusal :=
  let w := s.pwr
  .next (if w.qualifier && w.pwrEn && !w.isOn && !w.mustCycle && !w.forceOff && decide (40000 ≤ w.vinMv) && decide (w.vinMv ≤ 50000) then
      let s1 := updPwr s (fun w => (List.range 8).foldl (fun v n =>
        setField v n { fieldOf v n with lact := 64, mact := 4, oact := 8, pact := 8 }) { w with isOn := true, ceil := 46 })
      setReport { s1 with boot := { bootInit with running := true, began := s.clock, stageAt := s.clock, strap := straps.val } } 0
        (reportWord 0 1 false false 0)
    else s)

/-- The status LED's pattern ends (R415). -/
def ledOff (s : State) : State := { s with boot := { s.boot with led := 0 } }

/-- PWR_EN_DEASSERT (R344, R415, R469): PWR_EN is qualified low; a Kiln that runs ends every context, and the power-down follows. -/
def execPwrEnDeassert (s : State) : Host.Outcome State Fault Refusal :=
  .next (if !s.pwr.qualifier then s
    else
      let s1 := updPwr (ledOff s) (fun w => { w with pwrEn := false, lowSeen := true })
      if s.pwr.isOn then
        updPwr (if kilnUp s1 then (liveCtxs s1).foldl endCtx s1 else s1) (fun w => { w with handshake := true })
      else s1)

/-- POWER_DOWN (R344): the sequence that follows a deasserted PWR_EN removes the rails. -/
def execPowerDown (s : State) : Host.Outcome State Fault Refusal :=
  .next (powerDownIf s (s.pwr.handshake && !s.pwr.pwrEn))

/-- FORCE_OFF (R344, R470): a qualified FORCE_OFF_N powers the module down; it needs a PWR_EN cycle to start again. While PWR_EN is low
it has no effect. -/
def execForceOff (s : State) : Host.Outcome State Fault Refusal :=
  .next (if s.pwr.qualifier && s.pwr.pwrEn then
      powerDownIf (updPwr s (fun w => { w with forceOff := true, mustCycle := true, lowSeen := false })) true
    else s)

/-- FORCE_OFF_DEASSERT (R469, R470): FORCE_OFF_N has stood high for 100 ms. -/
def execForceOffDeassert (s : State) : Host.Outcome State Fault Refusal := .next (updPwr s (fun w => { w with forceOff := false }))

/-- VIN_FAULT (R336, R337, R344): VIN leaves 38 to 52 V and the module powers down; at 36 V or less the qualifier stops too. -/
def execVinFault (mv : Nat) (s : State) : Host.Outcome State Fault Refusal :=
  .next (if mv < 38000 ∨ 52000 < mv then
      let s1 := powerDownIf (updPwr (ledOff s) (fun w => { w with vinMv := mv })) true
      if mv ≤ 36000 then { s1 with pwr := { pwrInit with vinMv := mv } } else s1
    else s)

/-- VIN_OUT_OF_RANGE (R343): VIN between 38 and 40 V or between 50 and 52 V sets VINOOR. -/
def execVinOutOfRange (mv : Nat) (s : State) : Host.Outcome State Fault Refusal :=
  .next (if (38000 ≤ mv ∧ mv < 40000) ∨ (50000 < mv ∧ mv ≤ 52000) then updPwr s (fun w => { w with vinMv := mv, vinoor := true }) else s)

/-- VIN_IN_RANGE (R343): VIN is back within 40 to 50 V. -/
def execVinInRange (mv : Nat) (s : State) : Host.Outcome State Fault Refusal :=
  .next (if 40000 ≤ mv ∧ mv ≤ 50000 then updPwr s (fun w => { w with vinMv := mv, vinoor := false }) else s)

/-- CURRENT_LIMIT_ASSERT (R343): a current passes its limit; the field current limits follow. -/
def execCurrentLimitAssert (w : LimSrc) (s : State) : Host.Outcome State Fault Refusal :=
  .next (match w with
    | .input => updPwr s (fun v => { v with iinLim := true })
    | .vpkg => updPwr s (fun v => { v with vpkgLim := true })
    | .field n => checkField (updPwr s (fun v => setField v n.val { fieldOf v n.val with ownLim := true })) n.val)

/-- The 10 ms marks of fields whose limit is no longer asserted clear (R362). -/
def syncPersist (p : PwrState) : PwrState :=
  (List.range 8).foldl (fun w n => if fieldLimited w n then w else setField w n { fieldOf w n with persist := false }) p

/-- CURRENT_LIMIT_RELEASE (R343): the current has stayed below its release level for the hold time. -/
def execCurrentLimitRelease (w : LimSrc) (s : State) : Host.Outcome State Fault Refusal :=
  .next (updPwr s (fun v => syncPersist (match w with
    | .input => { v with iinLim := false }
    | .vpkg => { v with vpkgLim := false }
    | .field n => setField v n.val { fieldOf v n.val with ownLim := false })))

/-- FIELD_LIMIT_PERSIST (R362): a field's current limit has been asserted for 10 ms without a break. -/
def execFieldLimitPersist (n : Fin 8) (s : State) : Host.Outcome State Fault Refusal :=
  .next (if fieldLimited s.pwr n.val then updPwr s (fun w => setField w n.val { fieldOf w n.val with persist := true }) else s)

/-- CONVERTER_FAIL (R339): a module converter trips or stops regulating. -/
def execConverterFail (s : State) : Host.Outcome State Fault Refusal := .next (if s.pwr.isOn then loseConverter s else s)

/-- PHASE_FAULT (R345, R346): a faulty phase of a bank (0 VDDL, 1 VDDM, 2 VDDO, 3 VDDP) is shed, counted and logged. -/
def execPhaseFault (n : Fin 8) (bank : Fin 4) (s : State) : Host.Outcome State Fault Refusal :=
  .next (checkField (logOnly (updPwr s (fun w => shedPhase w n.val bank.val)) 0x81 [n.val, bank.val]) n.val)

/-- CHARGE_INJECTOR_CONNECT (R348): the reservoir connects and is counted. -/
def execChargeInjectorConnect (n : Fin 128) (s : State) : Host.Outcome State Fault Refusal :=
  .next (if (regionOf s.pwr n.val).injOn then s
    else updPwr s (fun w =>
      let r := regionOf w n.val
      setRegion w n.val { r with injOn := true, injEmpty := false, inject := min (r.inject + 1) 0xFFFF }))

/-- CHARGE_INJECTOR_DISCONNECT (R348): VDDL has recovered and the reservoir has fallen to 1.2 V. -/
def execChargeInjectorDisconnect (n : Fin 128) (s : State) : Host.Outcome State Fault Refusal :=
  .next (updPwr s (fun w =>
    let r := regionOf w n.val
    setRegion w n.val { r with injOn := false, injEmpty := r.injOn || r.injEmpty }))

/-- SHUNT_CLAMP_ENGAGE (R349): the clamp engages and is counted. -/
def execShuntClampEngage (n : Fin 128) (s : State) : Host.Outcome State Fault Refusal :=
  .next (if (regionOf s.pwr n.val).clampOn then s
    else updPwr s (fun w =>
      let r := regionOf w n.val
      setRegion w n.val { r with clampOn := true, clamp := min (r.clamp + 1) 0xFFFF }))

/-- SHUNT_CLAMP_RELEASE (R349): the clamp releases. -/
def execShuntClampRelease (n : Fin 128) (s : State) : Host.Outcome State Fault Refusal :=
  .next (updPwr s (fun w => setRegion w n.val { regionOf w n.val with clampOn := false }))

/-- CAP_LOOP_TICK (R352, R353, R405): one tick of the cap loop with the mean input power of the last 1 ms. -/
def execCapLoopTick (watts : Nat) (s : State) : Host.Outcome State Fault Refusal :=
  let r := capTick s.pwr watts ((poweredParts s).map (fun p => !(policyOf s.pwr p).fixed))
  let s1 := capActs (updPwr s (fun _ => r.1))
  let s2 := if r.1.ceil ≠ s.pwr.ceil ∨ r.1.hgap ≠ s.pwr.hgap then trace s1 0x0C 0 0 0 (r.1.ceil * 2 ^ 346 + r.1.hgap * 2 ^ 342) else s1
  .next (if r.2 then postAll s2 0x0E [effectiveCap s.pwr, watts] else s2)

/-- ENERGY_METER_TICK (R356, R367): one metering interval of 10 µs. -/
def execEnergyMeterTick (x : MeterRead) (s : State) : Host.Outcome State Fault Refusal :=
  .next (updPwr s (fun w =>
    let m := meterTick w x.ein x.fields ((poweredParts s).map (fun p => (p, partFields (partOf s p))))
    (List.range 8).foldl (fun v n => setField v n { fieldOf v n with ivddl := min (nth0 x.ivddl n) 0xFFFF })
      { m with vinCurr := min x.curr 0xFFFF, ivpkg := min x.ivpkg 0xFFF }))

/-- THERMAL_STAGE_ENTER (R358 to R360): a sensor's reading reaches a threshold above its stage; the stage acts. -/
def execThermalStageEnter (kind : Fin 5) (idx : Fin 128) (temp : Int) (s : State) : Host.Outcome State Fault Refusal :=
  let st := stageReached kind.val temp
  .next (if sensorCount kind.val ≤ idx.val ∨ st ≤ (sensorOf s.pwr kind.val idx.val).1 then s
    else
      let s1 := updPwr s (fun w => setSensor w kind.val idx.val (st, temp))
      stageAction (markRuns s1 (sensorParts s1 kind.val idx.val) (fun r => { r with thmAct := true }))
        kind.val idx.val (sensorOf s.pwr kind.val idx.val).1 st temp)

/-- THERMAL_STAGE_LEAVE (R358, R359): a reading 5 °C below the threshold, after 10 ms, leaves the stage. -/
def execThermalStageLeave (kind : Fin 5) (idx : Fin 128) (temp : Int) (s : State) : Host.Outcome State Fault Refusal :=
  let st := stageHeld kind.val temp
  .next (if sensorCount kind.val ≤ idx.val ∨ (sensorOf s.pwr kind.val idx.val).1 ≤ st then s
    else stageLeft (updPwr s (fun w => setSensor w kind.val idx.val (st, temp))) kind.val idx.val st)

/-- THERMAL_CEILING_TICK (R359, R360): every 10 ms in stage 1, every 100 ms after it. -/
def execThermalCeilingTick (n : Fin 128) (s : State) : Host.Outcome State Fault Refusal := .next (ceilingTick s n.val)

/-- THERMAL_TRIP (R359, R361, R426): a sensor in stage 3 trips. -/
def execThermalTrip (kind : Fin 5) (idx : Fin 128) (s : State) : Host.Outcome State Fault Refusal :=
  .next (if idx.val < sensorCount kind.val ∧ (sensorOf s.pwr kind.val idx.val).1 = 3 then tripInStage (tripSensor s kind.val idx.val) else s)

/-- HEADROOM_TEST (R364, R365): with headroom on VPKG the lowest waiting field soft-starts. -/
def execHeadroomTest (mean : Nat) (s : State) : Host.Outcome State Fault Refusal :=
  .next (if headroom s.pwr mean then updPwr s (fun w => softStart w false) else s)

/-- QUARTER_RATE_START (R364): no headroom within 5 ms; the field soft-starts at quarter rate. -/
def execQuarterRateStart (s : State) : Host.Outcome State Fault Refusal := .next (updPwr s (fun w => softStart w true))

/-- SOFT_START_DONE (R365, R366): a field reaches its setpoint; its oscillators start; its partition is on once its last field is. -/
def execSoftStartDone (n : Fin 8) (s : State) : Host.Outcome State Fault Refusal :=
  .next (if (fieldOf s.pwr n.val).st ≠ 1 then s
    else
      let s1 := setOsc (updPwr s (fun w => softStartDone w n.val)) n.val true
      match partOfField s1 n.val with
      | some p => partReady s1 p
      | none => s1)

/-- THROTTLE_ASSERT (R354, R469): THROTTLE_N is qualified asserted: every region's target goes to step 20. -/
def execThrottleAssert (s : State) : Host.Outcome State Fault Refusal :=
  .next (markRuns (updPwr s (fun w => (List.range 128).foldl (fun v n => setRegion v n { regionOf v n with target := 20 })
    { w with throttle := true, thrSecs := 0 })) (allParts s) (fun r => { r with thrAct := true }))

/-- THROTTLE_DEASSERT (R469): THROTTLE_N has stayed high for 1 ms. -/
def execThrottleDeassert (s : State) : Host.Outcome State Fault Refusal :=
  .next (updPwr s (fun w => { w with throttle := false, thrSecs := 0 }))

/-- THROTTLE_HELD (R354): every 60 s of asserted THROTTLE_N is posted. -/
def execThrottleHeld (s : State) : Host.Outcome State Fault Refusal :=
  .next (whileKiln s (if s.pwr.throttle then
      postAll (updPwr s (fun w => { w with thrSecs := w.thrSecs + 60 })) 0x10 [s.pwr.thrSecs + 60]
    else s))

end Sys2Proof.Machine
end

