-- ==== Sys2Proof/Machine/UpdateRows.lean ====
section
/-! DEFINITION. The transfer service and scheduled activation (spec/17_identity_and_update.md R443 to R448, spec/16_bringup_and_reset.md
R415). -/

namespace Sys2Proof.Machine

/-- R415, R443: the transfer service runs: from the end of Stage 1, while Kindling stands stopped, or as the recovery service. -/
def xferUp (s : State) : Bool :=
  s.boot.running && (s.boot.recovery || (s.kiln.stat != 2 && decide (1 ≤ s.boot.stage) && (decide (2 ≤ s.boot.stage) || s.boot.state == 1)))

/-- A message that the module sends on a connection: TYPE, STATUS, payload. -/
def sendMsg (s : State) (type status : Nat) (payload : List Byte) : State :=
  { s with upd := { s.upd with outMsg := some (type, status, payload) } }

/-- R443: INFO. -/
def infoPayload (s : State) : List Byte :=
  beBytes 8 s.flash.unit.toNat ++ beBytes 1 s.flash.stepping ++ beBytes 4 s.flash.counter ++ beBytes 4 (imgVersion s.flash.active)
    ++ beBytes 4 (updStateWord s).toNat ++ beBytes 4 (stagedVersion s)

/-- TRANSFER_CONNECT (R443, R452): one connection at a time, where the service settings enable the transfer port. -/
def execTransferConnect (s : State) : Host.Outcome State Fault Refusal :=
  .next (if !xferUp s then s
    else if s.upd.conn then sendMsg s 0x09 0x01 []
    else if !s.boot.recovery && s.flash.svcRec.value.port.isNone then s
    else { s with upd := { s.upd with conn := true, header := none, body := [] } })

/-- HELLO (R443): protocol version 1 is answered with INFO. -/
def execHello (version : Word) (s : State) : Host.Outcome State Fault Refusal :=
  .next (if xferUp s && s.upd.conn && version == 1 then sendMsg s 0x02 0 (infoPayload s) else s)

/-- R444: a header is not taken: an activation is scheduled, or STAGING is being copied. -/
def headerBusy (s : State) : Bool := s.upd.actSt == 1 || s.upd.actSt == 2 || s.flash.copy == 2 || s.flash.copy == 3

/-- R442, R444: a header that passes marks STAGING EMPTY, then RECEIVING. -/
def takeHeader (s : State) (h : List Byte) (sigOk : Bool) : State :=
  let st := if headerBusy s then 0x46 else headerStatus s.flash h sigOk
  if st ≠ 0 then sendMsg s 0x04 st []
  else
    sendMsg { s with
      flash := s.flash.dropStaged.putUpd (fun u => { u with staging := 1 })
      upd := { s.upd with header := some (h, sigOk), body := [], rxKib := 0 } } 0x04 0 []

/-- HEADER (R442, R444): sigOk says that the signature verifies. -/
def execHeader (bytes : List Byte) (sigOk : Bool) (s : State) : Host.Outcome State Fault Refusal :=
  .next (if xferUp s && s.upd.conn then takeHeader s bytes sigOk else s)

/-- R445: the transfer ends with an ABORT of the module. -/
def abortTransfer (s : State) (status : Nat) : State := sendMsg (endTransfer s) 0x09 status []

/-- R445: a chunk is written, discarded, or ends the transfer. -/
def takeChunk (s : State) (h : List Byte) (off : Nat) (bytes : List Byte) : State :=
  let n := s.upd.body.length
  if bytes.length = 0 ∨ 65536 < bytes.length then abortTransfer s 0x40
  else if off ≠ n then sendMsg s 0x06 0x47 (beBytes 8 n)
  else if hdrBodyLen h < n + bytes.length then abortTransfer s 0x40
  else
    sendMsg { s with upd := { s.upd with body := s.upd.body ++ bytes, rxKib := min ((n + bytes.length) / 1024) 4096 } } 0x06 0
      (beBytes 8 (n + bytes.length))

/-- CHUNK (R445). -/
def execChunk (off : DWord) (bytes : List Byte) (s : State) : Host.Outcome State Fault Refusal :=
  .next (match s.upd.header with
    | some h => if xferUp s && s.upd.conn then takeChunk s h.1 off.toNat bytes else s
    | none => s)

/-- R415: after the recovery service has an image the boot ROM runs Stage 0 again with the copy state PENDING. -/
def recoverImage (s : State) : State :=
  if !s.boot.recovery then s
  else
    setReport { s with
      flash := s.flash.putUpd (fun u => { u with copy := 1 })
      upd := { s.upd with conn := false }
      boot := { s.boot with stage := 0, state := 0, code := 0, led := 0, recovery := false, stageAt := s.clock } } 0 (reportWord 0 1 false false 0)

/-- R445: FINISH: the digest decides. -/
def finishBody (s : State) (h : List Byte) (sigOk : Bool) : State :=
  if digest48 s.upd.body = hdrDigest h then
    recoverImage (sendMsg { s with
      flash := { s.flash.putUpd (fun u => { u with staging := 2 }) with staged := some ⟨h, s.upd.body, sigOk⟩ }
      upd := { s.upd with header := none, body := [] } } 0x08 0 [])
  else
    sendMsg { s with
      flash := s.flash.dropStaged
      upd := { s.upd with header := none, body := [] } } 0x08 0x48 []

/-- FINISH (R415, R445). -/
def execFinish (s : State) : Host.Outcome State Fault Refusal :=
  .next (match s.upd.header with
    | some h => if xferUp s && s.upd.conn then finishBody s h.1 h.2 else s
    | none => s)

/-- TRANSFER_ABORT (R445): the client aborts or the connection closes. -/
def execTransferAbort (s : State) : Host.Outcome State Fault Refusal := .next (if s.upd.conn then endTransfer s else s)

/-- TRANSFER_TIMEOUT (R445): 30 s without a message. -/
def execTransferTimeout (s : State) : Host.Outcome State Fault Refusal := .next (if s.upd.conn then abortTransfer s 0x49 else s)

/-- ACTIVATION_TIME (R447): fabric time reaches T. -/
def execActivationTime (s : State) : Host.Outcome State Fault Refusal :=
  .next (if kilnUp s && s.upd.actSt == 1 && decide (s.upd.actTime.toNat ≤ ftimeNs s.fab) then
      let s1 := pauseAct s
      { s1 with upd := { s1.upd with actSt := 2 } }
    else s)

/-- ACTIVATION_STARTED (R447, R449): every condition holds: the event, the copy state PENDING, and the restart of R413. -/
def execActivationStarted (s : State) : Host.Outcome State Fault Refusal :=
  .next (if kilnUp s && s.upd.actSt == 2 && actUnmet s == 0 then
      let s1 := postAll s 0x19 [imgVersion s.flash.staged]
      restartModule { s1 with flash := s1.flash.putUpd (fun u => { u with copy := 1 }) }
    else s)

/-- The lowest set bit of UNMET. -/
def firstUnmet (n : Nat) : Nat := if n % 2 = 1 then 1 else if n / 2 % 2 = 1 then 2 else if n / 4 % 2 = 1 then 4 else 0

/-- ACTIVATION_CANCELLED (R448): the window ends before the restart begins. -/
def execActivationCancelled (s : State) : Host.Outcome State Fault Refusal :=
  let n := firstUnmet (actUnmet s)
  .next (if kilnUp s && s.upd.actSt == 2 && n != 0 then
      let s1 := resumeAct s
      postAll { s1 with upd := { s1.upd with actSt := 4, unmet := n } } 0x1A [n]
    else s)

end Sys2Proof.Machine
end

