-- ==== Sys2Proof/Machine/SpdmRows.lean ====
section
/-! DEFINITION. SPDM over the DOE capability of each port (spec/17_identity_and_update.md R435 to R438, spec/14_host_interface.md R386). The
codes and the order of requests that SPDM 1.2 itself fixes are PRESUMED from that standard. -/

namespace Sys2Proof.Machine

/-- ERROR codes of SPDM 1.2: InvalidRequest, Busy, UnexpectedRequest, UnsupportedRequest. -/
def spdmInvalid : Nat := 0x01
/-- Busy. -/
def spdmBusy : Nat := 0x03
/-- UnexpectedRequest. -/
def spdmUnexpected : Nat := 0x04
/-- UnsupportedRequest. -/
def spdmUnsupportedCode : Nat := 0x07

/-- A port's SPDM connection. -/
def spdmOf (s : State) (p : Nat) : SpdmConn := if p = 0 then s.spdm0 else s.spdm1

/-- Setting a port's SPDM connection. -/
def setSpdm (s : State) (p : Nat) (x : SpdmConn) : State := if p = 0 then { s with spdm0 := x } else { s with spdm1 := x }

/-- R437: SPDM is served from the end of Stage 1. -/
def spdmServed (s : State) : Bool := decide (2 ≤ s.boot.stage)

/-- R386, R437: a request on a port is answered through its DOE, with vector 20; Busy before the end of Stage 1. f gives the
connection with its answer. -/
def spdmServe (s : State) (p : Nat) (f : SpdmConn → SpdmConn) : State :=
  if !(kilnUp s && (hostOf s p).linkUp) then s
  else
    let x := spdmOf s p
    raiseVec (setSpdm s p (if spdmServed s then f x else { x with last := some (.error spdmBusy) })) p 20

/-- The connection with an answer. -/
def reply (x : SpdmConn) (r : SpdmResp) : SpdmConn := { x with last := some r }

/-- The answer to a request that needs the negotiation to be over. -/
def afterAlgs (x : SpdmConn) (r : SpdmResp) : SpdmConn := reply x (if x.algs then r else .error spdmUnexpected)

/-- GET_VERSION (R437): 1.2 only; starts the connection anew. -/
def execGetVersion (port : Fin 2) (s : State) : Host.Outcome State Fault Refusal :=
  .next (spdmServe s port.val (fun _ => ⟨true, false, false, some (.version [0x12])⟩))

/-- GET_CAPABILITIES (R437): CERT_CAP, CHAL_CAP, MEAS_CAP 10b, CTExponent 17. -/
def execGetCapabilities (port : Fin 2) (s : State) : Host.Outcome State Fault Refusal :=
  .next (spdmServe s port.val (fun x =>
    if x.version then { x with caps := true, last := some (.capabilities true true 2 17) } else reply x (.error spdmUnexpected)))

/-- NEGOTIATE_ALGORITHMS (R437): what the requester offers. -/
def execNegotiateAlgorithms (port : Fin 2) (p384 : Bool) (sha384 : Bool) (s : State) : Host.Outcome State Fault Refusal :=
  .next (spdmServe s port.val (fun x =>
    if !x.caps then reply x (.error spdmUnexpected)
    else if p384 && sha384 then { x with algs := true, last := some (.algorithms 384 384) }
    else reply x (.error spdmInvalid)))

/-- The certificate chain in slot 0 (R436), where a copy is valid. -/
def chainBytes (s : State) : List Byte := if s.flash.chainRec.valid then s.flash.chainRec.value else []

/-- GET_DIGESTS (R437): the digest of slot 0; slots 1 to 7 are empty. -/
def execGetDigests (port : Fin 2) (s : State) : Host.Outcome State Fault Refusal :=
  .next (spdmServe s port.val (fun x => afterAlgs x (.digests (if s.flash.chainRec.valid then digest48 (chainBytes s) else []))))

/-- GET_CERTIFICATE (R437): slot 0, a portion up to the requested length. -/
def execGetCertificate (port : Fin 2) (slot off len : Nat) (s : State) : Host.Outcome State Fault Refusal :=
  let c := chainBytes s
  .next (spdmServe s port.val (fun x => afterAlgs x
    (if slot ≠ 0 ∨ c.length ≤ off then .error spdmInvalid else .certificate ((c.drop off).take len) (c.length - off - len))))

/-- R438: the measurement blocks: index, DMTF value type (bit 7 marks a raw value), value. -/
def measurement (s : State) (i : Nat) : Nat × Nat × List Byte :=
  match i with
  | 1 => (1, 0x00, digest48 Config.bootRom)
  | 2 => (2, 0x01, hdrDigest s.boot.header)
  | 3 => (3, 0x04, digest48 (s.boot.header.take 4000))
  | 4 => (4, 0x87, leBytes 8 s.flash.counter)
  | 5 => (5, 0x86, leBytes 4 (hdrVersion s.boot.header))
  | 6 => (6, 0x02, digest48 (Config.identRecord s.flash.unit s.flash.stepping ++ Config.gradeRecord s.flash.grade
      ++ defectRecord s.flash 0 ++ defectRecord s.flash 1))
  | 7 => (7, 0x84, s.kiln.dclass)
  | _ => (8, 0x04, if s.flash.staging = 2 then digest48 ((match s.flash.staged with | some x => x.header | none => []).take 4000)
      else List.replicate 48 0)

/-- R437, R438: all eight blocks, in order. -/
def allMeasurements (s : State) : List (Nat × Nat × List Byte) := (List.range 8).map (fun i => measurement s (i + 1))

/-- The bytes of measurement blocks. -/
def measurementBytes (l : List (Nat × Nat × List Byte)) : List Byte :=
  l.flatMap (fun b => leBytes 1 b.1 ++ leBytes 1 1 ++ leBytes 2 (b.2.2.length + 3) ++ leBytes 1 b.2.1 ++ leBytes 2 b.2.2.length ++ b.2.2)

/-- R435: a signature of the device identity key. -/
def deviceSign (s : State) (m : List Byte) : List Byte := fit96 (Config.ecdsaSign s.flash.unit.toNat m)

/-- CHALLENGE (R437): the summary covers indices 1 to 8; the answer is signed. -/
def execChallenge (port : Fin 2) (slot : Nat) (nonce : List Byte) (s : State) : Host.Outcome State Fault Refusal :=
  let sum := digest48 (measurementBytes (allMeasurements s))
  .next (spdmServe s port.val (fun x => afterAlgs x
    (if slot ≠ 0 then .error spdmInvalid else .challengeAuth sum (deviceSign s (nonce ++ digest48 (chainBytes s) ++ sum)))))

/-- R438: the answer to GET_MEASUREMENTS: index 0 asks for their number, 0xFF for all of them. -/
def measurementResp (s : State) (idx : Nat) (sign : Bool) (nonce : List Byte) : SpdmResp :=
  let l := if idx = 0 then [] else if idx = 0xFF then allMeasurements s else [measurement s idx]
  if 8 < idx ∧ idx ≠ 0xFF then .error spdmInvalid
  else .measurements (if idx = 0 then 8 else 0) l (if sign then some (deviceSign s (nonce ++ measurementBytes l)) else none)

/-- GET_MEASUREMENTS (R438). -/
def execGetMeasurements (port : Fin 2) (idx : Nat) (sign : Bool) (nonce : List Byte) (s : State) : Host.Outcome State Fault Refusal :=
  .next (spdmServe s port.val (fun x => afterAlgs x (measurementResp s idx sign nonce)))

/-- The request codes of SPDM 1.2 that a port serves (R437). -/
def servedCodes : List Nat := [0x81, 0x82, 0x83, 0x84, 0xE0, 0xE1, 0xE3]

/-- SPDM_UNSUPPORTED (R437): every other request code. -/
def execSpdmUnsupported (port : Fin 2) (code : Byte) (s : State) : Host.Outcome State Fault Refusal :=
  .next (if servedCodes.contains code.toNat then s else spdmServe s port.val (fun x => reply x (.error spdmUnsupportedCode)))

end Sys2Proof.Machine
end

