-- ==== Sys2Proof/Machine/SmbRows.lean ====
section
/-! DEFINITION. The side-band on J5 (spec/19_module_hardware.md R472). -/

namespace Sys2Proof.Machine

/-- R468: the module's 7-bit SMBus address, by the straps sampled at the start of Stage 0. -/
def smbAddress (s : State) : Nat := 0x48 + s.boot.strap

/-- R472: a transaction: acknowledged with its data while the power and telemetry controller runs and the PEC is right, else
without effect. -/
def smbDo (s : State) (pec : Bool) (data : List Byte) (f : State → State) : State :=
  if s.pwr.isOn && pec then { f s with smb := ⟨true, data⟩ } else { s with smb := ⟨false, []⟩ }

/-- FRU_READ (R472): 32 bytes from a byte offset; past byte 511 they read 0. -/
def execFruRead (off : BitVec 16) (pec : Bool) (s : State) : Host.Outcome State Fault Refusal :=
  .next (smbDo s pec ((List.range 32).map (fun i => if off.toNat + i < 512 then Config.fruArea (off.toNat + i) else 0)) id)

/-- The sensors in the order of their registers (R368). -/
def sensorKeys : List (Nat × Nat) := [0, 1, 3, 4, 2].flatMap (fun k => (List.range (sensorCount k)).map (fun i => (k, i)))

/-- R472: the register of the hottest sensor, the first among equals. -/
def hottestWord (w : PwrState) : Word :=
  let b := sensorKeys.foldl (fun (b : Nat × Nat) k => if (sensorOf w b.1 b.2).2 < (sensorOf w k.1 k.2).2 then k else b) (0, 0)
  thmWord w b.1 b.2

/-- R472: the eight values of TELEMETRY. -/
def telemetryWords (s : State) : List Word :=
  let k := s.kiln.telem.getD [0, 0]
  [pwrVinWord s.pwr, pwrWord s 4, pwrCapWord s.pwr, pwrEmergWord s.clock s.pwr, k.getD 0 0, hottestWord s.pwr, k.getD 1 0, updWord s 0]

/-- TELEMETRY (R397, R472): one snapshot of 32 bytes. -/
def execTelemetry (pec : Bool) (s : State) : Host.Outcome State Fault Refusal :=
  .next (smbDo s pec ((telemetryWords s).flatMap (fun w => leBytes 4 w.toNat)) id)

/-- R351, R472: a BMC cap: 0 clears it; out of range it stays. -/
def setBmcCap (s : State) (w : Nat) : State :=
  updPwr s (fun p => if w = 0 ∨ (3000 ≤ w ∧ w ≤ 6400) then { p with capBmc := w, capStatus := 0 } else { p with capStatus := 0x04 })

/-- CAP_SET (R351, R472). -/
def execCapSet (w : BitVec 16) (pec : Bool) (s : State) : Host.Outcome State Fault Refusal :=
  .next (smbDo s pec [] (fun x => setBmcCap x w.toNat))

/-- CAP_STATUS (R472): the status of the last CAP_SET. -/
def execCapStatus (pec : Bool) (s : State) : Host.Outcome State Fault Refusal := .next (smbDo s pec (leBytes 1 s.pwr.capStatus) id)

end Sys2Proof.Machine
end

