-- ==== Sys2Proof/Machine/TileRows.lean ====
section
/-! DEFINITION. The meanings of the tile's own commands: logical cycles and tokens, every operation of the four slots of a bundle,
tag stalls, and the receipt of flits (spec/04_tile_engines.md, spec/03_array_arithmetic.md, spec/05_scratchpad.md R146 to R148,
spec/06_die_mesh_and_groupings.md R161, spec/07_clocks_and_logical_time.md R194). -/

namespace Sys2Proof.Machine

/-- The outcome of a command that completes. -/
abbrev Res := Host.Outcome State Fault Refusal

/-- A tile in its logical cycle in progress, with everything due at its start applied (R103). -/
def tileNow (x : Tile) : Tile := settleArray (settleSoon (settleDue x))

/-- A tile issues operations: it runs with its oscillator on and has not issued DONE (R111, R188), nothing holds it at its beat
gate, for a late word of its partners ps, or for the losers of a bank conflict (R104, R194, R196). -/
def tileIssues (ps : List Dir) (x : Tile) : Bool :=
  x.st == .run && x.oscOn && !x.doneIss && x.confQ.isEmpty && !beatHeld (tileNow x) ps && !wordLate (tileNow x) ps

/-- R131, R202: an operation that stopped its tile ends the logical cycle in progress: it is counted. -/
def lastCycle (limit : Bool) (x : Tile) : Tile :=
  if x.st = .fault then
    { countPeriods { x with clkOn := true } limit 1 with logical := x.logical + 1, held := false, holdOn := false, tagHold := 0, clkOn := false }
  else x

/-- What the region and the partners of a tile give an operation of it (R189, R193): its beat partners, and whether the limit stretch is
asserted. -/
structure OpEnv where
  partners : List Dir
  limit    : Bool
  deriving DecidableEq, Repr

/-- The surroundings of a tile of the device. -/
def opEnv (s : State) (t : Nat) : OpEnv :=
  ⟨partnerDirs s t, regionStretch s.pwr (tileRegion t) (regionPolicy s (tileRegion t))⟩

/-- One operation of a slot issues on a tile (R101, R131): a refused one changes nothing but the record of its fault, and ends the tile's
last cycle. A tile that does not issue is unchanged. -/
def tileOp (e : OpEnv) (x : Tile) (slot : Nat) (f : Tile → Except TFault Tile) : Tile :=
  if tileIssues e.partners x then lastCycle e.limit (slotResult (tileNow x) slot ((tileNow x).pc % 8192) (f (tileNow x))) else x

/-- One operation of a slot of a tile of the device. -/
def slotOp (s : State) (t slot : Nat) (f : Tile → Except TFault Tile) : State := updTile s t (fun x => tileOp (opEnv s t) x slot f)

/-- One operation of the move slot on a tile (R127, R145, R221): it holds on a tag, or as a 33rd MREQ, or issues. -/
def tileMove (e : OpEnv) (me : Nat) (x : Tile) (o : MovOp) : Tile :=
  if tileIssues e.partners x then
    match movBlocked (tileNow x) o with
    | some b => holdTag me (tileNow x) e.limit b.1 b.2
    | none =>
      if (tileNow x).mreqOut = 32 ∧ isMreq o then holdQueue me (tileNow x) e.limit true
      else lastCycle e.limit
        (slotResult (tileNow x) 3 ((tileNow x).pc % 8192) (issueMov me ((tileNow x).pc % 8192) (tileNow x) o))
  else x

/-- One operation of the move slot of a tile of the device. -/
def moveOp (s : State) (t : Nat) (o : MovOp) : State := updTile s t (fun x => tileMove (opEnv s t) t x o)

/-- R179: the directions in which the gang of a tile goes on. -/
def gangDirs (s : State) (t : Nat) : List Dir :=
  match partOfTile s t with
  | some p =>
    let q := partOf s p
    if q.mode = 1 then
      (partnerDirs s t).filter (fun d => match partnerOf s t d with
        | some u => gangHead q.gang u == gangHead q.gang t
        | none => false)
    else []
  | none => []

/-- What the device gives a tile for one physical cycle (R179, R189, R193). -/
def envOf (s : State) (t : Nat) (up : CycleEnv) : TileEnv :=
  ⟨partnerDirs s t, gangDirs s t, (opEnv s t).limit,
    (match partOfTile s t with | some p => (partOf s p).fmask | none => 0), up⟩

/-- A flit on its way to the neighbour in a direction (R161). -/
def sendFlit (s : State) (t : Nat) (x : Dir × Flit) : State :=
  match partnerOf s t x.1 with
  | some u => updTile s u (fun y => { y with
      wire := smSet [] y.wire (dirNum (dirOpp x.1)) (smGet [] y.wire (dirNum (dirOpp x.1)) ++ [x.2]) })
  | none => s

/-- A beat token on its way to the partner in a direction (R194). -/
def sendToken (s : State) (t : Nat) (x : Dir × BeatTok) : State :=
  match partnerOf s t x.1 with
  | some u => updTile s u (fun y => { y with
      tokWire := smSet [] y.tokWire (dirNum (dirOpp x.1)) (smGet [] y.tokWire (dirNum (dirOpp x.1)) ++ [x.2]) })
  | none => s

/-- The mover requests that left a tile's edge port wait at that port (R174, R214). -/
def sendReqs (s : State) (t : Nat) (rs : List MDesc) : State :=
  match edgeOfTile t with
  | some e =>
    if rs.isEmpty then s
    else { s with ring := { s.ring with outQ := smSet [] s.ring.outQ e (smGet [] s.ring.outQ e ++ rs) } }
  | none => s

/-- One physical cycle of a tile of the device, with what it sends. -/
def deviceCycle (s : State) (t : Nat) (up : CycleEnv) : State :=
  let o := tileCycle t (envOf s t up) (tileOf s t)
  let s1 := setTile s t o.tile
  let s2 := o.flits.foldl (fun y f => sendFlit y t f) s1
  let s3 := o.tokens.foldl (fun y k => sendToken y t k) s2
  sendReqs s3 t o.reqs

/-- LOGICAL_CYCLE (R104): one physical cycle of the tile; it completes a logical cycle or holds (R198). -/
def execLogicalCycle (t : Fin 2048) (up : CycleEnv) (s : State) : Res := .next (deviceCycle s t.val up)

/-- BEAT_TOKEN (R194, R199, R200): the oldest token under way from the partner in direction d arrives. -/
def execBeatToken (t : Fin 2048) (d : Dir) (s : State) : Res := .next (updTile s t.val (fun x => tokenReceive x d))

/-- CYCLE_LIMIT (R112): logical cycle 2^31 − 1 completed without DONE. -/
def execCycleLimit (t : Fin 2048) (s : State) : Res := .next (updTile s t.val cycleLimit)

/-- NOP (R102): the slot does nothing. -/
def execNop (_t : Fin 2048) (_slot : Fin 4) (s : State) : Res := .next s

/-- LDI (R109): an immediate in one of three forms to SC[d]. -/
def execLdi (t : Fin 2048) (d : Fin 16) (mode : Fin 4) (imm : BitVec 16) (s : State) : Res :=
  .next (slotOp s t.val 0 (fun x => issueLdi x d mode imm))

/-- SALU (R109): a scalar function of SC[a] and SC[b] to SC[d]. -/
def execSalu (t : Fin 2048) (d a b fn : Fin 16) (s : State) : Res :=
  .next (slotOp s t.val 0 (fun x => issueSalu x d a b fn))

/-- SADDI (R109): SC[a] plus a signed immediate to SC[d]. -/
def execSaddi (t : Fin 2048) (d a : Fin 16) (imm : BitVec 16) (s : State) : Res :=
  .next (slotOp s t.val 0 (fun x => issueSaddi x d a imm))

/-- ADSET (R109): AD[n] from SC[a] and SC[b]. -/
def execAdset (t : Fin 2048) (n : Fin 32) (a b : Fin 16) (s : State) : Res :=
  .next (slotOp s t.val 0 (fun x => issueAdset x n a b))

/-- LOOP (R110): opens a loop that ends at entry stop. -/
def execLoop (t : Fin 2048) (csrc : Bool) (cnt : BitVec 12) (stop : BitVec 13) (s : State) : Res :=
  .next (slotOp s t.val 0 (fun x => issueFlow (x.pc % 8192) x (.loop csrc cnt stop)))

/-- JMP (R110). -/
def execJmp (t : Fin 2048) (target : BitVec 13) (s : State) : Res :=
  .next (slotOp s t.val 0 (fun x => issueFlow (x.pc % 8192) x (.jmp target)))

/-- BNZ (R110): branches where SC[a] is not 0. -/
def execBnz (t : Fin 2048) (a : Fin 16) (target : BitVec 13) (s : State) : Res :=
  .next (slotOp s t.val 0 (fun x => issueFlow (x.pc % 8192) x (.bnz a target)))

/-- BOWN (R138): port becomes the owner of the banks in mask. -/
def execBown (t : Fin 2048) (mask : BitVec 16) (port : Fin 4) (s : State) : Res :=
  .next (slotOp s t.val 0 (fun x => issueBown x mask port))

/-- CCLR (R109, R68): clears the selected number counters. -/
def execCclr (t : Fin 2048) (mask : BitVec 3) (s : State) : Res :=
  .next (slotOp s t.val 0 (fun x => issueCclr x mask))

/-- RDSR (R109): a status register to SC[d]. -/
def execRdsr (t : Fin 2048) (d sel : Fin 16) (s : State) : Res :=
  .next (slotOp s t.val 0 (fun x => issueRdsr x d sel))

/-- DIGCLR (R124): clears the digest accumulator. -/
def execDigclr (t : Fin 2048) (s : State) : Res :=
  .next (slotOp s t.val 0 (fun x => issueDigclr x))

/-- EVENT (R109): records its code and notifies Kiln. -/
def execEvent (t : Fin 2048) (code : BitVec 16) (s : State) : Res :=
  .next (slotOp s t.val 0 (fun x => issueEvent x code))

/-- DONE (R111): nothing more issues. -/
def execDone (t : Fin 2048) (s : State) : Res :=
  .next (slotOp s t.val 0 (fun x => issueDone x))

/-- WLOAD (R74, R114): loads the shadow weights of its columns. -/
def execWload (t : Fin 2048) (didx : BitVec 13) (s : State) : Res :=
  .next (slotOp s t.val 1 (fun x => issueWload x didx))

/-- STREAM (R81, R115): streams vectors into long accumulators. -/
def execStream (t : Fin 2048) (didx : BitVec 13) (prob : Fin 8) (swap asrc : Bool) (asc : Fin 16) (s : State) : Res :=
  .next (slotOp s t.val 1 (fun x => issueStream x didx prob swap asrc asc))

/-- DRAIN (R92, R116): rounds long accumulators to the scratchpad. -/
def execDrain (t : Fin 2048) (didx : BitVec 13) (s : State) : Res :=
  .next (slotOp s t.val 1 (fun x => issueDrain x didx))

/-- ACLR (R90): clears long accumulators first to last of every column. -/
def execAclr (t : Fin 2048) (first last : Fin 128) (s : State) : Res :=
  .next (slotOp s t.val 1 (fun x => issueAclr x first last))

/-- MODE (R80): sets PJOIN and HSPLIT six cycles later. -/
def execMode (t : Fin 2048) (hsplit : Bool) (pjoin : Fin 4) (s : State) : Res :=
  .next (slotOp s t.val 1 (fun x => issueMode x hsplit pjoin))

/-- VMOV (R119). -/
def execVmov (t : Fin 2048) (f : VReg) (s : State) : Res :=
  .next (slotOp s t.val 2 (fun x => issueVmov x f))

/-- VBCAST (R119). -/
def execVbcast (t : Fin 2048) (f : VReg) (s : State) : Res :=
  .next (slotOp s t.val 2 (fun x => issueVbcast x f))

/-- VADD (R120). -/
def execVadd (t : Fin 2048) (f : VReg) (s : State) : Res :=
  .next (slotOp s t.val 2 (fun x => issueArith opAdd 2 x f))

/-- VSUB (R120). -/
def execVsub (t : Fin 2048) (f : VReg) (s : State) : Res :=
  .next (slotOp s t.val 2 (fun x => issueArith opSub 2 x f))

/-- VMUL (R120). -/
def execVmul (t : Fin 2048) (f : VReg) (s : State) : Res :=
  .next (slotOp s t.val 2 (fun x => issueArith opMul 2 x f))

/-- VFMA (R120). -/
def execVfma (t : Fin 2048) (f : VReg) (s : State) : Res :=
  .next (slotOp s t.val 2 (fun x => issueArith opFma 3 x f))

/-- VMAX (R120). -/
def execVmax (t : Fin 2048) (f : VReg) (s : State) : Res :=
  .next (slotOp s t.val 2 (fun x => issuePick true x f))

/-- VMIN (R120). -/
def execVmin (t : Fin 2048) (f : VReg) (s : State) : Res :=
  .next (slotOp s t.val 2 (fun x => issuePick false x f))

/-- VRSUM (R120). -/
def execVrsum (t : Fin 2048) (f : VReg) (s : State) : Res :=
  .next (slotOp s t.val 2 (fun x => issueVrsum x f))

/-- VRMAX (R120). -/
def execVrmax (t : Fin 2048) (f : VReg) (s : State) : Res :=
  .next (slotOp s t.val 2 (fun x => issueVrmax x f))

/-- VEXP2 (R121). -/
def execVexp2 (t : Fin 2048) (f : VReg) (s : State) : Res :=
  .next (slotOp s t.val 2 (fun x => issueFn fnExp2 x f))

/-- VLOG2 (R121). -/
def execVlog2 (t : Fin 2048) (f : VReg) (s : State) : Res :=
  .next (slotOp s t.val 2 (fun x => issueFn fnLog2 x f))

/-- VRCP (R121). -/
def execVrcp (t : Fin 2048) (f : VReg) (s : State) : Res :=
  .next (slotOp s t.val 2 (fun x => issueFn fnRcp x f))

/-- VRSQ (R121). -/
def execVrsq (t : Fin 2048) (f : VReg) (s : State) : Res :=
  .next (slotOp s t.val 2 (fun x => issueFn fnRsq x f))

/-- VLD (R119, R125). -/
def execVld (t : Fin 2048) (f : VMem) (s : State) : Res :=
  .next (slotOp s t.val 2 (fun x => issueVld x f))

/-- VST (R119, R125). -/
def execVst (t : Fin 2048) (f : VMem) (s : State) : Res :=
  .next (slotOp s t.val 2 (fun x => issueVst x f))

/-- VQNT (R122). -/
def execVqnt (t : Fin 2048) (f : VMem) (s : State) : Res :=
  .next (slotOp s t.val 2 (fun x => issueVqnt x f))

/-- VDQT (R122). -/
def execVdqt (t : Fin 2048) (f : VMem) (s : State) : Res :=
  .next (slotOp s t.val 2 (fun x => issueVdqt x f))

/-- VSCAN (R123). -/
def execVscan (t : Fin 2048) (f : VMem) (s : State) : Res :=
  .next (slotOp s t.val 2 (fun x => issueVscan x f))

/-- VDIG (R124). -/
def execVdig (t : Fin 2048) (f : VMem) (s : State) : Res :=
  .next (slotOp s t.val 2 (fun x => issueVdig x f))

/-- PUT (R127, R129). -/
def execPut (t : Fin 2048) (ad : Fin 32) (didx : BitVec 13) (pinc : Bool) (s : State) : Res :=
  .next (moveOp s t.val (.put ad didx pinc))

/-- MREQ (R127, R214, R221). -/
def execMreq (t : Fin 2048) (ad : Fin 32) (didx : BitVec 13) (pinc : Bool) (s : State) : Res :=
  .next (moveOp s t.val (.mreq ad didx pinc))

/-- WOPEN (R152). -/
def execWopen (t : Fin 2048) (win : Fin 16) (didx : BitVec 13) (s : State) : Res :=
  .next (moveOp s t.val (.wopen win didx))

/-- WCLOSE (R152). -/
def execWclose (t : Fin 2048) (win : Fin 16) (s : State) : Res :=
  .next (moveOp s t.val (.wclose win))

/-- TFULL (R146). -/
def execTfull (t : Fin 2048) (slot : Fin 1024) (s : State) : Res :=
  .next (moveOp s t.val (.tfull slot))

/-- TEMPTY (R146). -/
def execTempty (t : Fin 2048) (slot : Fin 1024) (s : State) : Res :=
  .next (moveOp s t.val (.tempty slot))

/-- PLD (R127, R130). -/
def execPld (t : Fin 2048) (ad : Fin 32) (idx : BitVec 12) (kind pinc : Bool) (s : State) : Res :=
  .next (moveOp s t.val (.pld ad idx kind pinc))

/-- TAG_STALL (R148): a tile, or its inbound path, has waited 2^24 physical cycles on a tag. -/
def execTagStall (t : Fin 2048) (s : State) : Res := .next (updTile s t.val tagStall)

/-- FLIT_RECEIVE (R161, R162): the oldest flit under way on an input arrives, with the errors of its quarters. -/
def execFlitReceive (t : Fin 2048) (d : Dir) (e : FlitErr) (s : State) : Res :=
  .next (updTile s t.val (fun x => flitReceive x d e.bad.val e.group.val))

end Sys2Proof.Machine
end

