-- ==== Sys2Proof/Machine/Dispatch.lean ====
section
/-! DEFINITION. The effect of a command on everything but the queue: one arm per command, each a direct call of its meaning. -/

namespace Sys2Proof.Machine

def exec (i : Instr) (s : State) : Host.Outcome State Fault Refusal :=
  match i with
  | .logicalCycle t up => Sys2Proof.Machine.execLogicalCycle t up s
  | .beatToken t d => Sys2Proof.Machine.execBeatToken t d s
  | .cycleLimit t => Sys2Proof.Machine.execCycleLimit t s
  | .nop t slot => Sys2Proof.Machine.execNop t slot s
  | .ldi t d mode imm => Sys2Proof.Machine.execLdi t d mode imm s
  | .salu t d a b fn => Sys2Proof.Machine.execSalu t d a b fn s
  | .saddi t d a imm => Sys2Proof.Machine.execSaddi t d a imm s
  | .adset t n a b => Sys2Proof.Machine.execAdset t n a b s
  | .loop t csrc cnt stop => Sys2Proof.Machine.execLoop t csrc cnt stop s
  | .jmp t target => Sys2Proof.Machine.execJmp t target s
  | .bnz t a target => Sys2Proof.Machine.execBnz t a target s
  | .bown t mask port => Sys2Proof.Machine.execBown t mask port s
  | .cclr t mask => Sys2Proof.Machine.execCclr t mask s
  | .rdsr t d sel => Sys2Proof.Machine.execRdsr t d sel s
  | .digclr t => Sys2Proof.Machine.execDigclr t s
  | .event t code => Sys2Proof.Machine.execEvent t code s
  | .done t => Sys2Proof.Machine.execDone t s
  | .wload t didx => Sys2Proof.Machine.execWload t didx s
  | .stream t didx prob swap asrc asc => Sys2Proof.Machine.execStream t didx prob swap asrc asc s
  | .drain t didx => Sys2Proof.Machine.execDrain t didx s
  | .aclr t first last => Sys2Proof.Machine.execAclr t first last s
  | .mode t hsplit pjoin => Sys2Proof.Machine.execMode t hsplit pjoin s
  | .vmov t f => Sys2Proof.Machine.execVmov t f s
  | .vbcast t f => Sys2Proof.Machine.execVbcast t f s
  | .vadd t f => Sys2Proof.Machine.execVadd t f s
  | .vsub t f => Sys2Proof.Machine.execVsub t f s
  | .vmul t f => Sys2Proof.Machine.execVmul t f s
  | .vfma t f => Sys2Proof.Machine.execVfma t f s
  | .vmax t f => Sys2Proof.Machine.execVmax t f s
  | .vmin t f => Sys2Proof.Machine.execVmin t f s
  | .vrsum t f => Sys2Proof.Machine.execVrsum t f s
  | .vrmax t f => Sys2Proof.Machine.execVrmax t f s
  | .vexp2 t f => Sys2Proof.Machine.execVexp2 t f s
  | .vlog2 t f => Sys2Proof.Machine.execVlog2 t f s
  | .vrcp t f => Sys2Proof.Machine.execVrcp t f s
  | .vrsq t f => Sys2Proof.Machine.execVrsq t f s
  | .vld t f => Sys2Proof.Machine.execVld t f s
  | .vst t f => Sys2Proof.Machine.execVst t f s
  | .vqnt t f => Sys2Proof.Machine.execVqnt t f s
  | .vdqt t f => Sys2Proof.Machine.execVdqt t f s
  | .vscan t f => Sys2Proof.Machine.execVscan t f s
  | .vdig t f => Sys2Proof.Machine.execVdig t f s
  | .put t ad didx pinc => Sys2Proof.Machine.execPut t ad didx pinc s
  | .mreq t ad didx pinc => Sys2Proof.Machine.execMreq t ad didx pinc s
  | .wopen t win didx => Sys2Proof.Machine.execWopen t win didx s
  | .wclose t win => Sys2Proof.Machine.execWclose t win s
  | .tfull t slot => Sys2Proof.Machine.execTfull t slot s
  | .tempty t slot => Sys2Proof.Machine.execTempty t slot s
  | .pld t ad idx kind pinc => Sys2Proof.Machine.execPld t ad idx kind pinc s
  | .tagStall t => Sys2Proof.Machine.execTagStall t s
  | .flitReceive t d e => Sys2Proof.Machine.execFlitReceive t d e s
  | .notify t => Sys2Proof.Machine.execNotify t s
  | .barArrive t cord ch count => Sys2Proof.Machine.execBarArrive t cord ch count s
  | .barRelease part cord ch => Sys2Proof.Machine.execBarRelease part cord ch s
  | .regWrite t tgt v => Sys2Proof.Machine.execRegWrite t tgt v s
  | .regRead t off => Sys2Proof.Machine.execRegRead t off s
  | .regData t => Sys2Proof.Machine.execRegData t s
  | .inboundWrite t => Sys2Proof.Machine.execInboundWrite t s
  | .inboundWord t => Sys2Proof.Machine.execInboundWord t s
  | .negativeCompletion t => Sys2Proof.Machine.execNegativeCompletion t s
  | .pullRead t => Sys2Proof.Machine.execPullRead t s
  | .mreqDeliveryWord t => Sys2Proof.Machine.execMreqDeliveryWord t s
  | .edgeSlotFill e cyc => Sys2Proof.Machine.execEdgeSlotFill e cyc s
  | .moverRequest e => Sys2Proof.Machine.execMoverRequest e s
  | .get m pos => Sys2Proof.Machine.execGet m pos s
  | .putm m pos => Sys2Proof.Machine.execPutm m pos s
  | .getw m pos => Sys2Proof.Machine.execGetw m pos s
  | .cget m pos => Sys2Proof.Machine.execCget m pos s
  | .cput m pos => Sys2Proof.Machine.execCput m pos s
  | .migrate m pos => Sys2Proof.Machine.execMigrate m pos s
  | .cordWrite m pos => Sys2Proof.Machine.execCordWrite m pos s
  | .cordGather m pos => Sys2Proof.Machine.execCordGather m pos s
  | .cordContrib m pos => Sys2Proof.Machine.execCordContrib m pos s
  | .visibilityPoint id => Sys2Proof.Machine.execVisibilityPoint id s
  | .migrateCopyDone page err => Sys2Proof.Machine.execMigrateCopyDone page err s
  | .oldFrameRelease page => Sys2Proof.Machine.execOldFrameRelease page s
  | .freeQueueRefill tier frames => Sys2Proof.Machine.execFreeQueueRefill tier frames s
  | .memUncorrectable who tier frame => Sys2Proof.Machine.execMemUncorrectable who tier frame s
  | .retirementCopy page badBlocks => Sys2Proof.Machine.execRetirementCopy page badBlocks s
  | .correctedErrorLimit tier e => Sys2Proof.Machine.execCorrectedErrorLimit tier e s
  | .scrubError tier frame => Sys2Proof.Machine.execScrubError tier frame s
  | .tmapEccError page => Sys2Proof.Machine.execTmapEccError page s
  | .laserFail b laser wear => Sys2Proof.Machine.execLaserFail b laser wear s
  | .spareLaserStable b w => Sys2Proof.Machine.execSpareLaserStable b w s
  | .resyncDone l => Sys2Proof.Machine.execResyncDone l s
  | .lossOfSignal l => Sys2Proof.Machine.execLossOfSignal l s
  | .laneSyncRegained l => Sys2Proof.Machine.execLaneSyncRegained l s
  | .pausedTimeout l => Sys2Proof.Machine.execPausedTimeout l s
  | .bladeDrawn b => Sys2Proof.Machine.execBladeDrawn b s
  | .bladeInserted b => Sys2Proof.Machine.execBladeInserted b s
  | .linkFlitReceive l x => Sys2Proof.Machine.execLinkFlitReceive l x s
  | .ackTimeout l vc => Sys2Proof.Machine.execAckTimeout l vc s
  | .linkErrorRate l => Sys2Proof.Machine.execLinkErrorRate l s
  | .linkTrain l => Sys2Proof.Machine.execLinkTrain l s
  | .trainingComplete l ok rtt => Sys2Proof.Machine.execTrainingComplete l ok rtt s
  | .fenceExpiry l => Sys2Proof.Machine.execFenceExpiry l s
  | .linkLeaveUp l => Sys2Proof.Machine.execLinkLeaveUp l s
  | .retryBufferExpiry l => Sys2Proof.Machine.execRetryBufferExpiry l s
  | .ident l rec => Sys2Proof.Machine.execIdent l rec s
  | .fence l secs => Sys2Proof.Machine.execFence l secs s
  | .write l h words => Sys2Proof.Machine.execWrite l h words s
  | .gather l h words => Sys2Proof.Machine.execGather l h words s
  | .contrib l h words => Sys2Proof.Machine.execContrib l h words s
  | .partialSum l h words => Sys2Proof.Machine.execPartialSum l h words s
  | .redSlotStall k slot => Sys2Proof.Machine.execRedSlotStall k slot s
  | .compl x => Sys2Proof.Machine.execCompl x s
  | .packetRetry n expired => Sys2Proof.Machine.execPacketRetry n expired s
  | .moduleArrived cord ch => Sys2Proof.Machine.execModuleArrived cord ch s
  | .barrier l h ch gen krec => Sys2Proof.Machine.execBarrier l h ch gen krec s
  | .linkstate l dst src dim m => Sys2Proof.Machine.execLinkstate l dst src dim m s
  | .linkstateTimer => Sys2Proof.Machine.execLinkstateTimer s
  | .timeExchange root => Sys2Proof.Machine.execTimeExchange root s
  | .time l dst src stamps => Sys2Proof.Machine.execTime l dst src stamps s
  | .ftimeSyncLost => Sys2Proof.Machine.execFtimeSyncLost s
  | .kilnBarrierArrive c kind => Sys2Proof.Machine.execKilnBarrierArrive c kind s
  | .kilnBarrierRelease cord => Sys2Proof.Machine.execKilnBarrierRelease cord s
  | .quiesceDone c => Sys2Proof.Machine.execQuiesceDone c s
  | .flood c => Sys2Proof.Machine.execFlood c s
  | .sectionTimeout c => Sys2Proof.Machine.execSectionTimeout c s
  | .peerLost l => Sys2Proof.Machine.execPeerLost l s
  | .droop t low => Sys2Proof.Machine.execDroop t low s
  | .regionMonitorTick n warn => Sys2Proof.Machine.execRegionMonitorTick n warn s
  | .oscRecalibration n => Sys2Proof.Machine.execOscRecalibration n s
  | .stepLaunch part => Sys2Proof.Machine.execStepLaunch part s
  | .start t => Sys2Proof.Machine.execStart t s
  | .abort t => Sys2Proof.Machine.execAbort t s
  | .halt t => Sys2Proof.Machine.execHalt t s
  | .stepEnd c => Sys2Proof.Machine.execStepEnd c s
  | .registerWrite port off v => Sys2Proof.Machine.execRegisterWrite port off v s
  | .loReadLatch port off => Sys2Proof.Machine.execLoReadLatch port off s
  | .bar0InvalidAccess port off isWrite len => Sys2Proof.Machine.execBar0InvalidAccess port off isWrite len s
  | .bar2Read port off len => Sys2Proof.Machine.execBar2Read port off len s
  | .bar2Write port off data => Sys2Proof.Machine.execBar2Write port off data s
  | .configRequest port q => Sys2Proof.Machine.execConfigRequest port q s
  | .standbyQualifierStart mv => Sys2Proof.Machine.execStandbyQualifierStart mv s
  | .pwrEnAssert => Sys2Proof.Machine.execPwrEnAssert s
  | .powerUp straps => Sys2Proof.Machine.execPowerUp straps s
  | .pwrEnDeassert => Sys2Proof.Machine.execPwrEnDeassert s
  | .powerDown => Sys2Proof.Machine.execPowerDown s
  | .forceOff => Sys2Proof.Machine.execForceOff s
  | .vinFault mv => Sys2Proof.Machine.execVinFault mv s
  | .vinOutOfRange mv => Sys2Proof.Machine.execVinOutOfRange mv s
  | .currentLimitAssert w => Sys2Proof.Machine.execCurrentLimitAssert w s
  | .currentLimitRelease w => Sys2Proof.Machine.execCurrentLimitRelease w s
  | .fieldLimitPersist n => Sys2Proof.Machine.execFieldLimitPersist n s
  | .converterFail => Sys2Proof.Machine.execConverterFail s
  | .phaseFault n bank => Sys2Proof.Machine.execPhaseFault n bank s
  | .chargeInjectorConnect n => Sys2Proof.Machine.execChargeInjectorConnect n s
  | .chargeInjectorDisconnect n => Sys2Proof.Machine.execChargeInjectorDisconnect n s
  | .shuntClampEngage n => Sys2Proof.Machine.execShuntClampEngage n s
  | .shuntClampRelease n => Sys2Proof.Machine.execShuntClampRelease n s
  | .capLoopTick watts => Sys2Proof.Machine.execCapLoopTick watts s
  | .energyMeterTick x => Sys2Proof.Machine.execEnergyMeterTick x s
  | .thermalStageEnter kind idx temp => Sys2Proof.Machine.execThermalStageEnter kind idx temp s
  | .thermalStageLeave kind idx temp => Sys2Proof.Machine.execThermalStageLeave kind idx temp s
  | .thermalCeilingTick n => Sys2Proof.Machine.execThermalCeilingTick n s
  | .thermalTrip kind idx => Sys2Proof.Machine.execThermalTrip kind idx s
  | .headroomTest mean => Sys2Proof.Machine.execHeadroomTest mean s
  | .quarterRateStart => Sys2Proof.Machine.execQuarterRateStart s
  | .softStartDone n => Sys2Proof.Machine.execSoftStartDone n s
  | .throttleAssert => Sys2Proof.Machine.execThrottleAssert s
  | .throttleDeassert => Sys2Proof.Machine.execThrottleDeassert s
  | .throttleHeld => Sys2Proof.Machine.execThrottleHeld s
  | .portReset port how => Sys2Proof.Machine.execPortReset port how s
  | .portTrain port => Sys2Proof.Machine.execPortTrain port s
  | .ring port m => Sys2Proof.Machine.execRing port m s
  | .ack port m => Sys2Proof.Machine.execAck port m s
  | .commandTake port m theirs => Sys2Proof.Machine.execCommandTake port m theirs s
  | .ringDb port c => Sys2Proof.Machine.execRingDb port c s
  | .msixSend port v => Sys2Proof.Machine.execMsixSend port v s
  | .heartbeatSample port => Sys2Proof.Machine.execHeartbeatSample port s
  | .hostHoldExpiry port => Sys2Proof.Machine.execHostHoldExpiry port s
  | .info port => Sys2Proof.Machine.execInfo port s
  | .timeSet port utc => Sys2Proof.Machine.execTimeSet port utc s
  | .restart port => Sys2Proof.Machine.execRestart port s
  | .fullStart port => Sys2Proof.Machine.execFullStart port s
  | .defectRead port kind off => Sys2Proof.Machine.execDefectRead port kind off s
  | .activate port at_ window => Sys2Proof.Machine.execActivate port at_ window s
  | .activateCancel port => Sys2Proof.Machine.execActivateCancel port s
  | .attach port a => Sys2Proof.Machine.execAttach port a s
  | .detach port => Sys2Proof.Machine.execDetach port s
  | .bar2Window port page => Sys2Proof.Machine.execBar2Window port page s
  | .traceConfig port mask => Sys2Proof.Machine.execTraceConfig port mask s
  | .partConfig port part fmask mode gang => Sys2Proof.Machine.execPartConfig port part fmask mode gang s
  | .partPowerOn port part => Sys2Proof.Machine.execPartPowerOn port part s
  | .partPowerOff port part => Sys2Proof.Machine.execPartPowerOff port part s
  | .partitionOffDrained part => Sys2Proof.Machine.execPartitionOffDrained part s
  | .powerPolicy port cap part mode stp => Sys2Proof.Machine.execPowerPolicy port cap part mode stp s
  | .tileReset port target => Sys2Proof.Machine.execTileReset port target s
  | .clusterReset port target => Sys2Proof.Machine.execClusterReset port target s
  | .partitionReset port target => Sys2Proof.Machine.execPartitionReset port target s
  | .computeReset port selftest => Sys2Proof.Machine.execComputeReset port selftest s
  | .deviceReset port selftest => Sys2Proof.Machine.execDeviceReset port selftest s
  | .resetApply found => Sys2Proof.Machine.execResetApply found s
  | .resetMoverCancel => Sys2Proof.Machine.execResetMoverCancel s
  | .ctxCreate port a => Sys2Proof.Machine.execCtxCreate port a s
  | .ctxPause port c => Sys2Proof.Machine.execCtxPause port c s
  | .ctxResume port c => Sys2Proof.Machine.execCtxResume port c s
  | .ctxDestroy port c => Sys2Proof.Machine.execCtxDestroy port c s
  | .ctxRestore port c a => Sys2Proof.Machine.execCtxRestore port c a s
  | .tmapMap port first count part tier writable => Sys2Proof.Machine.execTmapMap port first count part tier writable s
  | .tmapUnmap port first count => Sys2Proof.Machine.execTmapUnmap port first count s
  | .tmapRead port first count => Sys2Proof.Machine.execTmapRead port first count s
  | .fabricAssign port a => Sys2Proof.Machine.execFabricAssign port a s
  | .linkDisable port link => Sys2Proof.Machine.execLinkDisable port link s
  | .linkEnable port link => Sys2Proof.Machine.execLinkEnable port link s
  | .bladeRelease port blade => Sys2Proof.Machine.execBladeRelease port blade s
  | .failureRate port c mtbf => Sys2Proof.Machine.execFailureRate port c mtbf s
  | .cordSetup port cord ent => Sys2Proof.Machine.execCordSetup port cord ent s
  | .cordRead port cord => Sys2Proof.Machine.execCordRead port cord s
  | .rankReplace port a => Sys2Proof.Machine.execRankReplace port a s
  | .emberSetup port a => Sys2Proof.Machine.execEmberSetup port a s
  | .digestSetup port a => Sys2Proof.Machine.execDigestSetup port a s
  | .refillDone port c page => Sys2Proof.Machine.execRefillDone port c page s
  | .forceCopy port c => Sys2Proof.Machine.execForceCopy port c s
  | .lockstepStart port a => Sys2Proof.Machine.execLockstepStart port a s
  | .lockstepStop port => Sys2Proof.Machine.execLockstepStop port s
  | .load c tag img => Sys2Proof.Machine.execLoad c tag img s
  | .step c tag n mb seed => Sys2Proof.Machine.execStep c tag n mb seed s
  | .comparisonWindowComplete win => Sys2Proof.Machine.execComparisonWindowComplete win s
  | .lockstepRecord x => Sys2Proof.Machine.execLockstepRecord x s
  | .lockstepLagExceeded => Sys2Proof.Machine.execLockstepLagExceeded s
  | .lockstepRecordTimeout => Sys2Proof.Machine.execLockstepRecordTimeout s
  | .watchdogRestart core cause => Sys2Proof.Machine.execWatchdogRestart core cause s
  | .kilnRestartRecovery keepOk => Sys2Proof.Machine.execKilnRestartRecovery keepOk s
  | .telemetrySample => Sys2Proof.Machine.execTelemetrySample s
  | .decimationUpdate x => Sys2Proof.Machine.execDecimationUpdate x s
  | .stage0 x => Sys2Proof.Machine.execStage0 x s
  | .stage1 x puf serials => Sys2Proof.Machine.execStage1 x puf serials s
  | .stage2 x bad mtemp => Sys2Proof.Machine.execStage2 x bad mtemp s
  | .stage3 x c => Sys2Proof.Machine.execStage3 x c s
  | .stage3TimeWait => Sys2Proof.Machine.execStage3TimeWait s
  | .ntpAnswer utc => Sys2Proof.Machine.execNtpAnswer utc s
  | .stage4 x found => Sys2Proof.Machine.execStage4 x found s
  | .stage5 x r => Sys2Proof.Machine.execStage5 x r s
  | .stage6 x r => Sys2Proof.Machine.execStage6 x r s
  | .stage7 x => Sys2Proof.Machine.execStage7 x s
  | .stage7Timeout ms => Sys2Proof.Machine.execStage7Timeout ms s
  | .stage8 x => Sys2Proof.Machine.execStage8 x s
  | .romSelftestTimeout => Sys2Proof.Machine.execRomSelftestTimeout s
  | .serviceBankTimeout => Sys2Proof.Machine.execServiceBankTimeout s
  | .imageCopyDone => Sys2Proof.Machine.execImageCopyDone s
  | .transferConnect => Sys2Proof.Machine.execTransferConnect s
  | .hello version => Sys2Proof.Machine.execHello version s
  | .header bytes sigOk => Sys2Proof.Machine.execHeader bytes sigOk s
  | .chunk off bytes => Sys2Proof.Machine.execChunk off bytes s
  | .finish => Sys2Proof.Machine.execFinish s
  | .transferAbort => Sys2Proof.Machine.execTransferAbort s
  | .transferTimeout => Sys2Proof.Machine.execTransferTimeout s
  | .activationTime => Sys2Proof.Machine.execActivationTime s
  | .activationStarted => Sys2Proof.Machine.execActivationStarted s
  | .activationCancelled => Sys2Proof.Machine.execActivationCancelled s
  | .getVersion port => Sys2Proof.Machine.execGetVersion port s
  | .getCapabilities port => Sys2Proof.Machine.execGetCapabilities port s
  | .negotiateAlgorithms port p384 sha384 => Sys2Proof.Machine.execNegotiateAlgorithms port p384 sha384 s
  | .getDigests port => Sys2Proof.Machine.execGetDigests port s
  | .getCertificate port slot off len => Sys2Proof.Machine.execGetCertificate port slot off len s
  | .challenge port slot nonce => Sys2Proof.Machine.execChallenge port slot nonce s
  | .getMeasurements port idx sign nonce => Sys2Proof.Machine.execGetMeasurements port idx sign nonce s
  | .spdmUnsupported port code => Sys2Proof.Machine.execSpdmUnsupported port code s
  | .fruRead off pec => Sys2Proof.Machine.execFruRead off pec s
  | .telemetry pec => Sys2Proof.Machine.execTelemetry pec s
  | .capSet w pec => Sys2Proof.Machine.execCapSet w pec s
  | .capStatus pec => Sys2Proof.Machine.execCapStatus pec s
  | .flitBoundary l => Sys2Proof.Machine.execFlitBoundary l s
  | .laneSyncLost l => Sys2Proof.Machine.execLaneSyncLost l s
  | .identRecordSend l => Sys2Proof.Machine.execIdentRecordSend l s
  | .lockstepPartnerTimeout => Sys2Proof.Machine.execLockstepPartnerTimeout s
  | .forceOffDeassert => Sys2Proof.Machine.execForceOffDeassert s
  | .vinInRange mv => Sys2Proof.Machine.execVinInRange mv s
  | .bladeSeatTimeout b => Sys2Proof.Machine.execBladeSeatTimeout b s

end Sys2Proof.Machine
end

