-- ==== Sys2Proof/Safety.lean ====
section
/-! DEFINITION. What statements call a safe step and a canonical state. -/

namespace Sys2Proof

open Machine

/-- A step that answers a next state. -/
def stepsTo (s t : State) : Prop := step s = .next t

/-- The memories in canonical form (R206, R208, R209): HBM, DDR5 and the Tier Map. -/
def memWf (m : MemState) : Bool := smWf (0 : Byte) m.hbm && smWf (0 : Byte) m.ddr && smWf (0 : Word) m.tmap

/-- The memories of the module are in canonical form. -/
def memoryWf (s : State) : Bool := memWf s.mem

/-- What a step may not undo (R31, R228, R326, R439, R440, R483): the module's identity, grade, factory record and trims stay, the anti-rollback
counter does not fall, no retired frame leaves the record, and no free value is drawn twice. -/
structure Lasting (s t : State) : Prop where
  unit     : t.flash.unit = s.flash.unit
  stepping : t.flash.stepping = s.flash.stepping
  grade    : t.flash.grade = s.flash.grade
  model    : t.flash.model = s.flash.model
  factory  : t.flash.factory = s.flash.factory
  trims    : t.flash.trims = s.flash.trims
  counter  : s.flash.counter ≤ t.flash.counter
  retired  : ∀ r ∈ s.flash.retired, r ∈ t.flash.retired
  drawn    : s.freeCtr ≤ t.freeCtr

/-- A run that never faults and is never refused. -/
def safeFor : Nat → State → Prop
  | 0, _ => True
  | k + 1, s => ∃ t, stepsTo s t ∧ safeFor k t

end Sys2Proof
end

