-- ==== Sys2Proof/Certificates/Slice0/Obligations.lean ====
section
/-! DEFINITION. The statements about the model, from the rules of spec/: one Prop per statement. Where a command is said to
complete, the next state is written out, and what is not written out is unchanged. -/

open Sys2Proof Sys2Proof.Machine

/-- A step takes the command at the front of the queue and runs it with the queue's rest; the table has no row for a tick, and
on an empty queue one IR cycle passes (log entry 2, the model's choice): the clock advances by one, fabric time by its rate, the Tier
Map updates of the cycle take effect, and Kiln serves the doorbells that have waited (R212, R381). -/
def Obligations.StepRunsFrontCommand : Prop :=
  (∀ (c : Instr) (cs : List Instr) (s : State), s.pending = c :: cs → step s = exec c { s with pending := cs }) ∧
  (∀ s : State, s.pending = [] →
    let t := { s with clock := s.clock + 1, fab := ftimeTick s.fab, mem := { s.mem with stale := [], tmapBy := 0 } }
    step s = .next (wakeRings t) ∧ ((∀ c ∈ liveCtxs s, (ctxOf s c).dbWait = false) → step s = .next t))

/-- No command reads or writes the queue's rest: what a command answers with next keeps the commands that wait, in order. -/
def Obligations.CommandsKeepTheQueue : Prop :=
  ∀ (c : Instr) (s t : State), exec c s = .next t → t.pending = s.pending

/-- The only commands that stop the model are the three that name a frame of a memory tier, and they stop exactly where the
tier has no such frame (R206, R207); every other command answers with a next state, and none is refused. -/
def Obligations.OnlyAbsentFramesStop : Prop :=
  ∀ (c : Instr) (s : State),
    (∃ t, exec c s = .next t) ∨
    (exec c s = .fault .noSuchFrame ∧ ∃ (tier : Fin 2) (f : Nat), tierFrames tier.val (ddrFitted s) ≤ f ∧
      ((∃ who, c = .memUncorrectable who tier f) ∨ (∃ n, c = .correctedErrorLimit tier ⟨f, n⟩) ∨ c = .scrubError tier f))

/-- A tile issues operations in the surroundings of its device (R111, R188, R194, R196). -/
def Sys2Proof.issuesAt (s : State) (t : Nat) : Bool := tileIssues (opEnv s t).partners (tileOf s t)

/-- A tile x after an operation of a slot refused with a code: the record of the fault, the notice to Kiln, and the end of the tile's last
cycle, which is counted (R131, R202). -/
def Sys2Proof.refusedBy (s : State) (t : Nat) (x : Tile) (code slot : Nat) : Tile :=
  { x with
    st := .fault
    clkOn := false
    fValid := true
    fCode := code
    fSlot := slot
    fPc := x.pc % 8192
    notices := x.notices ++ [.fault code slot (x.pc % 8192)]
    stretch := x.droopLow || (opEnv s t).limit
    phys := x.phys + 1
    sDroop := if x.droopLow then satAdd32 x.sDroop 1 else x.sDroop
    sLimit := if !x.droopLow && (opEnv s t).limit then satAdd32 x.sLimit 1 else x.sLimit
    logical := x.logical + 1
    held := false
    holdOn := false
    tagHold := 0 }

/-- The tile after an operation whose scalar result v for SC[d] is due in the next logical cycle. -/
def Sys2Proof.withScalar (x : Tile) (d : Nat) (v : Word) : Tile :=
  { x with rclaim := (x.cyc + 1, .sc d) :: x.rclaim, due := x.due ++ [(x.cyc + 1, .sc d v)] }

/-- A scalar result of an operation of cycle t is read from t + 1 on and not before; SC0 reads 0 and takes no write (R103, R105). -/
def Obligations.ScalarResultReadsFromNextCycle : Prop :=
  ∀ (x : Tile) (d : Nat) (v : Word), d < 16 →
    scGet (settleDue { withScalar x d v with cyc := x.cyc + 1 }) d = (if d = 0 then 0 else v) ∧
    scGet (settleDue (withScalar x d v)) d = scGet (settleDue x) d

/-- LDI, SALU, SADDI, ADSET and RDSR complete on a tile that issues and whose result register is free in the next cycle: the
result of the table of R109 is due in that cycle, and nothing else of the state changes (R103, R109, R123, R124). -/
def Sys2Proof.ControlResultsOfTheTable : Prop :=
  ∀ (s : State) (t : Fin 2048) (d a b : Fin 16) (imm : BitVec 16),
    let x := tileNow (tileOf s t.val)
    let A := scGet x a.val
    let B := scGet x b.val
    let sh := (B.extractLsb' 0 5).toNat
    issuesAt s t.val = true →
    (claimed x (x.cyc + 1) (.sc d.val) = false →
      (∀ (mode : Fin 4) (v : Word),
        (mode = 0 ∧ v = imm.zeroExtend 32 ∨ mode = 1 ∧ v = imm.signExtend 32 ∨
          mode = 2 ∧ v = imm ++ (scGet x d.val).extractLsb' 0 16) →
        exec (.ldi t d mode imm) s = .next (setTile s t.val (withScalar x d.val v))) ∧
      (∀ (fn : Fin 16) (v : Word),
        (fn = 0 ∧ v = A + B ∨ fn = 1 ∧ v = A - B ∨ fn = 2 ∧ v = A &&& B ∨ fn = 3 ∧ v = A ||| B ∨ fn = 4 ∧ v = A ^^^ B ∨
          fn = 5 ∧ v = A <<< sh ∨ fn = 6 ∧ v = A >>> sh ∨ fn = 7 ∧ v = A.sshiftRight sh ∨
          fn = 8 ∧ v = (if A.toInt < B.toInt then A else B) ∨ fn = 9 ∧ v = (if A.toInt < B.toInt then B else A) ∨
          fn = 10 ∧ v = A * B) →
        exec (.salu t d a b fn) s = .next (setTile s t.val (withScalar x d.val v))) ∧
      exec (.saddi t d a imm) s = .next (setTile s t.val (withScalar x d.val (A + imm.signExtend 32))) ∧
      (∀ (sel : Fin 16) (v : Word),
        (sel = 0 ∧ v = x.numSat ∨ sel = 1 ∧ v = x.numFlush ∨ sel = 2 ∧ v = x.numNan ∨ sel = 3 ∧ v = twmaxScan x.arr ∨
          sel = 4 ∧ v = x.digAcc.extractLsb' 0 32 ∨ sel = 5 ∧ v = x.digAcc.extractLsb' 32 32) →
        exec (.rdsr t d sel) s = .next (setTile s t.val (withScalar x d.val v)))) ∧
    (∀ n : Fin 32, claimed x (x.cyc + 1) (.ad n.val) = false →
      exec (.adset t n a b) s = .next (setTile s t.val { x with
        rclaim := (x.cyc + 1, .ad n.val) :: x.rclaim
        due := x.due ++ [(x.cyc + 1, .ad n.val ⟨A.extractLsb' 0 22, B.extractLsb' 0 16⟩)] }))

/-- A control operation whose result register an earlier operation already writes in the same cycle is refused whole: it changes
nothing of the tile but the record of program fault 0x08 and the stop it causes, after the cycle is counted (R103, R131, R202). -/
def Obligations.WriteConflictIsRefused : Prop :=
  ∀ (s : State) (t : Fin 2048) (d a : Fin 16) (imm : BitVec 16),
    let x := tileNow (tileOf s t.val)
    issuesAt s t.val = true → claimed x (x.cyc + 1) (.sc d.val) = true →
      exec (.saddi t d a imm) s = .next (setTile s t.val (refusedBy s t.val x 0x08 0))

/-- JMP, BNZ and LOOP: a taken branch issues its target at t + 2, one not taken the next entry at t + 1; a LOOP pushes its body
and issues its first entry at t + 1, and one of count 0 issues the entry after END at t + 2 (R109, R110). The clauses of the branches
are those of a program outside every loop body. -/
def Sys2Proof.FlowControlMovesTheSequencer : Prop :=
  ∀ (s : State) (t : Fin 2048) (a : Fin 16) (target stop : BitVec 13) (csrc : Bool) (cnt : BitVec 12),
    let x := tileNow (tileOf s t.val)
    let n := if csrc then (scGet x (cnt.toNat % 16)).toNat else cnt.toNat + 1
    issuesAt s t.val = true → x.pc < 8192 →
    (x.loops = [] →
      exec (.jmp t target) s = .next (setTile s t.val { x with pc := target.toNat, fetchAt := x.cyc + 2 }) ∧
      (scGet x a.val ≠ 0 →
        exec (.bnz t a target) s = .next (setTile s t.val { x with pc := target.toNat, fetchAt := x.cyc + 2 })) ∧
      (scGet x a.val = 0 →
        exec (.bnz t a target) s = .next (setTile s t.val { x with pc := x.pc + 1, fetchAt := x.cyc + 1 }))) ∧
    (n = 0 → exec (.loop t csrc cnt stop) s = .next (setTile s t.val { x with pc := stop.toNat + 1, fetchAt := x.cyc + 2 })) ∧
    (n ≠ 0 → x.loops.length ≠ 4 →
      exec (.loop t csrc cnt stop) s = .next (setTile s t.val { x with
        pc := x.pc + 1
        fetchAt := x.cyc + 1
        loops := ⟨x.pc + 1, stop.toNat, n⟩ :: x.loops })) ∧
    (n ≠ 0 → x.loops.length = 4 →
      exec (.loop t csrc cnt stop) s = .next (setTile s t.val (refusedBy s t.val x 0x0A 0)))

/-- NOP changes nothing; BOWN, CCLR, DIGCLR, EVENT and DONE complete on a tile that issues: the new owners and the clear of
VEC_DIG_ACC are due at t + 1, the counters are marked for the clear of this cycle, EVENT is recorded and told to Kiln, and DONE ends
issue and records its cycle (R102, R109, R111, R134, R138, R203). -/
def Sys2Proof.ControlEffectsOnTheTile : Prop :=
  ∀ (s : State) (t : Fin 2048),
    (∀ slot : Fin 4, exec (.nop t slot) s = .next s) ∧
    (issuesAt s t.val = true →
      let x := tileNow (tileOf s t.val)
      (∀ (mask : BitVec 16) (port : Fin 4), exec (.bown t mask port) s =
        .next (setTile s t.val { x with due := x.due ++ [(x.cyc + 1, .own mask.toNat port.val)] })) ∧
      (∀ mask : BitVec 3, exec (.cclr t mask) s = .next (setTile s t.val { x with clr := x.clr ||| mask.toNat })) ∧
      exec (.digclr t) s = .next (setTile s t.val { x with due := x.due ++ [(x.cyc + 1, .digClr)] }) ∧
      (∀ code : BitVec 16, exec (.event t code) s = .next (setTile s t.val { x with
        evCode := code
        evCount := min (x.evCount + 1) 0xFFFF
        notices := x.notices ++ [.event code.toNat (min (x.evCount + 1) 0xFFFF)] })) ∧
      exec (.done t) s = .next (setTile s t.val { x with
        doneIss := true
        doneAt := some x.cyc
        notices := x.notices ++ [.done] }))

/-- BOWN issued at t gives every bank of its mask to its port from t + 1 on, and leaves every other bank its owner; in cycle t accesses
and header checks see the old owners. A bank has one owner, a port of 0 to 3 (R138). -/
def Obligations.BownTakesEffectNextCycle : Prop :=
  ∀ (s : State) (t : Fin 2048) (mask : BitVec 16) (port : Fin 4), issuesAt s t.val = true →
    ∃ n, exec (.bown t mask port) s = .next n ∧
      (let x := tileOf s t.val
       let y := tileOf n t.val
       ∀ bank : Fin 16, bankOwner y bank.val < 4 ∧
         bankOwner y bank.val = bankOwner (settleDue x) bank.val ∧
         bankOwner (settleDue y) bank.val = bankOwner (settleDue x) bank.val ∧
         (∀ h, windowCheck y h = windowCheck (tileNow x) h) ∧
         bankOwner (settleDue { y with cyc := y.cyc + 1 }) bank.val =
           (if mask.getLsbD bank.val then port.val else bankOwner (settleDue { settleDue x with cyc := x.cyc + 1 }) bank.val))

/-- A program's tag change applies only where the slot is in its From state, and a slot that enters EMPTY counts from 0; the last
word of a delivery fills only an EMPTY slot, the end of a send empties, and a refusal refills, only a LENT one; no other slot's tag changes (R146, R481). -/
def Obligations.TagsChangeOnlyFromTheirStates : Prop :=
  ∀ (x : Tile) (slot other : Nat),
    tagOf (progTag x slot .empty) slot = (if (tagOf x slot).st = .lent then tagOf x slot else ⟨.empty, 0⟩) ∧
    (tagOf (progTag x slot .full) slot).st = (if (tagOf x slot).st = .lent then .lent else .full) ∧
    (tagOf (progTag x slot .lent) slot).st = (if (tagOf x slot).st = .full then .lent else (tagOf x slot).st) ∧
    (tagOf (moverTag x slot .filled) slot).st = (if (tagOf x slot).st = .empty then .full else (tagOf x slot).st) ∧
    (tagOf (moverTag x slot .sent) slot).st = (if (tagOf x slot).st = .lent then .empty else (tagOf x slot).st) ∧
    (tagOf (moverTag x slot .refused) slot).st = (if (tagOf x slot).st = .lent then .full else (tagOf x slot).st) ∧
    (other ≠ slot → ∀ (st : TagSt) (e : TagEv), tagOf (progTag x slot st) other = tagOf x other ∧ tagOf (moverTag x slot e) other = tagOf x other)

/-- The array operations complete on a tile that issues, under the conditions of their rules: WLOAD joins the weight port and marks the
passes of its columns in both halves, STREAM joins the feeders over the columns in use with the passes of its own cells, DRAIN takes its vector port cycles and reads its first accumulator at once, ACLR
clears, MODE is due at t + 6 (R27, R73, R74, R76, R78, R80, R81, R86, R89, R90, R92, R114 to R117). -/
def Obligations.ArrayOperationsIssue : Prop :=
  ∀ (s : State) (t : Fin 2048), issuesAt s t.val = true →
    let x := tileNow (tileOf s t.val)
    (∀ (didx : BitVec 13) (w : Nat) (fmt : Fmt), descOf x didx 1 = .ok w → fmtOfCode (bits w 120 4) = some fmt →
      let l : LoadOp := ⟨x.cyc, fmt, bits w 113 7, bits w 105 8, bits w 83 22, bits w 61 22, [], []⟩
      (∀ o ∈ x.arr.loads, o.t + loadLen o ≤ x.cyc) →
      (∀ o ∈ x.arr.streams, o.swap = true → colsMeet l.col0 l.ncol o.prob.col0 o.prob.cols = true →
        o.t + 2 ≤ x.cyc ∨ x.cyc + loadLen l ≤ o.t + 2) →
      exec (.wload t didx) s = .next (setTile s t.val { x with arr := { x.arr with
        loads := x.arr.loads ++ [l]
        pShadow := loadPasses l x.arr.pShadow } })) ∧
    (∀ (didx : BitVec 13) (prob : Fin 8) (swap asrc : Bool) (asc : Fin 16) (w : Nat) (fmt : Fmt) (p : Problem),
      descOf x didx 2 = .ok w → fmtOfCode (bits w 120 4) = some fmt → problemOf x.arr.hsplit x.arr.pjoin prob.val (arrayWidth x) = some p →
      let st : StreamOp := {
        t := x.cyc, prob := p, fmt := fmt
        anchor := if asrc then signedOf 10 (scGet x asc.val).toNat else signedOf 10 (bits w 110 10)
        acc := bits w 103 7, count := bits w 96 7 + 1
        passes := probPasses p (if swap then x.arr.pShadow else x.arr.pAct)
        ebase := bits w 74 22, sbase := bits w 52 22, swap := swap, bytes := [], vecs := [], wts := none }
      bitAt w 51 = x.arr.hsplit →
      (∀ o ∈ x.arr.streams, o.prob.feeders &&& p.feeders ≠ 0 → o.t + streamSpan o ≤ x.cyc) →
      (∀ m, x.arr.modeAt = some m → x.cyc ≤ m ∨ m + 6 ≤ x.cyc + 2) →
      (swap = true → ∀ l ∈ x.arr.loads, colsMeet l.col0 l.ncol p.col0 p.cols = true → l.t = x.cyc + 2 ∨ l.t + loadLen l ≤ x.cyc + 2) →
      streamTest x st = none →
      exec (.stream t didx prob swap asrc asc) s = .next (setTile s t.val { x with arr := { x.arr with
        streams := x.arr.streams ++ [st]
        pAct := if swap then swapPasses p x.arr.pShadow x.arr.pAct else x.arr.pAct } })) ∧
    (∀ (didx : BitVec 13) (w : Nat) (fmt : Fmt) (rm : RMode),
      descOf x didx 3 = .ok w → fmtOfCode (bits w 120 4) = some fmt → rmodeOf (bits w 88 2) = some rm → fmtIsMx fmt = false →
      let q := drainQ fmt (bits w 90 8)
      let d : DrainOp := {
        t := x.cyc, fmt := fmt, acc0 := bits w 113 7, nacc := bits w 105 8, col0 := bits w 98 7, ncol := bits w 90 8
        rmode := rm, stream := scGet x (bits w 84 4), clr := bitAt w 83, dbase := bits w 61 22
        ebase := bits w 13 48, q := q, next := 0 }
      (∀ o ∈ x.arr.drains, o.t + o.q * o.nacc ≤ x.cyc) →
      (∀ c ∈ drainCycles x.cyc d.nacc q, c ∉ x.vclaim) →
      exec (.drain t didx) s = .next (setTile s t.val (drainRead { x with
        vclaim := drainCycles x.cyc d.nacc q ++ x.vclaim
        arr := { x.arr with drains := x.arr.drains ++ [d] } } d))) ∧
    (∀ first last : Fin 128, exec (.aclr t first last) s = .next (setTile s t.val { x with arr := { x.arr with
      acc := x.arr.acc.filter (fun p => decide (p.1 % 128 < first.val) || decide (last.val < p.1 % 128)) } })) ∧
    (∀ (hsplit : Bool) (pjoin : Fin 4), (∀ o ∈ x.arr.streams, o.t + 1 + streamSpan o < x.cyc) →
      exec (.mode t hsplit pjoin) s = .next (setTile s t.val { x with
        arr := { x.arr with modeAt := some x.cyc }
        due := x.due ++ [(x.cyc + 6, .mode hsplit pjoin.val)] }))

/-- ACLR clears accumulators FIRST to LAST of every column and leaves every other long accumulator as it was (R90). -/
def Obligations.AclrClearsExactlyItsRange : Prop :=
  ∀ (a : ArrState) (first last col n : Nat), n < 128 →
    accGet (clearAccs a first last) col n = (if first ≤ n ∧ n ≤ last then laccZero else accGet a col n)

/-- Lane i of a vector register as an exact value. -/
def Sys2Proof.laneOf (x : Tile) (n i : Nat) : XVal := (readF32 ((vLanes x n).getD i 0)).1

/-- The subnormal lanes i of a list of vector registers, flushed on reading (R44). -/
def Sys2Proof.laneFlush (x : Tile) (l : List (Fin 16)) (i : Nat) : Nat :=
  l.foldl (fun a n => a + (readF32 ((vLanes x n.val).getD i 0)).2) 0

/-- The tile after a register form of latency L: its claims, its result in every lane of VD, its SINC, its counts (R103, R108, R119). -/
def Sys2Proof.withLanes (x : Tile) (f : VReg) (L : Nat) (lanes : List Nat) (ev : NumEv) : Tile :=
  addEv (addSinc (addDue (addClaims x ((x.cyc + L, .v f.vd.val) :: sincClaims x f.ssel.val f.sinc)) (x.cyc + L)
    (.v f.vd.val (lanesOf (lanes.map (BitVec.ofNat 32))))) f.ssel.val f.sinc) (x.cyc + L) ev

/-- The register results that a register form of latency L needs are free. -/
def Sys2Proof.lanesFree (x : Tile) (f : VReg) (L : Nat) : Bool :=
  !claimed x (x.cyc + L) (.v f.vd.val) && !(f.sinc && claimed x (x.cyc + 1) (.sc f.ssel.val))

/-- One lane of an exact operation rounded once under a mode, with its counts (R44, R57 to R60, R120). -/
def Sys2Proof.roundedLane (x : Tile) (f : VReg) (rm : RMode) (uses : List (Fin 16)) (v : XVal × Nat) (i : Nat) : Nat × NumEv :=
  let w := writeLong .fp32 rm (tileDraw x f.ssel.val i) v.1
  (w.1, evAdd w.2 ⟨0, laneFlush x uses i, v.2⟩)

/-- The lane-wise register forms VMOV, VADD, VSUB, VMUL, VFMA, VMAX and VMIN complete on a tile that issues and whose result registers
are free: each lane of VD is the exact result rounded once, after the table's latency, with its counts in that cycle (R119, R120). -/
def Obligations.VectorLanewiseResults : Prop :=
  ∀ (s : State) (t : Fin 2048) (f : VReg), issuesAt s t.val = true →
    let x := tileNow (tileOf s t.val)
    let A := laneOf x f.va.val
    let B := laneOf x f.vb.val
    let C := laneOf x f.vc.val
    let done (L : Nat) (r : List (Nat × NumEv)) :=
      Host.Outcome.next (setTile s t.val (withLanes x f L (r.map (·.1)) (r.foldl (fun e y => evAdd e y.2) evNone)))
    (lanesFree x f 1 = true →
      exec (.vmov t f) s = .next (setTile s t.val (withLanes x f 1 ((vLanes x f.va.val).map BitVec.toNat) evNone))) ∧
    (lanesFree x f 4 = true →
      (∀ rm, rmodeOf f.rmode.val = some rm →
        exec (.vadd t f) s = done 4 ((List.range 64).map (fun i => roundedLane x f rm [f.va, f.vb] (xAdd (A i) (B i)) i)) ∧
        exec (.vsub t f) s = done 4 ((List.range 64).map (fun i => roundedLane x f rm [f.va, f.vb] (xAdd (A i) (xNeg (B i))) i)) ∧
        exec (.vmul t f) s = done 4 ((List.range 64).map (fun i => roundedLane x f rm [f.va, f.vb] (xMul (A i) (B i)) i)) ∧
        exec (.vfma t f) s = done 4 ((List.range 64).map (fun i => roundedLane x f rm [f.va, f.vb, f.vc] (opFma (A i) (B i) (C i)) i))) ∧
      exec (.vmax t f) s = .next (setTile s t.val (withLanes x f 4 ((List.range 64).map (fun i =>
        pickLane true ((vLanes x f.va.val).getD i 0) ((vLanes x f.vb.val).getD i 0))) evNone)) ∧
      exec (.vmin t f) s = .next (setTile s t.val (withLanes x f 4 ((List.range 64).map (fun i =>
        pickLane false ((vLanes x f.va.val).getD i 0) ((vLanes x f.vb.val).getD i 0))) evNone)))

/-- VBCAST, VRSUM, VRMAX and the functions complete likewise: one value in every lane (a NaN broadcast is the canonical one), or the fixed function of each lane, after the
table's latency; a function of a RMODE other than 0 does not issue (R119 to R121). -/
def Obligations.VectorReductionsAndFunctions : Prop :=
  ∀ (s : State) (t : Fin 2048) (f : VReg), issuesAt s t.val = true →
    let x := tileNow (tileOf s t.val)
    let lanes := vLanes x f.va.val
    let fn (g : Nat → Nat × NumEv) :=
      let r := lanes.map (fun w => ((g w.toNat).1, evAdd (g w.toNat).2 ⟨0, (readF32 w).2, 0⟩))
      Host.Outcome.next (setTile s t.val (withLanes x f 10 (r.map (·.1)) (r.foldl (fun e y => evAdd e y.2) evNone)))
    (lanesFree x f 1 = true →
      let w := scGet x f.va.val
      exec (.vbcast t f) s = .next (setTile s t.val (if (readF32 w).1 = .nan then
          withLanes x f 1 (List.replicate 64 (nanCode .fp32)) ⟨0, (readF32 w).2, 0⟩
        else if (readF32 w).2 = 0 then withLanes x f 1 (List.replicate 64 w.toNat) ⟨0, 0, 0⟩
        else withLanes x f 1 (List.replicate 64 (zeroCode .fp32 w.msb)) ⟨0, (readF32 w).2, 0⟩))) ∧
    (lanesFree x f 6 = true →
      exec (.vrmax t f) s = .next (setTile s t.val (withLanes x f 6 (List.replicate 64
        (lanes.foldl (fun a w => pickLane true (BitVec.ofNat 32 a) w) (lanes.getD 0 0).toNat)) evNone))) ∧
    (lanesFree x f 8 = true → ∀ rm, rmodeOf f.rmode.val = some rm →
      let v := sumLanes (lanes.map (fun w => (readF32 w).1))
      let w := writeLong .fp32 rm (tileDraw x f.ssel.val 0) v.1
      exec (.vrsum t f) s = .next (setTile s t.val (withLanes x f 8 (List.replicate 64 w.1)
        (evAdd w.2 ⟨0, lanes.foldl (fun n y => n + (readF32 y).2) 0, v.2⟩)))) ∧
    (lanesFree x f 10 = true → f.rmode = 0 →
      exec (.vexp2 t f) s = fn fnExp2 ∧ exec (.vlog2 t f) s = fn fnLog2 ∧ exec (.vrcp t f) s = fn fnRcp ∧ exec (.vrsq t f) s = fn fnRsq)

/-- The tile after a memory form: its claims, its vector port transfer in cycle c, and its increments (R107, R108, R118, R126). -/
def Sys2Proof.withPort (x : Tile) (f : VMem) (claims : List (Nat × RegName)) (c : Nat) (p : VPort) : Tile :=
  let y := addClaims x (claims ++ memClaims x f)
  memIncs { y with vclaim := c :: y.vclaim, vport := y.vport ++ [(c, p)] } f

/-- The memory forms complete on a tile that issues, whose result registers, address registers and port cycle are free and, for an
access that must be aligned, whose address is aligned: the port transfer is due in the table's cycle (R119, R122 to R126). -/
def Obligations.VectorMemoryForms : Prop :=
  ∀ (s : State) (t : Fin 2048) (f : VMem) (fmt : Fmt) (rm : RMode), issuesAt s t.val = true →
    fmtOfCode f.fmt.val = some fmt → rmodeOf f.rmode.val = some rm →
    let x := tileNow (tileOf s t.val)
    let a := (adGet x f.ade.val).addr.toNat
    let b := (adGet x f.ads.val).addr.toNat
    let ok (l : List (Nat × RegName)) := claimAll x (l ++ memClaims x f) = .ok (addClaims x (l ++ memClaims x f))
    (fmtIsMx fmt = false → a % 64 = 0 →
      (ok [(x.cyc + 3, .v f.v.val)] → x.cyc ∉ x.vclaim →
        exec (.vld t f) s = .next (setTile s t.val (withPort x f [(x.cyc + 3, .v f.v.val)] x.cyc (.load f.v.val fmt a)))) ∧
      (ok [] → x.cyc + 2 ∉ x.vclaim →
        let r := (vLanes x f.v.val).zipIdx.map (fun y =>
          let w := writeLong fmt rm (tileDraw x f.ssel.val y.2) (readF32 y.1).1
          (w.1, evAdd w.2 ⟨0, (readF32 y.1).2, 0⟩))
        exec (.vst t f) s = .next (setTile s t.val (addEv
          (withPort x f [] (x.cyc + 2) (.store a (r.flatMap (fun y => leBytes (fmtWidth fmt / 8) y.1))))
          (x.cyc + 2) (r.foldl (fun e y => evAdd e y.2) evNone))))) ∧
    (fmtIsMx fmt = true → a % 16 = 0 →
      (ok [(x.cyc + 4, .v f.v.val)] → x.cyc ∉ x.vclaim →
        exec (.vdqt t f) s = .next (setTile s t.val (withPort x f [(x.cyc + 4, .v f.v.val)] x.cyc (.dequant f.v.val fmt a b)))) ∧
      (ok [] → x.cyc + 3 ∉ x.vclaim →
        let l := (vLanes x f.v.val).map readF32
        let q (k : Nat) := quantBlock fmt rm (fun i => tileDraw x f.ssel.val (32 * k + i)) (((l.drop (32 * k)).take 32).map (·.1))
        exec (.vqnt t f) s = .next (setTile s t.val (addEv
          (withPort x f [] (x.cyc + 3) (.store2 a (packCodes fmt ((q 0).codes ++ (q 1).codes)) b
            [BitVec.ofNat 8 (q 0).scale, BitVec.ofNat 8 (q 1).scale]))
          (x.cyc + 3) (evAdd (evAdd (q 0).ev (q 1).ev) ⟨0, l.foldl (fun n y => n + y.2) 0, 0⟩))))) ∧
    (ok (if f.fin then [(x.cyc + 4, .sc f.v.val)] else []) → x.cyc ∉ x.vclaim →
      exec (.vscan t f) s = .next (setTile s t.val
        (withPort x f (if f.fin then [(x.cyc + 4, .sc f.v.val)] else []) x.cyc (.scan f.v.val fmt a b f.fin)))) ∧
    (ok [] →
      exec (.vdig t f) s = .next (setTile s t.val (memIncs (addDue (addClaims x (memClaims x f)) (x.cyc + 6)
        (.digAdd ((vLanes x f.v.val).zipIdx.foldl (fun acc y =>
          acc + rng x.digKey y.1 0 0 (64 * (scGet x f.ssel.val).toNat + y.2)) 0))) f)))

/-- A VLD or VST whose ADE is no multiple of 64, and a VQNT or VDQT whose ADE is no multiple of 16, is a program fault: the operation
changes nothing but the record of fault 0x09 and the stop it causes, after the cycle is counted (R122, R125, R131, R202). -/
def Obligations.MisalignedVectorAccessFaults : Prop :=
  ∀ (s : State) (t : Fin 2048) (f : VMem) (fmt : Fmt) (rm : RMode), issuesAt s t.val = true →
    fmtOfCode f.fmt.val = some fmt → rmodeOf f.rmode.val = some rm →
    let x := tileNow (tileOf s t.val)
    let a := (adGet x f.ade.val).addr.toNat
    let faulted := Host.Outcome.next (setTile s t.val (refusedBy s t.val x 0x09 2))
    (fmtIsMx fmt = false → a % 64 ≠ 0 → exec (.vld t f) s = faulted ∧ exec (.vst t f) s = faulted) ∧
    (fmtIsMx fmt = true → a % 16 ≠ 0 → exec (.vqnt t f) s = faulted ∧ exec (.vdqt t f) s = faulted)

/-- A word that PUT sends from byte address a of the scratchpad in outbound cycle c, the first with the header (R127, R160). -/
def Sys2Proof.putWord (c a : Nat) (h : InHdr) (i : Nat) : Nat × OutOp :=
  (c + 1 + i, .word ((a + 64 * i) % 2 ^ 22) (if i = 0 then some h else none))

/-- The move operations complete on a tile that issues and meets no tag that blocks them: PUT and MREQ take their outbound cycles, an
MREQ takes one of 32 places and changes its slot's tag at t + 1, WOPEN, WCLOSE, TFULL and TEMPTY take effect at t + 1, PLD reads at
t + 1 (R127 to R130, R146, R152, R214, R216, R217, R221). -/
def Obligations.MoveOperationsIssue : Prop :=
  ∀ (s : State) (t : Fin 2048) (ad : Fin 32) (didx : BitVec 13) (pinc : Bool), issuesAt s t.val = true →
    let x := tileNow (tileOf s t.val)
    let a := (adGet x ad.val).addr.toNat
    let claims := if pinc then [(x.cyc + 1, RegName.ad ad.val)] else []
    (∀ w, descOf x didx 4 = .ok w → (pinc = true → claimed x (x.cyc + 1) (.ad ad.val) = false) →
      (∀ i, i ≤ bits w 81 6 → x.cyc + 1 + i ∉ x.oclaim) →
      let n := bits w 81 6 + 1
      let h : InHdr := ⟨bits w 119 5, bits w 113 6, bits w 109 4, bits w 87 22, n, .tile, t.val⟩
      exec (.put t ad didx pinc) s = .next (setTile s t.val (addPinc { addClaims x claims with
        oclaim := (List.range n).map (fun i => x.cyc + 1 + i) ++ x.oclaim
        outq := x.outq ++ (List.range n).map (putWord x.cyc a h) } ad.val pinc))) ∧
    (∀ w, descOf x didx 5 = .ok w → (pinc = true → claimed x (x.cyc + 1) (.ad ad.val) = false) →
      x.cyc + 1 ∉ x.oclaim → a % 64 = 0 → a % 4096 + 64 * (bits w 115 6 + 1) ≤ 4096 → x.mreqOut < 32 →
      movBlocked x (.mreq ad didx pinc) = none →
      let y := { addClaims x claims with
        oclaim := (x.cyc + 1) :: x.oclaim
        outq := x.outq ++ [(x.cyc + 1, .request ⟨BitVec.ofNat 128 w, t.val, a, x.cyc⟩)]
        mreqOut := x.mreqOut + 1
        loose := { x.loose with tile := t.val } }
      let z := match mreqDir (bits w 121 3) with
        | some true => { y with mreqIn := x.mreqIn ++ [a / 4096], due := x.due ++ [(x.cyc + 1, .mtag (a / 4096) .empty)] }
        | some false => { y with loose := { x.loose with tile := t.val, sent := x.loose.sent ++ [a / 4096] }, due := x.due ++ [(x.cyc + 1, .mtag (a / 4096) .lent)] }
        | none => y
      exec (.mreq t ad didx pinc) s = .next (setTile s t.val (addPinc z ad.val pinc))) ∧
    (∀ (win : Fin 16) (w : Nat), descOf x didx 6 = .ok w → movBlocked x (.wopen win didx) = none →
      exec (.wopen t win didx) s = .next (setTile s t.val { x with due := x.due ++ [(x.cyc + 1, .wopen win.val (decWindow w))] })) ∧
    (∀ win : Fin 16,
      exec (.wclose t win) s = .next (setTile s t.val { x with due := x.due ++ [(x.cyc + 1, .wclose win.val)] })) ∧
    (∀ slot : Fin 1024, (tagOf x slot.val).st ≠ .lent →
      exec (.tfull t slot) s = .next (setTile s t.val { x with due := x.due ++ [(x.cyc + 1, .tag slot.val .full)] }) ∧
      exec (.tempty t slot) s = .next (setTile s t.val { x with due := x.due ++ [(x.cyc + 1, .tag slot.val .empty)] })) ∧
    (∀ (idx : BitVec 12) (kind : Bool), idx.toNat ≤ 2047 → (pinc = true → claimed x (x.cyc + 1) (.ad ad.val) = false) →
      x.cyc + 1 ∉ x.oclaim → (∀ p ∈ soonEntries x, p < 4 * idx.toNat ∨ 4 * idx.toNat + 4 ≤ p) →
      exec (.pld t ad idx kind pinc) s = .next (setTile s t.val (addPinc { addClaims x claims with
        oclaim := (x.cyc + 1) :: x.oclaim
        outq := x.outq ++ [(x.cyc + 1, .pld a (4 * idx.toNat) kind (x.pc % 8192))] } ad.val pinc)))

/-- A move operation that names a LENT slot holds the tile for one physical cycle under the tag cause and issues nothing
(R104, R145, R198, R232). -/
def Obligations.LentSlotHoldsTheTile : Prop :=
  ∀ (s : State) (t : Fin 2048) (slot : Fin 1024), issuesAt s t.val = true →
    let x := tileNow (tileOf s t.val)
    (tagOf x slot.val).st = .lent →
    ∃ n, exec (.tempty t slot) s = .next n ∧
      (let y := tileOf n t.val
       y.held = true ∧ y.holdOn = true ∧ y.holdCause = 2 ∧ y.holdSlot = slot.val ∧ y.hold = x.hold + 1 ∧
       y.hTag = satAdd32 x.hTag 1 ∧ y.cyc = x.cyc ∧ y.tags = x.tags ∧ y.due = x.due)

/-- The tile of a physical cycle as the cycle finds it: the environment's upset bits in, everything due applied (R96, R103, R147). -/
def Sys2Proof.tileAt (x : Tile) (up : CycleEnv) : Tile :=
  settleArray (settleSoon (settleDue { x with
    inUsed := false
    inTried := false
    banks := 0
    arr := match up.weight with | some (c, r) => { x.arr with wBad := setInsert x.arr.wBad (cellKey c.val r.val) } | none => x.arr
    badPar := match up.upset with | some (w, m) => smSet 0 x.badPar w m | none => x.badPar }))

/-- A running tile whose inputs of the cycle are present completes exactly one logical cycle; one whose beat gate is closed, or whose
mesh word is late, or that serves the losers of a bank conflict, holds for one physical cycle under that cause and completes none
(R104, R142, R194, R196, R198, R202). -/
def Obligations.LogicalCycleCompletesOrHolds : Prop :=
  ∀ (s : State) (t : Fin 2048) (up : CycleEnv),
    let x := tileOf s t.val
    let env := envOf s t.val up
    let y := tileAt x up
    let i := tileIssue t.val y
    x.st = .run → x.oscOn = true → (x.cyc = 2 ^ 31 → x.doneIss = true) →
    (x.confQ ≠ [] → ∃ n, exec (.logicalCycle t up) s = .next n ∧ (tileOf n t.val).cyc = x.cyc ∧ (tileOf n t.val).logical = x.logical ∧
      (tileOf n t.val).hold = x.hold + 1 ∧ (tileOf n t.val).hConf = satAdd32 x.hConf 1 ∧ (tileOf n t.val).confQ = x.confQ.drop 1) ∧
    (x.confQ = [] →
    (beatHeld y env.partners = false → wordLate y env.partners = false →
      accessBlocked y (cycleTransfers i.tile).flatten = none → movBlocked y i.mov = none →
      (isMreq i.mov = true → y.mreqOut ≠ 32) → localBlocked t.val y = false →
      ∃ n, exec (.logicalCycle t up) s = .next n ∧ (tileOf n t.val).cyc = x.cyc + 1 ∧ (tileOf n t.val).logical = x.logical + 1 ∧
        (tileOf n t.val).held = false) ∧
    (beatHeld y env.partners = true →
      exec (.logicalCycle t up) s = .next (setTile s t.val (holdPlain y env.limit .beat))) ∧
    (beatHeld y env.partners = false → wordLate y env.partners = true →
      exec (.logicalCycle t up) s = .next (setTile s t.val (holdPlain y env.limit .late))))

/-- PHYS = LOGICAL + HOLD holds after every physical cycle of a tile whose clock counters run while it runs, if it held before; so it
does after an operation of a slot, one that stops the tile or holds it included (R202). -/
def Obligations.ClockCountersBalance : Prop :=
  ∀ (s n : State) (t : Fin 2048) (c : Instr),
    ((∃ up, c = .logicalCycle t up) ∨ (∃ d a imm, c = .saddi t d a imm) ∨ (∃ f, c = .vst t f) ∨ (∃ slot, c = .tempty t slot) ∨
      (∃ ad didx pinc, c = .mreq t ad didx pinc)) →
    exec c s = .next n →
    ((tileOf s t.val).st = .run → (tileOf s t.val).clkOn = true) →
    (tileOf s t.val).phys = (tileOf s t.val).logical + (tileOf s t.val).hold →
    (tileOf n t.val).phys = (tileOf n t.val).logical + (tileOf n t.val).hold

/-- BEAT_TOKEN, CYCLE_LIMIT, TAG_STALL and FLIT_RECEIVE: the oldest token opens its partner's gate, the token of beat −1 starts the
partner's record anew, and an idle tile takes no other token; the cycle limit and the tag stall stop or mute the tile and tell Kiln; a
flit joins its input, and a parity error is recorded and stops a running tile (R112, R148, R161, R162, R194, R199, R200). -/
def Obligations.TileEventsAct : Prop :=
  ∀ (s : State) (t : Fin 2048) (d : Dir),
    let x := tileOf s t.val
    let n := dirNum d
    (∀ k ks, smGet [] x.tokWire n = k :: ks →
      exec (.beatToken t d) s = .next (setTile s t.val (
        if k.beat1 = 0 ∧ k.halted = false then { x with
          tokWire := smSet [] x.tokWire n ks
          tokLast := smSet 0 x.tokLast n 1
          tokHalt := if x.tokHalt.testBit n then x.tokHalt - 2 ^ n else x.tokHalt }
        else if x.st = .idle then { x with tokWire := smSet [] x.tokWire n ks }
        else { x with
          tokWire := smSet [] x.tokWire n ks
          tokLast := smSet 0 x.tokLast n (max (smGet 0 x.tokLast n) (k.beat1 + 1))
          tokHalt := if k.halted && !x.tokHalt.testBit n then x.tokHalt + 2 ^ n else x.tokHalt }))) ∧
    (x.st = .run → x.cyc = 2 ^ 31 → x.doneIss = false →
      exec (.cycleLimit t) s = .next (setTile s t.val { x with
        st := .fault, clkOn := false, fValid := true, fCode := 0x11, fSlot := 0, fPc := 0, notices := x.notices ++ [.fault 0x11 0 0] })) ∧
    (2 ^ 24 ≤ x.tagHold ∨ 2 ^ 24 ≤ x.inHold → x.holdStall = false →
      exec (.tagStall t) s = .next (setTile s t.val { x with holdStall := true, noTok := true, notices := x.notices ++ [.stall] })) ∧
    (∀ (lg : Fin 66) f fs, smGet [] x.wire n = f :: fs →
      let y := { x with wire := smSet [] x.wire n fs, inbuf := smSet [] x.inbuf n (smGet [] x.inbuf n ++ [f]) }
      exec (.flitReceive t d ⟨0, lg⟩) s = .next (setTile s t.val y) ∧
      (∀ bad : Fin 16, bad ≠ 0 → exec (.flitReceive t d ⟨bad, lg⟩) s = .next (setTile s t.val { y with
        mperrOn := true
        mperrPort := if x.mperrOn then x.mperrPort else n
        mperrCnt := min (x.mperrCnt + 1) 0xFFFF
        stopNext := x.st == .run
        notices := x.notices ++ [.meshParity n lg.val] })))

/-- START begins a step on an idle tile: PC at the entry, RUN, every CLK_ counter 0, the scalar, address and vector registers as they
were, and the token of beat −1 under way to every partner; other tiles are unchanged. START of a tile that is not idle, or whose
partition is off, changes nothing (R105, R134, R183, R199, R202). -/
def Sys2Proof.StartBeginsAStep : Prop :=
  ∀ (s : State) (t : Fin 2048),
    let x := tileOf s t.val
    (x.st ≠ .idle ∨ tilePowered s t.val = false → exec (.start t) s = .next s) ∧
    (x.st = .idle → tilePowered s t.val = true → ∃ n, exec (.start t) s = .next n ∧
      (let y := tileOf n t.val
       y.st = .run ∧ y.pc = x.entry ∧ y.cyc = 0 ∧ y.phys = 0 ∧ y.logical = 0 ∧ y.hold = 0 ∧ y.hBeat = 0 ∧ y.hLate = 0 ∧
       y.hTag = 0 ∧ y.hConf = 0 ∧ y.sDroop = 0 ∧ y.sLimit = 0 ∧ y.sc = x.sc ∧ y.ad = x.ad ∧ y.v = x.v ∧ y.spad = x.spad) ∧
      (∀ (d : Dir) (u : Nat), partnerOf s t.val d = some u →
        tileOf n u = (let y := tileOf s u
          { y with tokWire := smSet [] y.tokWire (dirNum (dirOpp d)) (smGet [] y.tokWire (dirNum (dirOpp d)) ++ [⟨0, false⟩]) })) ∧
      (∀ u, u ≠ t.val → (∀ d, partnerOf s t.val d ≠ some u) → tileOf n u = tileOf s u) ∧
      n = { s with tiles := n.tiles })

/-- ABORT stops a running tile as in FAULT and leaves VALID and CODE; HALT of a tile is kept until its beat ends, and HALT of one whose beat
gate is closed halts it at once, with the HALTED token under way to every partner; a tile of a partition that is off is not reached
(R134, R183, R200). -/
def Sys2Proof.AbortAndHaltStopATile : Prop :=
  ∀ (s : State) (t : Fin 2048),
    let x := tileOf s t.val
    (tilePowered s t.val = false → exec (.abort t) s = .next s ∧ exec (.halt t) s = .next s) ∧
    (x.st = .run → tilePowered s t.val = true → exec (.abort t) s = .next (setTile s t.val { x with
      st := .fault, clkOn := false, held := false, holdOn := false, tagHold := 0, confQ := [] })) ∧
    (x.st = .run → tilePowered s t.val = true → beatHeld x (partnerDirs s t.val) = false ∨ x.confQ ≠ [] →
      exec (.halt t) s = .next (setTile s t.val { x with haltReq := true })) ∧
    (x.st = .run → tilePowered s t.val = true → beatHeld x (partnerDirs s t.val) = true → x.confQ = [] → ∃ n, exec (.halt t) s = .next n ∧
      (let y := tileOf n t.val
       y.st = .idle ∧ y.halted = true ∧ y.beat = x.cyc / 32 - 1 ∧ y.clkOn = false ∧ y.sc = x.sc ∧ y.spad = x.spad) ∧
      (∀ (d : Dir) (u : Nat), partnerOf s t.val d = some u →
        smGet [] (tileOf n u).tokWire (dirNum (dirOpp d)) =
          smGet [] (tileOf s u).tokWire (dirNum (dirOpp d)) ++ [⟨x.cyc / 32, true⟩]) ∧
      n = { s with tiles := n.tiles })

/-- Kiln's control messages complete: a register write acts on a tile of a powered partition by the register's access code, with BCAST on
every tile that the message passes, a tag write sets the tag, a register read puts the value on the column and latches the count's high
half, and REG_DATA and NOTIFY take the oldest value and notice, a notice first; a tile of a partition that is off is not reached. Each
crosses the edge port of the tile's column, EN for rows 0 to 15, ES for rows 16 to 31, with the fields of R170 in its 128 bits (R133,
R134, R170 to R172, R183, R203). -/
def Obligations.ControlMessagesReachTheTile : Prop :=
  ∀ (s : State) (t : Fin 2048) (v : Word),
    let x := tileOf s t.val
    let f := drawFree s
    let wrote (off : Nat) := crossCtl s t.val (ctlMsg .regWrite true t.val false (regPayload off v.toNat))
    (∀ (k : CtlType) (inward bcast : Bool) (p : Nat) (m : BitVec 128), ctlMsg k inward t.val bcast p = m →
      m.extractLsb' 120 8 = BitVec.ofNat 8 (ctlCode k) ∧ m.getLsbD 119 = inward ∧ m.extractLsb' 114 5 = BitVec.ofNat 5 (t.val / 64) ∧
      m.extractLsb' 108 6 = BitVec.ofNat 6 (t.val % 64) ∧ m.getLsbD 107 = bcast ∧ m.extractLsb' 0 96 = BitVec.ofNat 96 p ∧
      smGet 0 (crossCtl s t.val m).ring.ctl (if t.val / 64 < 16 then t.val % 64 else 64 + t.val % 64) = m) ∧
    (tilePowered s t.val = true →
      (∀ (slot : Fin 1024) (st : TagSt), exec (.regWrite t (.tag slot st) ⟨v, false⟩) s = .next
        (setTile (crossCtl f.2 t.val (ctlMsg .regWrite true t.val false f.1)) t.val (setTag x slot.val ⟨st, 0⟩))) ∧
      exec (.regWrite t (.reg 0x008) ⟨v, false⟩) s = .next (setTile (wrote 0x008) t.val { x with entry := (v.extractLsb' 0 13).toNat }) ∧
      exec (.regWrite t (.reg 0x010) ⟨v, false⟩) s = .next (setTile (wrote 0x010) t.val { x with step := v }) ∧
      exec (.regWrite t (.reg 0x014) ⟨v, false⟩) s = .next (setTile (wrote 0x014) t.val { x with mb := v.extractLsb' 0 16 }) ∧
      (v.msb = true →
        exec (.regWrite t (.reg 0x004) ⟨v, false⟩) s = .next (setTile (wrote 0x004) t.val { x with fValid := false }) ∧
        exec (.regWrite t (.reg 0x114) ⟨v, false⟩) s = .next (setTile (wrote 0x114) t.val { x with perrOn := false }) ∧
        exec (.regWrite t (.reg 0x150) ⟨v, false⟩) s = .next (setTile (wrote 0x150) t.val { x with nackOn := false, nackCnt := 0 })) ∧
      (∃ n, exec (.regWrite t (.reg 0x010) ⟨v, true⟩) s = .next n ∧ ∀ u : Fin 2048,
        tileOf n u.val = (if u.val % 64 = t.val % 64 ∧
            (if t.val / 64 < 16 then u.val / 64 ≤ t.val / 64 else t.val / 64 ≤ u.val / 64)
          then { tileOf s u.val with step := v } else tileOf s u.val)) ∧
      (∀ off : Fin 1024, exec (.regRead t off) s = .next
        (setTile (crossCtl s t.val (ctlMsg .regRead true t.val false (regPayload off.val 0))) t.val { tileLatch x off.val with
          regReads := x.regReads ++ [(off.val, tileRegAt s t.val off.val)] }))) ∧
    (tilePowered s t.val = false → ∀ (tgt : RegTgt) (bcast : Bool) (off : Fin 1024),
      exec (.regWrite t tgt ⟨v, bcast⟩) s = .next s ∧ exec (.regRead t off) s = .next s) ∧
    (x.notices ≠ [] → exec (.regData t) s = .next s) ∧
    (x.notices = [] → ∀ r rs, x.regReads = r :: rs → exec (.regData t) s =
      .next { setTile (crossCtl s t.val (ctlMsg .regData false t.val false (regPayload r.1 r.2.toNat))) t.val { x with regReads := rs } with
        kiln := { s.kiln with regIn := some (t.val, r.1, r.2) } }) ∧
    (∀ m ms, x.notices = m :: ms → s.kiln.stat ≠ 2 → exec (.notify t) s = .next
      (kilnNotice (setTile (crossCtl f.2 t.val (ctlMsg .notify false t.val false (noticePayload m f.1))) t.val { x with notices := ms })
        t.val m)) ∧
    (s.kiln.stat = 2 → exec (.notify t) s = .next s)

/-- The inbound path takes a write's header and checks its window once: an accepted write starts at the address of its check; a refused
one is counted under its cause, and a tile that sent it gets the negative completion of that status (R153 to R155, R428). -/
def Sys2Proof.InboundWriteIsCheckedOnce : Prop :=
  ∀ (s : State) (t : Fin 2048) (d : Nat) (h : InHdr) (data : List Byte) (ms : List MWord),
    let x := tileOf s t.val
    let w := winOf x h.win
    let taken (refused : Bool) : Tile := { x with
      inw := some ⟨h.nwords, 64 * (w.basew + h.offset / 64), w.tagged && !refused, w.fillw, d, refused, h.src, h.sender⟩
      dq := smSet [] x.dq d (.later data :: (smGet [] x.dq d).drop 1) }
    x.inw = none → firstQueue x isFirst = some (d, .first h data, ms) →
    (tileResetting s t.val = false →
      (windowCheck x h = .ok → exec (.inboundWrite t) s = .next (setTile s t.val (taken false))) ∧
      (h.src = .tile →
        (let told (y : State) (c : Nat) := updTile y h.sender (fun u => { u with nackIn := u.nackIn ++ [(c, h.win)] })
         (windowCheck x h = .closed → exec (.inboundWrite t) s =
           .next (told (setTile s t.val { taken true with winMiss := satAdd32 x.winMiss 1 }) 0x21)) ∧
         (windowCheck x h = .denied → exec (.inboundWrite t) s =
           .next (told (setTile s t.val { taken true with winDeny := satAdd32 x.winDeny 1 }) 0x23)) ∧
         (windowCheck x h = .range → exec (.inboundWrite t) s =
           .next (told (setTile s t.val { taken true with winRange := satAdd32 x.winRange 1 }) 0x24))))) ∧
    (tileResetting s t.val = true → h.src = .tile →
      exec (.inboundWrite t) s = .next (updTile (setTile s t.val (taken true)) h.sender (fun u =>
        { u with nackIn := u.nackIn ++ [(0x22, h.win)] })))

/-- The window check of a header is R153's: closed, then denied by the source, then out of the window's words, then in a bank that the
mover port does not own; otherwise the write is accepted. -/
def Obligations.WindowCheckOrder : Prop :=
  ∀ (x : Tile) (h : InHdr),
    let w := winOf x h.win
    let first := w.basew + h.offset / 64
    let last := first + h.nwords - 1
    let denied := match h.src with
      | .tile => w.tile = false
      | .mover => w.mover = false
      | .cord k => w.cord = false ∨ (k ^^^ w.cordNo) &&& w.cmask ≠ 0
    let owned := ∀ b ∈ banksOf (64 * first) (64 * (last + 1 - first)), bankOwner x b = 3
    (w.isOpen = false → windowCheck x h = .closed) ∧
    (w.isOpen = true → denied → windowCheck x h = .denied) ∧
    (w.isOpen = true → ¬ denied → w.lastw < last ∨ ¬ owned → windowCheck x h = .range) ∧
    (w.isOpen = true → ¬ denied → last ≤ w.lastw → owned → windowCheck x h = .ok)

/-- One word of an accepted write lands at its address with fresh parity unless a tag, a bank conflict or a pull read keeps it waiting, and is
tried once in a physical cycle; of a refused write, or of an absorbed one that a tag would keep waiting, it is drained; a conflict is
counted and lands nothing; only a wait on a tag counts towards the stall; NEGATIVE_COMPLETION records the oldest refusal of the tile's own writes
(R142, R145, R148, R154, R155, R157, R428). -/
def Sys2Proof.InboundWordLandsOrWaits : Prop :=
  ∀ (s : State) (t : Fin 2048),
    let x := tileOf s t.val
    (∀ (w : InWrite) (data : List Byte) (ms : List MWord), x.inw = some w → x.inTried = false → w.src = .tile →
      smGet [] x.dq w.port = .later data :: ms →
      let slot := w.addr / 4096 % 1024
      let missed := { x with inTried := true, inWait := false, inHold := 0 }
      let y := { missed with
        inUsed := true
        dq := smSet [] x.dq w.port ms
        inw := if w.left ≤ 1 then none else some { w with left := w.left - 1, addr := w.addr + 64 } }
      (w.refused = true ∨ (tileAbsorbs s t.val = true ∧ inboundOk x w.tagged slot = false) → x.inUsed = false →
        exec (.inboundWord t) s = .next (setTile s t.val y)) ∧
      (w.refused = true ∨ inboundOk x w.tagged slot = true → x.inUsed = true →
        exec (.inboundWord t) s = .next (setTile s t.val missed)) ∧
      (w.refused = false → tileAbsorbs s t.val = false → inboundOk x w.tagged slot = false → exec (.inboundWord t) s =
        .next (setTile s t.val { x with inTried := true, inWait := true, inSlot := slot, inHold := x.inHold + 1 })) ∧
      (w.refused = false → x.inUsed = false → inboundOk x w.tagged slot = true →
        (inboundConflict x w.addr = true → exec (.inboundWord t) s =
          .next (setTile s t.val { missed with conflict := satAdd32 x.conflict 1 })) ∧
        (inboundConflict x w.addr = false →
          let z := spadWrite y (w.addr % 2 ^ 22) data
          exec (.inboundWord t) s = .next (setTile s t.val (if w.tagged then countFill z slot w.fillw else z))))) ∧
    (∀ st win rest, x.nackIn = (st, win) :: rest → exec (.negativeCompletion t) s = .next (setTile s t.val { x with
      nackIn := rest
      nackOn := true
      nackSt := st
      nackWin := win
      nackCnt := min (x.nackCnt + 1) 0xFF
      notices := x.notices ++ [.nack st] }))

/-- A pull read that nothing keeps waiting hands its word to the oldest transfer that needs one there and leaves the tile's scratchpad as
it was; a delivery word for the tile's own MREQ lands at its place, and the last one fills the slot and retires the MREQ
(R137, R146, R156, R221, R481). -/
def Obligations.PullsAndDeliveriesProceed : Prop :=
  ∀ (s : State) (t : Fin 2048),
    let x := tileOf s t.val
    (∀ p : PullXfer, s.ring.pulls.find? (fun q => (pullAt q).1 == t.val && decide (q.got.length < q.need) && !q.gone) = some p →
      x.inUsed = false → wordReady x = false → inboundConflict x (pullAt p).2 = false →
      smGet 0 x.badPar ((pullAt p).2 / 64 % 65536) = 0 → p.got.length + 1 < p.need →
      exec (.pullRead t) s = .next { setTile s t.val { x with inUsed := true } with ring := { s.ring with
        pulls := s.ring.pulls.map (fun z => if z.id = p.id then { p with got := p.got ++ [spadRead x (pullAt p).2 64] } else z) } }) ∧
    (∀ (d a w : Nat) (last : Bool) (u : Nat) (data : List Byte) (ms : List MWord),
      firstQueue x isDelivery = some (d, .delivery a w last u data, ms) → x.inUsed = false → inboundConflict x (a + 64 * w) = false →
      let y := spadWrite { x with dq := smSet [] x.dq d ms, inUsed := true } ((a + 64 * w) % 2 ^ 22) data
      exec (.mreqDeliveryWord t) s = .next (setTile s t.val (
        if last then { y with
          soon := y.soon ++ [(a / 4096, .filled)]
          mreqOut := y.mreqOut - 1
          mreqIn := y.mreqIn.erase (a / 4096)
          loose := { y.loose with
            slots := if (y.mreqIn.erase (a / 4096)).contains (a / 4096) || y.loose.sent.contains (a / 4096) then y.loose.slots
              else y.loose.slots.filter (· != a / 4096) } }
        else y)))

/-- The descriptor at a place of a mover's queue starts where it is of the row's operation and no older descriptor of its tile touches
its memory (R219); a GET or CGET delivers to the slot, a GETW or CPUT writes a window, a PUTM, CPUT and CORD pull the slot's words
first, a MIGRATE takes a free frame and marks its page, in the mover's turn among the Tier Map updates of the cycle, and lookups of the
cycle still see the map as it was (R175, R183, R211, R212, R217, R222, R278 to R281). What is refused is stated apart. -/
def Sys2Proof.MoversStartTheirOperations : Prop :=
  ∀ (s : State) (m : Fin 64) (pos : Nat) (d : MDesc) (enter : Nat),
    let s1 := setMover s m.val { moverOf s m.val with queue := (moverOf s m.val).queue.eraseIdx pos }
    let va := dVa d
    let n := dWords d
    let pulled (src addr bound : Nat) : State := { s1 with ring := { s1.ring with
      nextId := s1.ring.nextId + 1
      pulls := s1.ring.pulls ++ [⟨s1.ring.nextId + 1, m.val, dOp d, d, src, addr, n, [], enter, bound, 0, false⟩] } }
    (∀ tier key, moverPick s m.val pos 0 = some (d, enter) →
      translateRange (seenMem s.mem) va (64 * n) (tileParts s d.tile) false = .ok tier key →
      tilePowered s1 d.tile = true → edgeNames s1 d.tile = true →
      exec (.get m pos) s = .next (ringAdd s1 d.tile (fun _ => deliveryWords d (cut64 (vaRead (seenMem s.mem) va (64 * n)) n))
        (.deliver m.val 0 d enter (readBound 0 d tier)))) ∧
    (∀ tier key, moverPick s m.val pos 2 = some (d, enter) →
      translateRange (seenMem s.mem) va (64 * n) (tileParts s d.tile) false = .ok tier key →
      targetRefusal s1 (64 * (getwHdr d).trow + (getwHdr d).tcol) = none →
      exec (.getw m pos) s = .next (ringAdd s1 (64 * (getwHdr d).trow + (getwHdr d).tcol)
        (fun id => writeWords { getwHdr d with sender := id } (cut64 (vaRead (seenMem s.mem) va (64 * n)) n))
        (.mwrite m.val 2 d [] enter (readBound 2 d tier)))) ∧
    (∀ tier key, moverPick s m.val pos 1 = some (d, enter) →
      translateRange (seenMem s.mem) va (64 * n) (tileParts s d.tile) true = .ok tier key →
      exec (.putm m pos) s = .next (pulled d.tile d.addr (moverBound 1 n false))) ∧
    (moverPick s m.val pos 3 = some (d, enter) →
      exec (.cget m pos) s = .next (pulled (dMember d 0).1 (dMember d 0).2 (moverBound 3 n false))) ∧
    (moverPick s m.val pos 4 = some (d, enter) → cputRefusal s d = none →
      exec (.cput m pos) s = .next (pulled d.tile d.addr (moverBound 4 n false))) ∧
    (moverPick s m.val pos 6 = some (d, enter) → cordUsable s d = true →
      (dCop d = 0 → exec (.cordWrite m pos) s = .next (pulled d.tile d.addr 0)) ∧
      (dCop d = 1 → exec (.cordGather m pos) s = .next (pulled d.tile d.addr 0)) ∧
      (dCop d = 2 → exec (.cordContrib m pos) s = .next (pulled d.tile d.addr 0))) ∧
    (∀ tier key f fs, moverPick s m.val pos 5 = some (d, enter) → translate (seenMem s.mem) va (tileParts s d.tile) true = .ok tier key →
      (dTdst d = 1 → ddrFitted s = true) → teMoving (tmapGet s.mem (va / 2 ^ 18)) = false →
      dTdst d ≠ teTier (tmapGet s.mem (va / 2 ^ 18)) → freeQueue s.mem (dTdst d) = f :: fs →
      let e := tmapGet s.mem (va / 2 ^ 18)
      let s2 := if m.val + 1 < s1.mem.tmapBy then idleTick s1 else s1
      exec (.migrate m pos) s = .next { s2 with mem := { tmapSetBy (setFreeQueue s2.mem (dTdst d) fs) m.val (va / 2 ^ 18)
          (teMake (teWritable e) (tePart e) (teTier e) true (teFrame e)) with
        migr := s2.mem.migr ++ [⟨va / 2 ^ 18, teTier e, teFrame e, dTdst d, f, .mover m.val d enter⟩] } })

/-- A GET, GETW or PUTM whose address does not translate is refused with the translation's status: MOV_ERR and TMAP_FAULT record it with the
page that failed first, the slot and the MREQ count are given back, and the tile's step ends with that status (R211, R218, R221). -/
def Sys2Proof.UntranslatedTransferIsRefused : Prop :=
  ∀ (s : State) (m : Fin 64) (pos : Nat) (d : MDesc) (enter st : Nat),
    let s1 := setMover s m.val { moverOf s m.val with queue := (moverOf s m.val).queue.eraseIdx pos }
    let refused (op : Nat) : State :=
      let s2 := setMover s1 m.val (movError (moverOf s1 m.val) st op d.tile)
      let page := match translate (seenMem s.mem) (dVa d) (tileParts s d.tile) (op == 1) with
        | .bad _ => dVa d / 2 ^ 18
        | _ => (dVa d + (64 * dWords d - 1)) / 2 ^ 18
      let s3 := { s2 with mem := tmapFault s2.mem page st m.val ((partOfTile s1 d.tile).getD 0) }
      failTileStep (updTile s3 d.tile (fun t => slotEnd t op (dSlot d) true)) d.tile st
    st = 0x30 ∨ st = 0x31 ∨ st = 0x32 →
    (moverPick s m.val pos 0 = some (d, enter) → translateRange (seenMem s.mem) (dVa d) (64 * dWords d) (tileParts s d.tile) false = .bad st →
      exec (.get m pos) s = .next (refused 0)) ∧
    (moverPick s m.val pos 2 = some (d, enter) → translateRange (seenMem s.mem) (dVa d) (64 * dWords d) (tileParts s d.tile) false = .bad st →
      exec (.getw m pos) s = .next (refused 2)) ∧
    (moverPick s m.val pos 1 = some (d, enter) → translateRange (seenMem s.mem) (dVa d) (64 * dWords d) (tileParts s d.tile) true = .bad st →
      exec (.putm m pos) s = .next (refused 1))

/-- A flit is built for a running tile of an edge port, one per logical cycle in rising order, in the port's turn of the IR cycle; each of
its quarters takes the next word of the first transfer ready for the target that the edge slot table names, or stays empty; the oldest
descriptor at an edge port joins the queue of its cluster's mover with the time of its arrival; the data of a PUTM is in memory at its
visibility point (R174, R175, R214, R220). -/
def Obligations.RingMovesWordsAndRequests : Prop :=
  ∀ (s : State) (e : Fin 188),
    (∀ cyc : Nat,
      let t := tileOfEdge e.val
      let x := tileOf s t
      x.st = .run → x.cyc ≤ cyc → (∀ f ∈ smGet [] x.wire (dirNum .x) ++ smGet [] x.inbuf (dirNum .x), f.cyc < cyc) →
      (∀ at_ p, s.ring.fillAt = some (at_, p) → at_ = s.clock → p ≤ e.val) →
      let s0 := { s with ring := { s.ring with fillAt := some (s.clock, e.val) } }
      let idx := cyc % (16 * (x.rper + 1))
      let a := fillQuarter s0 e.val cyc idx 0
      let b := fillQuarter a.1 e.val cyc idx 1
      let c := fillQuarter b.1 e.val cyc idx 2
      let d := fillQuarter c.1 e.val cyc idx 3
      exec (.edgeSlotFill e cyc) s = .next (setTile d.1 t { tileOf d.1 t with
        wire := smSet [] (tileOf d.1 t).wire (dirNum .x) (smGet [] (tileOf d.1 t).wire (dirNum .x) ++ [⟨cyc, a.2, b.2, c.2, d.2⟩]) })) ∧
    (∀ (q : Fin 4) (cyc idx : Nat),
      let entry := smGet 0 s.ring.tables ((512 * e.val + idx) * 4 + q.val)
      (e.val < 128 → q = 2 → cyc % 16 = 11 → fillQuarter s e.val cyc idx q.val = (s, none)) ∧
      (entry = 0 → fillQuarter s e.val cyc idx q.val = (s, none)) ∧
      (∀ t, (e.val < 128 → q = 2 → cyc % 16 ≠ 11) → entry = t + 1 →
        ((∀ x ∈ s.ring.ready, x.tile = t → x.port ≠ none ∧ x.port ≠ some e.val) → fillQuarter s e.val cyc idx q.val = (s, none)) ∧
        (∀ x w v ws, s.ring.ready.find? (fun x => x.tile == t && (x.port == none || x.port == some e.val)) = some x → x.words = w :: v :: ws →
          fillQuarter s e.val cyc idx q.val = ({ s with ring := { s.ring with ready := s.ring.ready.map (fun z =>
            if z.id = x.id then { x with words := v :: ws, port := some e.val } else z) } }, some w)))) ∧
    (∀ d ds, smGet [] s.ring.outQ e.val = d :: ds →
      exec (.moverRequest e) s = .next (setMover { s with ring := { s.ring with outQ := smSet [] s.ring.outQ e.val ds } }
        (tileCluster d.tile) { moverOf s (tileCluster d.tile) with
          queue := (moverOf s (tileCluster d.tile)).queue ++ [(d, s.clock)] })) ∧
    (∀ (id : Nat) (x : PullXfer) (tier key : Nat),
      s.ring.pulls.find? (fun y => y.id == id && y.op == 1 && decide (y.need ≤ y.got.length)) = some x → x.gone = false →
      translateRange s.mem (dVa x.d) (64 * x.need) (tileParts s x.d.tile) true = .ok tier key →
      exec (.visibilityPoint id) s = .next (moverDone (lockItem { s with
        ring := { s.ring with pulls := s.ring.pulls.filter (fun y => y.id != id) }
        mem := vaWrite s.mem (dVa x.d) x.got.flatten } x.d 1 x.got.flatten) x.mover 1 x.d 0 x.enter x.bound))

/-- The end of a copy names the new frame in the page's entry with its data, and the old frame waits for its release; the release returns
it to Kiln; a free queue of fewer than 256 frames is refilled; an unmap of a moving page changes no entry and waits for that end, where it
applies to the entry as the migration left it (R212, R213, R222). -/
def Obligations.MigrationSwitchesTheFrame : Prop :=
  ∀ (s : State) (page : Nat),
    (∀ (g : Migr) (m : Nat) (d : MDesc) (enter : Nat),
      s.mem.migr.find? (fun g => g.page == page && g.who != .retire) = some g → g.who = .mover m d enter → pageQuiet s page = true →
      s.mem.tmapBy ≤ m + 1 →
      let m1 := copyFrame s.mem g []
      let m2 := unmapWaiting { tmapSetBy m1 m page (teMake (teWritable (tmapGet m1 page)) (tePart (tmapGet m1 page)) g.tierNew false g.new) with
        migr := m1.migr.erase g } page
      exec (.migrateCopyDone page false) s = .next (drainPorts (migrAnswer
        { s with mem := { m2 with release := m2.release ++ [(g.tierOld, g.old, page)] } } m d 0 g.tierNew g.old g.new enter
        (if g.tierOld = 0 ∧ g.tierNew = 0 then 8000 else 40000)))) ∧
    (∀ r, s.mem.release.find? (fun r => r.2.2 == page) = some r →
      exec (.oldFrameRelease page) s = .next { s with mem := { kilnReturn s.mem r.1 r.2.1 with release := s.mem.release.erase r } }) ∧
    (∀ zero, teValid (tmapGet s.mem page) = true → teMoving (tmapGet s.mem page) = true →
      (unmapPage s page zero).mem.tmap = s.mem.tmap ∧ ((unmapPage s page zero).mem.unmapWait.any (fun u => u.1 == page)) = true) ∧
    (∀ u, s.mem.unmapWait.find? (fun u => u.1 == page) = some u →
      unmapWaiting s.mem page = unmapNow { s.mem with unmapWait := s.mem.unmapWait.filter (fun v => v.1 != page) } page u.2 ∧
        tmapGet (unmapWaiting s.mem page) page = 0) ∧
    (∀ (tier : Fin 2) (frames : Nat), (freeQueue s.mem tier.val).length < 256 → s.kiln.stat ≠ 2 →
      exec (.freeQueueRefill tier frames) s = .next { s with mem := refillQueue s.mem tier.val (ddrFitted s) (min frames 1024) })

/-- An uncorrectable error and a scrub error of a frame that no page maps, and a frame that has reported 8 corrected errors in 24 hours, are
counted and retire the frame, fewer are counted only; one that a page maps starts the copy of that page to a fresh frame; the end of a retirement copy retires the old
frame and hands the page to recovery; a Tier Map error ends every context (R209, R224 to R228, R294, R305). -/
def Obligations.MemoryErrorsRetireFrames : Prop :=
  ∀ (s : State) (tier : Fin 2) (f : Nat), f < tierFrames tier.val (ddrFitted s) →
    let su := { s with mem := countUe s.mem tier.val f }
    let day := s.mem.ceLog.filter (fun e => decide (s.clock < e.2.2.1 + 138240000000000))
    let total (n : Nat) := ((day.filter (fun e => e.1 == tier.val && e.2.1 == f)).map (·.2.2.2)).sum + n
    let sc (n : Nat) := { s with mem := { countCe s.mem tier.val f n with ceLog := day ++ [(tier.val, f, s.clock, n)] } }
    (∀ n, total n < 8 ∨ isRetired s.mem tier.val f = true → exec (.correctedErrorLimit tier ⟨f, n⟩) s = .next (sc n)) ∧
    (pagesOf s.mem tier.val f = [] →
      (∀ who, who = .kiln ∨ (∃ g, who = .engine g) → exec (.memUncorrectable who tier f) s = .next (drainPorts (retire su tier.val f))) ∧
      exec (.scrubError tier f) s = .next (retire su tier.val f) ∧
      (∀ n, 8 ≤ total n → isRetired s.mem tier.val f = false → exec (.correctedErrorLimit tier ⟨f, n⟩) s = .next (retire (sc n) tier.val f))) ∧
    (∀ page ps, pagesOf s.mem tier.val f = page :: ps →
      (∀ who, who = .kiln ∨ (∃ g, who = .engine g) →
        exec (.memUncorrectable who tier f) s = .next (drainPorts (startRetire su page .retire))) ∧
      (∀ n, 8 ≤ total n → isRetired s.mem tier.val f = false → exec (.correctedErrorLimit tier ⟨f, n⟩) s = .next (startRetire (sc n) page .kiln)) ∧
      (runningCtx s (tePart (tmapGet s.mem page)) = none → exec (.scrubError tier f) s = .next (startRetire su page .retire)) ∧
      (∀ c, runningCtx s (tePart (tmapGet s.mem page)) = some c → exec (.scrubError tier f) s =
        .next { s with mem := { countUe s.mem tier.val f with scrubBad := s.mem.scrubBad ++ [(tier.val, f, false)] } })) ∧
    (∀ (page : Nat) (bad : List Nat) (g : Migr), s.mem.migr.find? (fun g => g.page == page && g.who == .retire) = some g →
      pageQuiet s page = true → s.kiln.stat ≠ 2 →
      exec (.retirementCopy page bad) s = .next (drainPorts (pageLost (retire (migrSwitch s g bad) g.tierOld g.old) page))) ∧
    (∀ page, liveCtxs s = [] → exec (.tmapEccError page) s = .next s) ∧
    (∀ page c, liveCtxs s = [c] → (ctxOf s c).run = none →
      exec (.tmapEccError page) s = .next (setCtx s c { ctxOf s c with st := .paused })) ∧
    (∀ page c r, liveCtxs s = [c] → (ctxOf s c).run = some r → (ctxOf s c).cord = none →
      exec (.tmapEccError page) s = .next (failStep s c 0x91 true)) ∧
    (∀ page c r k, liveCtxs s = [c] → (ctxOf s c).run = some r → (ctxOf s c).cord = some k →
      exec (.tmapEccError page) s = .next (noteCause s c krFailed 0x11))

/-- A write of bytes to a frame reads back, and every other byte of both tiles reads as before (R206, R207). -/
def Obligations.FrameWriteReadsBack : Prop :=
  ∀ (m : MemState) (tier key other : Nat) (bs : List Byte), tier < 2 → other < 2 →
    (∀ k, memByte (memWrite m tier key bs) other k =
      if other = tier ∧ key ≤ k ∧ k < key + bs.length then bs.getD (k - key) 0 else memByte m other k)

/-- A write of bytes to the scratchpad that does not wrap reads back with good parity, and every other byte reads as before; in a slot
whose tag the program changed before its own MREQ completed, a byte may also keep what it held (R135, R157, R481). -/
def Obligations.ScratchpadWriteReadsBack : Prop :=
  ∀ (x : Tile) (a k : Nat) (bs : List Byte), a + bs.length ≤ 2 ^ 22 → k < 2 ^ 22 →
    (k / 4096 ∉ x.loose.slots → smGet 0 (spadWrite x a bs).spad k = if a ≤ k ∧ k < a + bs.length then bs.getD (k - a) 0 else smGet 0 x.spad k) ∧
    (smGet 0 (spadWrite x a bs).spad k = smGet 0 x.spad k ∨
      a ≤ k ∧ k < a + bs.length ∧ smGet 0 (spadWrite x a bs).spad k = bs.getD (k - a) 0) ∧
    (a ≤ k → k < a + bs.length → smGet 0 (spadWrite x a bs).badPar (k / 64) = 0)

/-- A port after its state changed, with what follows on the module: the trace point, the records, the detours and the line state
notices (R253, R256, R257, R271, R405). -/
def Sys2Proof.portNow (s : State) (l : Nat) (p : LinkPort) : Host.Outcome State Fault Refusal := .next (linkStep s l (fun _ => p))

/-- A port with no pause and no fence. -/
def Sys2Proof.calmPort (p : LinkPort) : LinkPort :=
  { p with dark := 0, resync := false, noSignal := false, fenceLeft := 0, peerFence := false }

/-- The move of a port into TRAINING that counts as a retrain (R256): with six retrains in the last 60 s it is FENCED for 600 s and sends
its marker instead. -/
def Sys2Proof.RetrainOrFence : Prop :=
  ∀ (s : State) (l : Fin 96),
    let p := portOf s.lk l.val
    let r := p.retrains.filter (fun t => decide (s.clock < t + 96000000000))
    let held := p.leftUp || p.st == 3 || p.st == 4
    let after : LinkPort :=
      if 6 ≤ r.length then
        sendOwn { p with
          retrains := r, st := 5, fenceLeft := 600, fenceAt := s.clock, peerFence := false, leftUp := held
          dark := 0, resync := false, noSignal := false } (.fence 600)
      else { Sys2Proof.calmPort p with
        st := 1, leftUp := held, fullTrain := p.savedSet.isNone, retrains := r ++ [s.clock], total := min (p.total + 1) 0x3FFF }
    (p.st = 3 → exec (.linkErrorRate l) s = Sys2Proof.portNow s l.val after ∧ exec (.laneSyncLost l) s = Sys2Proof.portNow s l.val after) ∧
    (p.st = 4 → p.noSignal = true → exec (.pausedTimeout l) s = Sys2Proof.portNow s l.val after)

/-- Signal and lasers: a port in UP or PAUSED that loses signal pauses and owes a NAK on every VC; one whose signal is back, whose lasers
give light and whose resynchronisation is over returns to UP and resends what is not acknowledged. A failed active laser is replaced by
the spare of its wavelength, which pauses its four links, or takes them to DOWN for want of light where the spare is used or has failed; a
failed spare takes down the links that it served; a spare that is stable lets its links resynchronise once no laser of theirs is dark
(R239 to R242, R250). -/
def Sys2Proof.SignalAndLaserEvents : Prop :=
  ∀ (s : State),
    (∀ l : Fin 96,
      let p := portOf s.lk l.val
      let owed (v : LinkVc) : LinkVc := { v with nakDue := true, discard := true }
      (p.st = 3 ∨ p.st = 4 → exec (.lossOfSignal l) s = Sys2Proof.portNow s l.val { p with
        st := 4, noSignal := true, ctl := owed p.ctl, bulkA := owed p.bulkA, bulkB := owed p.bulkB }) ∧
      (p.st ≠ 3 → p.st ≠ 4 → exec (.lossOfSignal l) s = Sys2Proof.portNow s l.val p) ∧
      (p.st = 4 → exec (.laneSyncRegained l) s = Sys2Proof.portNow s l.val
        (if p.dark = 0 ∧ p.resync = false then resendAll { p with noSignal := false, st := 3 } s.clock
          else { p with noSignal := false })) ∧
      (p.st = 4 → p.resync = true → exec (.resyncDone l) s = Sys2Proof.portNow s l.val
        (if p.dark = 0 ∧ p.noSignal = false then resendAll { p with resync := false, st := 3 } s.clock
          else { p with resync := false })) ∧
      (p.resync = false → exec (.resyncDone l) s = .next s)) ∧
    (∀ (b : Fin 6) (laser : Fin 16) (wear : Bool),
      let x := bladeOf s.lk b.val
      let w := laser.val % 4
      let fed := (List.range 4).map (fun i => 16 * b.val + 8 * (laser.val / 8) + 4 * (laser.val / 4 % 2) + i)
      x.present = true → x.lfail.testBit laser.val = false →
      (x.spareUsed.testBit w = false → x.spareBad.testBit w = false →
        exec (.laserFail b ⟨laser.val, by omega⟩ wear) s = .next (logSwap s (linksStep s fed (fun _ =>
          updPorts (setBlade s.lk b.val { x with
            lfail := x.lfail + 2 ^ laser.val, spareUsed := x.spareUsed + 2 ^ w, spareFor := smSet 0 x.spareFor w laser.val }) fed
            (fun q => if q.st = 3 ∨ q.st = 4 then { q with st := 4, dark := q.dark ||| 2 ^ w, resync := false } else q)))
          b.val laser.val wear)) ∧
      (x.spareUsed.testBit w = true ∨ x.spareBad.testBit w = true →
        exec (.laserFail b ⟨laser.val, by omega⟩ wear) s = .next (logSwap s (linksStep s fed (fun _ =>
          updPorts (setBlade s.lk b.val { x with lfail := x.lfail + 2 ^ laser.val }) fed
            (fun q => if q.st = 7 then q else goDown q 2))) b.val laser.val wear))) ∧
    (∀ (b : Fin 6) (w : Fin 4) (wear : Bool),
      let x := bladeOf s.lk b.val
      let was := smGet 0 x.spareFor w.val
      let served := (List.range 4).map (fun i => 16 * b.val + 8 * (was / 8) + 4 * (was / 4 % 2) + i)
      (x.present = true → x.spareBad.testBit w.val = false →
        exec (.laserFail b ⟨16 + w.val, by omega⟩ wear) s = .next (logSwap s (linksStep s served (fun _ =>
          let k := setBlade s.lk b.val { x with spareBad := x.spareBad + 2 ^ w.val }
          if x.spareUsed.testBit w.val then updPorts k served (fun q => if q.st = 7 then q else goDown q 2) else k))
          b.val (16 + w.val) wear)) ∧
      (x.spareUsed.testBit w.val = true → exec (.spareLaserStable b w) s = .next { s with
        lk := updPorts s.lk served (fun q =>
          if q.st = 4 ∧ q.dark.testBit w.val then { q with dark := q.dark - 2 ^ w.val, resync := q.dark - 2 ^ w.val == 0 } else q) }) ∧
      (x.spareUsed.testBit w.val = false → exec (.spareLaserStable b w) s = .next s))

/-- Blades: drawing one takes its links to DOWN for want of light, but for those that are DISABLED; seating one clears its record and
trains its 16 links once Kiln trains links; one that stays partly seated trains nothing until it is drawn and seated again
(R242, R243, R259, R474). -/
def Sys2Proof.BladesComeAndGo : Prop :=
  ∀ (s : State) (b : Fin 6),
    let ls := (List.range 16).map (fun i => 16 * b.val + i)
    let x := bladeOf s.lk b.val
    let whole : Blade := ⟨true, false, 0, 0, 0, [], false⟩
    exec (.bladeDrawn b) s = .next (linksStep s ls (fun _ => updPorts
      (setBlade s.lk b.val { x with present := false, stuck := false }) ls
      (fun p => if p.st = 7 then p else { Sys2Proof.calmPort p with st := 0, cause := 2, leftUp := p.leftUp || p.st == 3 || p.st == 4 }))) ∧
    (x.present = false → x.stuck = false → kilnUp s = true → 7 ≤ s.boot.stage →
      exec (.bladeInserted b) s = .next (linksStep s ls (fun _ => updPorts (setBlade s.lk b.val whole) ls
        (fun p => { Sys2Proof.calmPort p with st := 1, cause := 0, fullTrain := !(useSaved s && p.savedSet.isSome) })))) ∧
    (x.present = false → x.stuck = false → kilnUp s = false ∨ s.boot.stage < 7 →
      exec (.bladeInserted b) s = .next (linksStep s ls (fun _ => updPorts (setBlade s.lk b.val whole) ls
        (fun p => if p.st = 0 ∧ p.cause = 2 then { p with cause := 0 } else p)))) ∧
    (x.present = false → x.stuck = true →
      exec (.bladeInserted b) s = .next (linksStep s ls (fun _ => setBlade s.lk b.val { whole with stuck := true }))) ∧
    (x.present = true → exec (.bladeInserted b) s = .next (linksStep s ls (fun _ => s.lk))) ∧
    (x.present = false → exec (.bladeSeatTimeout b) s = .next { s with lk := setBlade s.lk b.val { x with stuck := true } }) ∧
    (x.present = true → exec (.bladeSeatTimeout b) s = .next s)

/-- Frames that arrive: a frame without an error is read as it was sent; the symbols that the code corrects are counted. A received flit in order goes
on to the crossbar and frees a buffer, a flit seen before changes nothing, a gap owes a NAK, and a bad flit, or one of a reserved class, is
counted and discarded; what an acknowledgement covers leaves the retry buffer first (R244, R246, R247, R249, R267). -/
def Sys2Proof.FramesAreReadInOrder : Prop :=
  ∀ (s : State) (l : Fin 96) (f g : LFrame) (e : LineErr) (n : Nat),
    let p := portOf s.lk l.val
    let p1 := { p with fec := satAdd32 p.fec n }
    let q := takeCredits (takeAck p1 g.ackVc g.ackSeq) g.crVc g.credits
    (e.flips = [] → readLine f e = (f, .good 0)) ∧
    (p.st = 3 → readLine f e = (g, .good n) →
      (11 ≤ g.cls → exec (.linkFlitReceive l ⟨f, e⟩) s = Sys2Proof.portNow s l.val { p1 with bad := satAdd32 p.bad 1 }) ∧
      (g.cls < 11 → g.nak = false → g.flit.vc < 3 →
        let v := vcOf q g.flit.vc
        (g.flit.seq = (v.rxSeq + 1) % 4096 → exec (.linkFlitReceive l ⟨f, e⟩) s = .next (crossFlit (linkStep s l.val
          (fun _ => setVc q g.flit.vc { v with rxSeq := g.flit.seq, discard := false, freed := v.freed + 1 })) l.val g.flit)) ∧
        (g.flit.seq ≠ (v.rxSeq + 1) % 4096 → (∀ r, g.flit.pkt ≠ some (.ident r)) → (∀ t, g.flit.pkt ≠ some (.fence t)) →
          (v.discard = false → seqDist v.rxSeq g.flit.seq < 2048 → g.flit.seq ≠ v.rxSeq → exec (.linkFlitReceive l ⟨f, e⟩) s =
            Sys2Proof.portNow s l.val (setVc q g.flit.vc { v with nakDue := true, discard := true })) ∧
          (v.discard = true ∨ 2048 ≤ seqDist v.rxSeq g.flit.seq ∨ g.flit.seq = v.rxSeq →
            exec (.linkFlitReceive l ⟨f, e⟩) s = Sys2Proof.portNow s l.val q)))) ∧
    (p.st = 3 → readLine f e = (g, .bad true) → g.flit.vc < 3 → exec (.linkFlitReceive l ⟨f, e⟩) s =
      Sys2Proof.portNow s l.val (oweNak { p with bad := satAdd32 p.bad 1 } g.flit.vc)) ∧
    (p.st = 3 → readLine f e = (g, .bad false) →
      let owed (v : LinkVc) : LinkVc := { v with nakDue := true, discard := true }
      exec (.linkFlitReceive l ⟨f, e⟩) s = Sys2Proof.portNow s l.val { p with
        bad := satAdd32 p.bad 1, ctl := owed p.ctl, bulkA := owed p.bulkA, bulkB := owed p.bulkB })

/-- What the crossbar does with a flit that its port has taken: the last flit of a packet for this module hands the packet up; the first
flit of a bulk packet for another module goes to its output port at once, each later one follows it, and the last ends the passage
(R249, R272). -/
def Sys2Proof.CrossbarTakesFlits : Prop :=
  ∀ (s : State) (l : Nat) (k : Packet) (vc seq i : Nat),
    (isBulk k = false → crossFlit s l ⟨vc, seq, some k, i⟩ =
      if i + 1 = packetFlits k then { s with lk := setPort s.lk l { portOf s.lk l with rxPkts := (portOf s.lk l).rxPkts ++ [k] } } else s) ∧
    (∀ (m v : Nat) (dtr : Bool), isBulk k = true → (portOf s.lk l).lockstep = false → routePacket s k = .link m v dtr → 1 < packetFlits k →
      packetFlits (setDtr k dtr) = packetFlits k →
      let c : CutPkt := ⟨k, setDtr k dtr, m, v⟩
      let k1 := setPort s.lk l { portOf s.lk l with cut := (portOf s.lk l).cut ++ [c] }
      crossFlit s l ⟨vc, seq, some k, 0⟩ = { s with lk := setPort k1 m (portFlit (portOf k1 m) v (setDtr k dtr) 0) }) ∧
    (∀ c : CutPkt, isBulk k = true → i ≠ 0 → (portOf s.lk l).cut.find? (fun x => x.pkt == k) = some c → i + 1 < packetFlits c.out →
      crossFlit s l ⟨vc, seq, some k, i⟩ = { s with lk := setPort s.lk c.link (portFlit (portOf s.lk c.link) c.vc c.out i) })

/-- Training and its ends: Kiln trains a link that is DOWN with light at its four wavelengths; a training that succeeds goes to IDENT with
its round trip, one beyond 512 flit times to TOO_LONG, a failed full one to DOWN, a failed one from saved settings trains in full; a
training waits while Kiln restarts; a fence that ends trains once with an empty window; a link that loses its peer goes DOWN and keeps its
retry buffer (R242, R253, R254, R256, R257). -/
def Sys2Proof.TrainingEndsInItsState : Prop :=
  ∀ (s : State) (l : Fin 96),
    let p := portOf s.lk l.val
    let calm := Sys2Proof.calmPort p
    (kilnUp s = true → p.st = 0 → p.cause ≠ 4 → (∀ w < 4, laserLit s.lk l.val w = true) → exec (.linkTrain l) s =
      Sys2Proof.portNow s l.val { calm with st := 1, cause := 0, fullTrain := !(useSaved s && p.savedSet.isSome) }) ∧
    (p.st = 0 → p.cause = 4 ∨ linkLit s.lk l.val = false → exec (.linkTrain l) s = Sys2Proof.portNow s l.val p) ∧
    (kilnUp s = false → ∀ (ok : Bool) (rtt : Nat), exec (.trainingComplete l ok rtt) s = .next s) ∧
    (kilnUp s = true → p.st = 1 → ∀ rtt : Nat,
      (rtt ≤ 512 → exec (.trainingComplete l true rtt) s =
        Sys2Proof.portNow s l.val { p with st := 2, rtt := rtt, saved := !p.fullTrain, cause := 0 }) ∧
      (512 < rtt → exec (.trainingComplete l true rtt) s =
        Sys2Proof.portNow s l.val { p with st := 6, rtt := min rtt 1023, saved := !p.fullTrain }) ∧
      (p.fullTrain = true → exec (.trainingComplete l false rtt) s =
        Sys2Proof.portNow s l.val { calm with st := 0, cause := 1, saved := false }) ∧
      (p.fullTrain = false → exec (.trainingComplete l false rtt) s =
        Sys2Proof.portNow s l.val { p with fullTrain := true, saved := false })) ∧
    (p.st = 5 → exec (.fenceExpiry l) s = Sys2Proof.portNow s l.val { calm with
      st := 1, cause := 0, fullTrain := p.savedSet.isNone, retrains := [] }) ∧
    (p.st = 3 → exec (.linkLeaveUp l) s = Sys2Proof.portNow s l.val { calm with st := 0, cause := 3, leftUp := true })

/-- The sending side: a port in UP sends at a flit boundary by R248's choice, and a fenced one its marker with the seconds left; one paused
for its peer's light sends the NAKs that it owes; a flit that bears a number is held until it is acknowledged; an unacknowledged flit is
resent at its timeout; 10 ms after a link left UP its buffer is discarded and every transfer in it is answered with LINK_DOWN; a fence
marker takes the port to FENCED; a module none of whose links is UP is reported to every port (R241, R248 to R250, R256, R257, R264, R311). -/
def Sys2Proof.PortsSendAndGiveUp : Prop :=
  ∀ (s : State) (l : Fin 96),
    let p := portOf s.lk l.val
    let x : LineNow := ⟨s.clock, ftimeNs s.fab, s.fab.addr⟩
    (p.st = 3 → exec (.flitBoundary l) s = .next (noteStamp { s with
      lk := setPort s.lk l.val (match boundaryPick p with
        | some (vc, true) => sendResend p vc x
        | some (vc, false) => sendNew p vc x
        | none => sendFrame p ⟨3, 0, none, 0⟩) } l.val)) ∧
    (p.st = 5 → exec (.flitBoundary l) s = .next { s with
      lk := setPort s.lk l.val (sendOwn p (.fence (p.fenceLeft - (s.clock - p.fenceAt) / 1600000000))) }) ∧
    (p.st = 4 → p.dark = 0 → p.resync = false →
      exec (.flitBoundary l) s = .next { s with lk := setPort s.lk l.val (sendFrame p ⟨3, 0, none, 0⟩) }) ∧
    (p.st = 4 → p.dark ≠ 0 ∨ p.resync = true → exec (.flitBoundary l) s = .next s) ∧
    (p.st = 2 → exec (.identRecordSend l) s = .next { s with
      lk := setPort s.lk l.val (sendOwn p (.ident (ownIdent s l.val))) }) ∧
    (∀ k : Packet, p.retry.length < 512 →
      let g : LFlit := ⟨0, p.ctl.txSeq, some k, 0⟩
      sendOwn p k = sendFrame { p with
        ctl := { p.ctl with txSeq := (p.ctl.txSeq + 1) % 4096 }, retry := p.retry ++ [⟨g, 0⟩] } g) ∧
    (∀ vc : Fin 3, p.st = 3 → heldOf p vc.val ≠ [] →
      exec (.ackTimeout l vc) s = Sys2Proof.portNow s l.val (startResend p vc.val s.clock)) ∧
    (p.leftUp = true → p.st ≠ 3 → p.st ≠ 4 →
      exec (.retryBufferExpiry l) s = .next ((heldPackets p).foldl (fun x k =>
        match bulkHdr k with
        | some h => answer x h 0x25
        | none => x) { s with lk := setPort s.lk l.val { p with
          retry := [], leftUp := false, inStep := false
          ctl := { p.ctl with queue := [], resend := [], mid := none }
          bulkA := { p.bulkA with queue := [], resend := [], mid := none }
          bulkB := { p.bulkB with queue := [], resend := [], mid := none } } })) ∧
    (∀ secs : Fin 601, p.rxPkts = [] → p.st = 1 ∨ p.st = 2 ∨ p.st = 3 ∨ p.st = 4 → secs.val ≠ 0 →
      exec (.fence l secs) s = Sys2Proof.portNow s l.val { p with
        st := 5, fenceLeft := secs.val, fenceAt := s.clock, peerFence := true, dark := 0, resync := false, noSignal := false
        leftUp := p.leftUp || p.st == 3 || p.st == 4 }) ∧
    (s.kiln.stat ≠ 2 → p.known = true →
      (∀ i < 96, (portOf s.lk i).known = true → (portOf s.lk i).peerUnit = p.peerUnit → (portOf s.lk i).st ≠ 3) →
      exec (.peerLost l) s = .next (postAll s 0x04 [l.val, p.peerUnit.toNat])) ∧
    (p.known = false → exec (.peerLost l) s = .next s)

/-- An IDENT record on a link in IDENT whose map names that peer admits the link to UP, after the port has learnt its peer and met what it
held for it; a record that fails the test is reported as MISWIRED and the link stays in IDENT; a record while Kiln restarts, or on a link
that is not in IDENT, changes nothing (R253, R255, R257, R264, R265). -/
def Sys2Proof.IdentAdmitsTheNamedPeer : Prop :=
  ∀ (s : State) (l : Fin 96) (r : IdentRec),
    let p := portOf s.lk l.val
    p.rxPkts = [] →
    (kilnUp s = false ∨ p.st ≠ 2 → exec (.ident l r) s = .next s) ∧
    (kilnUp s = true → p.st = 2 → wrongSaved p r = false →
      let s1 := learnPeer s l.val r
      lockstepWaits s1 l.val r = none →
      (admitOk s1.fab l.val r = true → exec (.ident l r) s = .next (linkStep { s1 with fab := { s1.fab with stepped := false } } l.val
        (fun q => { q with st := 3, cause := 0 }))) ∧
      (admitOk s1.fab l.val r = false →
        exec (.ident l r) s = .next (postAll s1 0x03 [l.val, (expectedPeer s1.fab l.val).toNat + mapPlink (mapOf s1.fab l.val) * 2 ^ 16,
          r.faddr.toNat + r.link.toNat * 2 ^ 16])))

/-- The row of a bulk packet's class. -/
def Sys2Proof.bulkRow (cls : PClass) (l : Fin 96) (h : PktHdr) (ws : List (List Byte)) : Instr :=
  match cls with
  | .write => .write l h ws
  | .gather => .gather l h ws
  | .contrib => .contrib l h ws
  | .part => .partialSum l h ws

/-- A bulk packet that arrives on a link (R267, R269, R270, R272, R274, R277, R279 to R284): one for another module goes on over the link
that the routing rule gives, with the detour bit that it gives; one that no link can carry is answered NO_PATH; one for this module joins
the ring towards its window (a GATHER copy after its own copies have gone to the lower phases) or meets its reduction engine, and one that
names no cord of this module is answered BAD_PACKET. The partner link of lock-step hands nothing up (R331). -/
def Obligations.BulkPacketsAreForwardedOrTaken : Prop :=
  ∀ (cls : PClass) (l : Fin 96) (h : PktHdr) (ws : List (List Byte)) (s : State),
    let p : Packet := .bulk cls h ws
    let s1 := takeRx s l.val p
    let tile := 64 * h.trow + h.tcol
    let c := cordOf s1.fab h.cord
    ((portOf s.lk l.val).lockstep = true → exec (bulkRow cls l h ws) s = .next s1) ∧
    ((portOf s.lk l.val).lockstep = false →
    (∀ k vc dtr, routePacket s1 p = .link k vc dtr →
      exec (bulkRow cls l h ws) s = .next (pushLink s1 k vc (.bulk cls { h with dtr := dtr } ws))) ∧
    (∀ st, routePacket s1 p = .refuse st → exec (bulkRow cls l h ws) s = .next (answer s1 h st)) ∧
    (routePacket s1 p = .here →
      (cls = .write → cordHere s1 h .write = false → exec (bulkRow cls l h ws) s = .next (answer s1 h 0x29)) ∧
      (cls = .write → cordHere s1 h .write = true → targetRefusal s1 tile = none →
        exec (bulkRow cls l h ws) s = .next (ringWrite s1 h ws (.packet .write h ws))) ∧
      (cls = .write → cordHere s1 h .write = true → ∀ st, targetRefusal s1 tile = some st →
        exec (bulkRow cls l h ws) s = .next (answer s1 h st)) ∧
      (cls = .gather → cordHere s1 h .gather = true →
        let copies := gatherCopies s1 c h ws (forwardPhases h.phase)
        let s2 := copies.foldl (fun x q => forwardCopy x h q) (updFab s1 (fun f => { f with
          gathers := f.gathers ++ [⟨h.src, h.cord, h.srank, h.tag, true, copies.length, 0⟩] }))
        targetRefusal s2 tile = none → exec (bulkRow cls l h ws) s = .next (ringWrite s2 h ws (.packet .gather h ws))) ∧
      (cls = .contrib ∨ cls = .part → c.valid = true → partResetting s1 c.part = true →
        exec (bulkRow cls l h ws) s = .next (answer s1 h 0x22)) ∧
      (cls = .contrib ∨ cls = .part → c.valid = true → partResetting s1 c.part = false → (partOf s1 c.part).powered = false →
        exec (bulkRow cls l h ws) s = .next (answer s1 h 0x21)) ∧
      (cls = .contrib ∨ cls = .part → c.valid = true → partResetting s1 c.part = false → (partOf s1 c.part).powered = true →
        let r := redTake s1.fab.red c cls h ws s1.clock
        let s2 := updFab s1 (fun f => { f with red := r.1 })
        (∀ st, r.2 = .refused st → exec (bulkRow cls l h ws) s = .next (answer s2 h st)) ∧
        (r.2 = .added ∨ r.2 = .duplicate → exec (bulkRow cls l h ws) s = .next (redFinish (answer s2 h 0) c h))) ∧
      (cls = .contrib ∨ cls = .part → c.valid = false → exec (bulkRow cls l h ws) s = .next (answer s1 h 0x29))))

/-- Completions (R269, R284): one for another module goes on; one that answers an outstanding packet ends it, unless its status is RESETTING
or RED_FULL, when the packet waits to be resent, keeping the time of its first such refusal; the resend injects it again, and 10 ms after
the first refusal the refusal is final. A reduction slot that is incomplete after 10 ms is freed, its engine's STALL is set and the
partition's step ends with CORD_STALL. -/
def Obligations.CompletionsRetriesAndStalls : Prop :=
  ∀ (s : State),
    (∀ x : Compl, complOnPartner s x = true → exec (.compl x) s = .next (takeRxCompl s x)) ∧
    (∀ x : Compl, complOnPartner s x = false → x.dst ≠ s.fab.addr → exec (.compl x) s = .next (sendCtl (takeRxCompl s x) (.compl [x]))) ∧
    (∀ (x : Compl) (o : OutPkt), complOnPartner s x = false → x.dst = s.fab.addr → (takeRxCompl s x).fab.out.find? (answersPkt x) = some o →
      (x.status ≠ 0x22 → x.status ≠ 0x28 → exec (.compl x) s = .next (packetDone (takeRxCompl s x) o x.status)) ∧
      (x.status = 0x22 ∨ x.status = 0x28 → isGone (takeRxCompl s x) o.xfer = false → o.refused = none →
        exec (.compl x) s = .next (updFab (takeRxCompl s x) (fun f => { f with
          out := f.out.map (fun y => if y = o then { y with refused := some (s.clock, x.status), again := true } else y) })))) ∧
    (∀ (i : Nat) (o : OutPkt) (r : Nat × Nat), s.fab.out[i]? = some o → o.again = true → o.refused = some r →
      exec (.packetRetry i true) s = .next (packetDone s o r.2) ∧
      exec (.packetRetry i false) s = .next (injectBulk (updFab s (fun f => { f with
        out := f.out.map (fun x => if x = o then { x with again := false } else x) })) o.pkt)) ∧
    (∀ (k : Fin 24) (slot : Fin 128) (o : RedSlot), (redSlots s.fab.red k.val)[slot.val]? = some o →
      exec (.redSlotStall k slot) s = .next (notePart (updFab s (fun f => { f with
        red := { freeSlot f.red o with stall := smSet 0 f.red.stall k.val 1 } })) (cordOf s.fab o.cord).part krReplay 0x05))

/-- Line state and fabric time (R271, R288, R289): a notice replaces the row of its sender's coordinate, or goes on; every 100 ms the module
announces its three dimensions; a module below the time root sends its parent a TIME packet, which takes its stamp as it leaves; the parent
answers with the stamp of its receipt, and the answer sets the offset and the rate and steps time forward once, then slews it; a lost
exchange clears VALID, but not at the root. How the rate follows from the exchanges is the model's choice (log entry 48). -/
def Obligations.LineStateAndFabricTime : Prop :=
  ∀ (s : State) (l : Fin 96) (dst src : BitVec 16),
    (∀ (dim : Fin 3) (mask : BitVec 31) (dtr : Bool), (portOf s.lk l.val).lockstep = false →
      let k : Packet := .lineState dst src dim.val mask.toNat dtr
      (dst = s.fab.addr → exec (.linkstate l dst src dim ⟨mask, dtr⟩) s = .next (updFab (takeRx s l.val k) (fun f =>
        { f with lines := smSet 0 f.lines (32 * dim.val + coord src dim.val) mask.toNat }))) ∧
      (dst ≠ s.fab.addr → exec (.linkstate l dst src dim ⟨mask, dtr⟩) s = .next (sendCtl (takeRx s l.val k) k))) ∧
    exec .linkstateTimer s = .next (sendLine (sendLine (sendLine s 0) 1) 2) ∧
    (∀ root : BitVec 16, s.fab.addrOn = true → s.fab.root = false →
      exec (.timeExchange root) s = .next (sendCtl (updFab s (fun f => { f with t1 := none, depth := addrDepth f.addr root }))
        (.time (timeParent s.fab root) s.fab.addr 0 0 0 false false))) ∧
    (s.fab.addrOn = false ∨ s.fab.root = true → ∀ root : BitVec 16, exec (.timeExchange root) s = .next s) ∧
    (∀ (p : LinkPort) (x : LineNow) (t1 t2 t3 : Nat) (dtr : Bool),
      stampPkt p x (.time dst x.addr t1 t2 t3 false dtr) = .time dst x.addr x.ns t2 t3 false dtr ∧
      stampPkt p x (.time dst x.addr t1 t2 t3 true dtr) = .time dst x.addr t1 t2 x.ns true dtr ∧
      (src ≠ x.addr → ∀ a, stampPkt p x (.time dst src t1 t2 t3 a dtr) = .time dst src t1 t2 t3 a dtr)) ∧
    (∀ x : TimeStamps, (portOf s.lk l.val).lockstep = false →
      let k : Packet := .time dst src x.t1 x.t2 x.t3 x.answer x.dtr
      let s1 := takeRx s l.val k
      (dst ≠ s.fab.addr → exec (.time l dst src x) s = .next (sendCtl s1 k)) ∧
      (x.answer = false → dst = s.fab.addr →
        exec (.time l dst src x) s = .next (sendCtl s1 (.time src dst x.t1 (ftimeNs s1.fab) 0 true false))) ∧
      (x.answer = true → dst = s.fab.addr → s1.fab.t1 = some x.t1 →
      let o : Int := (((x.t2 : Int) - x.t1) + ((x.t3 : Int) - ftimeNs s1.fab)) / 2
      exec (.time l dst src x) s = .next (updFab s1 (fun f => { f with
        t1 := none, ftValid := true, parent := l.val, offset := o, stepped := true
        rate := newRate f o s1.clock, period := sinceExchange f s1.clock, acc := 0, lastX := some s1.clock
        ftime := if f.stepped = false ∧ 0 < o then f.ftime + o.toNat * 16000 else f.ftime
        corr := if f.stepped = false ∧ 0 < o then 0 else o * 16000 })))) ∧
    (s.fab.root = false → exec .ftimeSyncLost s = .next (updFab s (fun f => { f with ftValid := false }))) ∧
    (s.fab.root = true → exec .ftimeSyncLost s = .next s)

/-- Barrier channels (R170, R172, R286, R298): a tile's arrival adds its count and notes the movers' open packets of the cord; the module
arrives when the count is reached and none of those packets is open, and sends to its phase 1 group; a BARRIER packet of this generation or
the next is held and moves the channel on; one for another module goes on; the release crosses every edge port of the partition and reaches
every tile of their columns, and starts the channel again. -/
def Obligations.BarriersArriveAndRelease : Prop :=
  ∀ (s : State) (cord : Fin 4096) (ch : Fin 4),
    let c := cordOf s.fab cord.val
    (∀ (t : Fin 2048) (count : Fin 4096), c.valid = true → partOfTile s t.val = some c.part →
      smGet [] (tileOf s t.val).barOut ch.val = [] → isKilnChannel s cord.val ch.val = false →
      let m := ctlMsg .barArrive false t.val false (ch.val * 2 ^ 94 + cord.val * 2 ^ 82 + count.val * 2 ^ 70)
      exec (.barArrive t cord ch count) s = .next (updBar (updTile (crossCtl s t.val m) t.val (fun x => { x with
          barOut := smSet [] x.barOut ch.val [(cord.val, count.val)] })) cord.val ch.val
        (fun b => { b with count := b.count + count.val, waits := moverTags s c.part (some cord.val) }))) ∧
    (c.valid = true → (barOf s.fab cord.val ch.val).phase = 0 → waitsOver s (barOf s.fab cord.val ch.val) = true →
      isKilnChannel s cord.val ch.val = false → c.btiles ≤ (barOf s.fab cord.val ch.val).count →
      exec (.moduleArrived cord ch) s = .next (barAdvance (barEnter s cord.val ch.val 1) cord.val ch.val 4)) ∧
    (∀ (l : Fin 96) (h : PktHdr) (gen : Fin 256) (k : KRec),
      let p : Packet := .barrier h ch.val gen.val k
      (portOf s.lk l.val).lockstep = false →
      (h.dst ≠ s.fab.addr → exec (.barrier l h ch gen k) s = .next (sendCtl (takeRx s l.val p) p)) ∧
      (h.dst = s.fab.addr →
        let s1 := takeRx s l.val p
        let x := cordOf s1.fab h.cord
        let g : BarGot := ⟨h.phase, h.srank, gen.val, if isKilnChannel s1 h.cord ch.val then some k else none⟩
        x.valid = true → gen.val = cordGen x ch.val ∨ gen.val = (cordGen x ch.val + 1) % 256 →
        (barOf s1.fab h.cord ch.val).got.contains g = false →
        exec (.barrier l h ch gen k) s = .next (barAdvance (updBar s1 h.cord ch.val (fun b => { b with got := b.got ++ [g] }))
          h.cord ch.val 4))) ∧
    (∀ part : Fin 8, (barOf s.fab cord.val ch.val).phase = 4 → c.part = part.val → isKilnChannel s cord.val ch.val = false →
      let s1 := (ctlPorts s part.val).foldl (fun x e =>
        crossCtl x (ctlFar e) (ctlMsg .barRelease true (ctlFar e) true (ch.val * 2 ^ 94 + cord.val * 2 ^ 82))) s
      exec (.barRelease part cord ch) s = .next (barReset (updTiles s1 (bcastTiles s part.val) (fun _ x => { x with
        barOut := smSet [] x.barOut ch.val ((smGet [] x.barOut ch.val).filter (fun a => a.1 != cord.val))
        barRel := x.barRel ++ [(cord.val, ch.val)] })) cord.val ch.val))

/-- Submissions (R132, R383, R385, R388, R399, R458): a LOAD whose turn it is keeps its image for the context's next step and completes OK,
or, where a check of the image fails, completes INVALID_PROGRAM and keeps nothing; a STEP joins its context's queue; a doorbell write of
the context's owner makes Kiln read the submission ring, at once or, where Kiln restarts, has woken for it in the last microsecond or has a
mailbox of the same cycle to serve, at a later wake; one of the other port is only counted (R381, R389). -/
def Sys2Proof.SubmissionsAreTaken : Prop :=
  ∀ (s : State) (c : Fin 256),
    let x := ctxOf s c.val
    (∀ (tag : Word) (img : Image), ctxLive s c.val = true → x.run = none → loadTurn x tag.toNat = true → cplFull s c.val = false →
      let s1 := if x.queue.isEmpty then s else popSub s c.val
      (imageOk s c.val img = true → exec (.load c tag img) s =
        .next (settleCtx (complete (updCtx s1 c.val (fun y => { y with image := some img })) c.val tag.toNat 0x0100 0 0) c.val)) ∧
      (imageOk s c.val img = false → exec (.load c tag img) s = .next (settleCtx (complete s1 c.val tag.toNat 0x0100 0x09 0) c.val))) ∧
    (∀ (tag n : Word) (mb : BitVec 16) (seed : DWord), ctxLive s c.val = true →
      exec (.step c tag n mb seed) s = .next (updCtx s c.val (fun y =>
        wakeCtx { y with queue := y.queue ++ [.step tag.toNat n mb seed] }))) ∧
    (∀ port : Fin 2, decodes (hostOf s port.val) = true → (hostOf s port.val).waitWr = [] → ctxLive s c.val = true →
      (x.port = port.val → dbReady s c.val = true →
        let s1 := updCtx s c.val (fun y => { y with dbAt := some s.clock, dbWait := false })
        exec (.ringDb port c) s = .next (settleCtx (readSubs s1 c.val (2 ^ x.sub.logsz)) c.val)) ∧
      (x.port = port.val → dbReady s c.val = false →
        exec (.ringDb port c) s = .next (updCtx s c.val (fun y => { y with dbWait := true }))) ∧
      (x.port ≠ port.val → exec (.ringDb port c) s =
        .next (updHost s port.val (fun y => { y with foreign := min (y.foreign + 1) 0xFF }))))

/-- A LOAD whose turn it is completes INVALID_PROGRAM and keeps nothing where a route word of its image has source code 7, an output
that names its own direction, an X field on a tile with no edge port, a field whose port faces the die edge or another partition, a
source in quarter 2 of an output in its control cycle, or a quarter 3 field in a ganged partition; where RPER exceeds 31 (R169); and where an
edge slot table is given for a port of another partition or names a tile outside it, names a tile in the control cycle of an EN or ES port,
or names one in quarter 3 in a ganged partition (R482). -/
def Obligations.IllegalRoutesAreRefusedAtLoad : Prop :=
  ∀ (s : State) (c : Fin 256) (tag : Word) (img : Image),
    let x := ctxOf s c.val
    ctxLive s c.val = true → x.run = none → loadTurn x tag.toNat = true → cplFull s c.val = false →
    (31 < img.rper ∨
      (∃ g ∈ img.tiles, ∃ r ∈ g.routes,
        let w := r.2.toNat
        let t := g.tile
        (∃ d q, q < 4 ∧ outSrc w d q = 7) ∨
        (∃ d q, q < 4 ∧ srcDir (outSrc w d q) = some d) ∨
        (edgeOfTile t = none ∧
          ((∃ q, q < 4 ∧ outSrc w .x q ≠ 0) ∨ (locQuarter w .x).isSome = true ∨ ∃ d q, q < 4 ∧ outSrc w d q = 5)) ∨
        (∃ f ∈ meshDirs, (∀ u, neighbour t f = some u → inPart s x.part u = false) ∧
          ((∃ q, q < 4 ∧ outSrc w f q ≠ 0) ∨ (locQuarter w f).isSome = true ∨ ∃ d q, q < 4 ∧ srcDir (outSrc w d q) = some f)) ∨
        (outSrc w .e 2 ≠ 0 ∧ r.1 % 16 = (4 * (t % 64) + 15) % 16) ∨
        (outSrc w .w 2 ≠ 0 ∧ r.1 % 16 = (4 * (63 - t % 64) + 15) % 16) ∨
        (outSrc w .s 2 ≠ 0 ∧ r.1 % 16 = (4 * (t / 64) + 15) % 16) ∨
        (outSrc w .n 2 ≠ 0 ∧ r.1 % 16 = (4 * (31 - t / 64) + 15) % 16) ∨
        (outSrc w .x 2 ≠ 0 ∧ (t < 64 ∨ 1984 ≤ t) ∧ r.1 % 16 = 11) ∨
        ((partOf s x.part).mode = 1 ∧ ∃ d, outSrc w d 3 ≠ 0 ∨ locQuarter w d = some 3)) ∨
      (∃ e ∈ img.edges,
        inPart s x.part (tileOfEdge e.1) = false ∨ inPart s x.part e.2.2.2 = false ∨
        (e.1 < 128 ∧ e.2.2.1 = 2 ∧ e.2.1 % 16 = 11) ∨ ((partOf s x.part).mode = 1 ∧ e.2.2.1 = 3))) →
    exec (.load c tag img) s = .next (settleCtx (complete (if x.queue.isEmpty then s else popSub s c.val) c.val tag.toNat 0x0100 0x09 0) c.val)

/-- Steps (R200, R226, R299, R320, R400, R401, R459): at a step boundary of a partition that is on, idle, within its lock-step lag and free of
retirements under way, Kiln starts the next section of the step that has halted, or the step that the schedule gives; a single-module step
whose tiles are all done for 64 logical cycles and whose queues are empty halts its tiles and completes OK; while Kiln restarts, no step
starts or ends. -/
def Sys2Proof.StepsStartAndEnd : Prop :=
  ∀ (s : State),
    (s.kiln.stat = 2 → (∀ part : Fin 8, exec (.stepLaunch part) s = .next s) ∧ ∀ c : Fin 256, exec (.stepEnd c) s = .next s) ∧
    (∀ part : Fin 8, s.kiln.stat ≠ 2 → partBusy s part.val = false → partIdle s part.val = true → lagOk s part.val = true →
      recovering s part.val = false →
      (∀ (c : Nat) (r : StepRun), runningCtx s part.val = some c → (ctxOf s c).run = some r → r.phase = .halting →
        exec (.stepLaunch part) s = .next (
          if r.sect = 1 then
            beginSection (clearCounts s c) c { r with mcopy := takesCopy (ctxOf s c) r.step.toNat }
          else beginSection s c r)) ∧
      (runningCtx s part.val = none →
        let s1 := retryBad ((partCtxs s part.val).foldl settleCtx (readWaiting s part.val))
        recovering s1 part.val = false →
        (∀ c, nextStep s1 part.val = some c → exec (.stepLaunch part) s = .next (launch s1 c)) ∧
        (nextStep s1 part.val = none → exec (.stepLaunch part) s = .next s1))) ∧
    (∀ (c : Fin 256) (r : StepRun), s.kiln.stat ≠ 2 → (ctxOf s c.val).run = some r → (ctxOf s c.val).cord = none → r.phase = .run →
      allDone s (ctxOf s c.val).part r = true → queuesEmpty s (ctxOf s c.val).part = true →
      (∀ t ∈ partTiles (partOf s (ctxOf s c.val).part), (tileOf s t).st = .run →
        ∃ d, (tileOf s t).doneAt = some d ∧ d + 64 ≤ (tileOf s t).cyc) →
      exec (.stepEnd c) s = .next (retryBad (finishStep (haltPart s (ctxOf s c.val).part) c.val 0 false)))

/-- Kiln's own barriers (R298, R299, R301, R303, R308, R317): each kind of arrival where its section is done; the release, by the combined
record: OK goes on to section B, to the commit or to what the QUIET barrier held, REPLAY replays, FAILED loses the rank, FAULT ends the
step, at a boundary that waits until the partition's tiles have halted; a flooded record aborts the section with CAUSE PEER; a barrier that does not release in time posts BARRIER_TIMEOUT and pauses the
context; a partition that is quiet arrives with QUIET. -/
def Obligations.KilnBarriersCoordinateAStep : Prop :=
  ∀ (s : State) (c : Fin 256) (r : StepRun) (k : Nat),
    let x := ctxOf s c.val
    s.kiln.stat ≠ 2 → x.run = some r → x.cord = some k →
    (r.phase = .run → r.sect ≠ 1 → r.status = 0 → allDone s x.part r = true →
      exec (.kilnBarrierArrive c 0) s = .next (arriveJob s c.val 0 0 0)) ∧
    (r.phase = .run → r.sect ≠ 1 → r.status ≠ 0 → exec (.kilnBarrierArrive c 0) s = .next (arriveJob s c.val 0 r.status r.cause)) ∧
    (r.phase = .run → r.sect = 1 → r.status = 0 → allDone s x.part r = true → votesOver s x.part r = true →
      exec (.kilnBarrierArrive c 1) s = .next (arriveJob s c.val 1 (emberVerdict s x.part r.attempt).1 (emberVerdict s x.part r.attempt).2)) ∧
    (r.phase = .run → r.sect = 1 → r.status ≠ 0 → exec (.kilnBarrierArrive c 1) s = .next (arriveJob s c.val 1 r.status r.cause)) ∧
    exec (.kilnBarrierArrive c 3) s = .next ((List.range 8).foldl (fun y i => arriveVote y c.val i) s) ∧
    (r.phase = .quiesce → x.st ≠ .paused → partQuiet (dropAttempt s x.part) x.part = true →
      recovering (dropAttempt s x.part) x.part = false →
      ((ctxOf s c.val).refill = [] →
        exec (.quiesceDone c) s = .next (arriveJob (dropAttempt s x.part) c.val 2 0 0) ∧
        exec (.kilnBarrierArrive c 2) s = .next (arriveJob (dropAttempt s x.part) c.val 2 0 0)) ∧
      ((ctxOf s c.val).refill ≠ [] →
        exec (.quiesceDone c) s = .next (updRun (dropAttempt s x.part) c.val (fun y => { y with phase := .held })))) ∧
    (∀ f, floodRec s k = some f → r.phase = .run →
      exec (.flood c) s = .next (arriveJob s c.val (if r.sect = 1 then 1 else 0) f.status.val 0x09)) ∧
    (∀ kind, phaseKind r.phase = some kind ∨ (r.phase = .run ∧ voteWaits s x.part r = true ∧ kind = 3) →
      exec (.sectionTimeout c) s = .next (updCtx (postCtx s c.val 0x06 [c.val, r.step.toNat, kind]) c.val (fun y => { y with st := .paused }))) ∧
    (∀ (cord : Fin 4096) (own : KRec), (barOf s.fab cord.val 3).mine = some own → (barOf s.fab cord.val 3).phase = 4 → own.kind ≠ 3 →
      jobCtx s cord.val = some c.val → x.st ≠ .paused →
      let g := recordTo (barOf s.fab cord.val 3) ((cordGen (cordOf s.fab cord.val) 3 + 255) % 256) 4
      (g.status.val = 0 → own.kind.val ≤ 1 → stepSettled s x.part = false → exec (.kilnBarrierRelease cord) s = .next s) ∧
      ((g.status.val = 0 → own.kind.val ≤ 1 → stepSettled s x.part = true) →
      let s1 := trace (barReset (joinSection s c.val cord.val own.kind.val) cord.val 3) 0x04 c.val x.part own.step.toNat
        (own.kind.val * 2 ^ 348 + g.status.val * 2 ^ 346 + g.cause.toNat * 2 ^ 338)
      (g.status.val = 0 → own.kind.val = 0 → exec (.kilnBarrierRelease cord) s = .next (afterSection s1 c.val)) ∧
      (g.status.val = 0 → own.kind.val = 1 → exec (.kilnBarrierRelease cord) s = .next (commitStep s1 c.val)) ∧
      (g.status.val = 0 → own.kind.val = 2 → exec (.kilnBarrierRelease cord) s = .next (afterQuiet s1 c.val)) ∧
      (g.status.val = 1 → exec (.kilnBarrierRelease cord) s = .next (beginReplay s1 c.val g.cause.toNat)) ∧
      (g.status.val = 2 → exec (.kilnBarrierRelease cord) s = .next (moduleFailed s1 c.val g.frank g.cause.toNat)) ∧
      (g.status.val = 3 → exec (.kilnBarrierRelease cord) s = .next (faultRelease s1 c.val g.cause.toNat)))) ∧
    (∀ (cord : Fin 4096) (own : KRec), (barOf s.fab cord.val 3).mine = some own → (barOf s.fab cord.val 3).phase = 4 → own.kind = 3 →
      exec (.kilnBarrierRelease cord) s = .next (releaseVote (barReset s cord.val 3) cord.val own
        (heldIn (barOf s.fab cord.val 3) ((cordGen (cordOf s.fab cord.val) 3 + 255) % 256) 1)))

/-- The power side after a change; PWR_EMERG's clock follows it (R362). -/
def Sys2Proof.powerNow (s : State) (w : PwrState) : State := { s with pwr := syncEmerg s.clock w }

/-- Clocks, injectors, clamps, the cap loop and the meters (R189 to R192, R348 to R356, R367): a droop reading stands until the next; a
monitor tick moves the region of a powered field by the monitor's rule and sets the field's voltage; a calibration changes no period; a
reservoir that connects and a clamp that engages are counted, holding at 0xFFFF; a cap tick follows R352, traces a new ceiling or gap and
posts CAP_UNMET where it is due; a metering interval adds the energies and keeps the currents. -/
def Obligations.MonitorsMetersAndCapLoopTick : Prop :=
  ∀ (s : State),
    (∀ (t : Fin 2048) (low : Bool), exec (.droop t low) s = .next (setTile s t.val { tileOf s t.val with droopLow := low })) ∧
    (∀ n : Fin 128,
      let r := regionOf s.pwr n.val
      ((fieldOf s.pwr (regionField n.val)).st = 2 →
        (∀ warn, exec (.regionMonitorTick n warn) s =
          .next (powerNow s (syncVset (monitorTick s.pwr n.val warn (regionPolicy s n.val)) (regionField n.val)))) ∧
        exec (.oscRecalibration n) s = .next (powerNow s (setRegion s.pwr n.val { r with calAt := s.clock }))) ∧
      (r.injOn = false → exec (.chargeInjectorConnect n) s = .next (powerNow s (setRegion s.pwr n.val
        { r with injOn := true, injEmpty := false, inject := min (r.inject + 1) 0xFFFF }))) ∧
      (r.injOn = true → exec (.chargeInjectorDisconnect n) s =
        .next (powerNow s (setRegion s.pwr n.val { r with injOn := false, injEmpty := true }))) ∧
      (r.clampOn = false → exec (.shuntClampEngage n) s =
        .next (powerNow s (setRegion s.pwr n.val { r with clampOn := true, clamp := min (r.clamp + 1) 0xFFFF }))) ∧
      exec (.shuntClampRelease n) s = .next (powerNow s (setRegion s.pwr n.val { r with clampOn := false }))) ∧
    (∀ watts,
      let r := capTick s.pwr watts ((poweredParts s).map (fun p => !(policyOf s.pwr p).fixed))
      let s1 := capActs (powerNow s r.1)
      (r.1.ceil = s.pwr.ceil → r.1.hgap = s.pwr.hgap → r.2 = false → exec (.capLoopTick watts) s = .next s1) ∧
      (r.1.ceil = s.pwr.ceil → r.1.hgap = s.pwr.hgap → r.2 = true →
        exec (.capLoopTick watts) s = .next (postAll s1 0x0E [effectiveCap s.pwr, watts])) ∧
      (r.1.ceil ≠ s.pwr.ceil ∨ r.1.hgap ≠ s.pwr.hgap → r.2 = false →
        exec (.capLoopTick watts) s = .next (trace s1 0x0C 0 0 0 (r.1.ceil * 2 ^ 346 + r.1.hgap * 2 ^ 342)))) ∧
    (∀ x : MeterRead,
      let m := meterTick s.pwr x.ein x.fields ((poweredParts s).map (fun p => (p, partFields (partOf s p))))
      exec (.energyMeterTick x) s = .next (powerNow s ((List.range 8).foldl (fun v n =>
        setField v n { fieldOf v n with ivddl := min (nth0 x.ivddl n) 0xFFFF })
        { m with vinCurr := min x.curr 0xFFFF, ivpkg := min x.ivpkg 0xFFF })))

/-- The supply and the pins (R336, R337, R342 to R344, R354, R468 to R471): the qualifier starts above 36 V with nothing qualified; a
qualified PWR_EN powers up a module whose VIN stands within 40 to 50 V, with every phase working and Stage 0 begun; a PWR_EN that
returns before the rails go abandons the power-down and is logged; a deasserted PWR_EN ends every context, where Kiln runs, and then the rails go; FORCE_OFF_N and VIN outside 38 to 52 V power down; a power-down leaves module flash and what the
qualifier holds; VIN out of its normal range and THROTTLE_N set their bits, throttling takes every region to step 20. -/
def Obligations.SupplyAndPinsSwitchTheModule : Prop :=
  ∀ (s : State),
    let w := s.pwr
    let down (x : State) : State := { State.reset with
      clock := x.clock, freeCtr := x.freeCtr, flash := x.flash, pending := x.pending
      pwr := { pwrInit with
        qualifier := x.pwr.qualifier, vinMv := x.pwr.vinMv, pwrEn := x.pwr.pwrEn, mustCycle := x.pwr.mustCycle
        lowSeen := x.pwr.lowSeen, forceOff := x.pwr.forceOff } }
    let ledOut : State := { s with boot := { s.boot with led := 0 } }
    (∀ mv, w.qualifier = false → 36000 < mv → exec (.standbyQualifierStart mv) s =
      .next { s with pwr := { pwrInit with qualifier := true, vinMv := mv } }) ∧
    (w.qualifier = true → w.handshake = false → exec .pwrEnAssert s = .next (powerNow s { w with
      pwrEn := true, mustCycle := w.mustCycle && !w.lowSeen, lowSeen := false })) ∧
    (∀ straps, w.qualifier = true → w.pwrEn = true → w.isOn = false → w.mustCycle = false → w.forceOff = false →
      40000 ≤ w.vinMv → w.vinMv ≤ 50000 →
      exec (.powerUp straps) s = .next (setReport { powerNow s ((List.range 8).foldl (fun v n =>
          setField v n { fieldOf v n with lact := 64, mact := 4, oact := 8, pact := 8 }) { w with isOn := true, ceil := 46 }) with
        boot := { bootInit with running := true, began := s.clock, stageAt := s.clock, strap := straps.val } } 0 (reportWord 0 1 false false 0))) ∧
    (w.qualifier = true → w.isOn = false → exec .pwrEnDeassert s = .next (powerNow ledOut { w with pwrEn := false, lowSeen := true })) ∧
    (w.qualifier = true → w.handshake = true → exec .pwrEnAssert s = .next (logFree (powerNow s { w with
      pwrEn := true, mustCycle := w.mustCycle && !w.lowSeen, lowSeen := false, handshake := false }) [])) ∧
    (w.qualifier = true → w.isOn = true →
      let s1 := powerNow ledOut { w with pwrEn := false, lowSeen := true }
      let s2 := if kilnUp s1 then (liveCtxs s1).foldl endCtx s1 else s1
      exec .pwrEnDeassert s = .next (powerNow s2 { s2.pwr with handshake := true })) ∧
    (w.handshake = true → w.pwrEn = false → w.isOn = true → exec .powerDown s = .next (down s)) ∧
    (w.qualifier = true → w.pwrEn = true → w.isOn = true → exec .forceOff s =
      .next (down (powerNow s { w with forceOff := true, mustCycle := true, lowSeen := false }))) ∧
    exec .forceOffDeassert s = .next (powerNow s { w with forceOff := false }) ∧
    (∀ mv, 36000 < mv → mv < 38000 ∨ 52000 < mv → w.isOn = true →
      exec (.vinFault mv) s = .next (down (powerNow ledOut { w with vinMv := mv }))) ∧
    (∀ mv, mv ≤ 36000 → w.isOn = true →
      exec (.vinFault mv) s = .next { down (powerNow ledOut { w with vinMv := mv }) with pwr := { pwrInit with vinMv := mv } }) ∧
    (∀ mv, (38000 ≤ mv ∧ mv < 40000) ∨ (50000 < mv ∧ mv ≤ 52000) →
      exec (.vinOutOfRange mv) s = .next (powerNow s { w with vinMv := mv, vinoor := true })) ∧
    (∀ mv, 40000 ≤ mv → mv ≤ 50000 → exec (.vinInRange mv) s = .next (powerNow s { w with vinMv := mv, vinoor := false })) ∧
    exec .throttleAssert s = .next (markRuns (powerNow s ((List.range 128).foldl (fun v n =>
      setRegion v n { regionOf v n with target := 20 }) { w with throttle := true, thrSecs := 0 })) (allParts s)
      (fun r => { r with thrAct := true })) ∧
    exec .throttleDeassert s = .next (powerNow s { w with throttle := false, thrSecs := 0 }) ∧
    (s.kiln.stat ≠ 2 → w.throttle = true → exec .throttleHeld s =
      .next (postAll (powerNow s { w with thrSecs := w.thrSecs + 60 }) 0x10 [w.thrSecs + 60]))

/-- Limits, faults, heat and soft start (R339, R343 to R346, R358 to R366): a limit is asserted and released at its source, and its 10 ms mark
stands only while it is asserted; a lost converter powers the module down below 13; a faulty phase is shed, counted and logged, and its
field is given up where it can no longer be sustained; a sensor moves between stages, and its stage acts; a partition in fixed-frequency
mode moves its one target at the ticks of its leading region, which is the model's choice (log entry 144); a sensor in stage 3 trips; a
field soft-starts with headroom, or at quarter rate, and its partition is on once its last field is. -/
def Obligations.LimitsHeatAndSoftStart : Prop :=
  ∀ (s : State),
    let w := s.pwr
    exec (.currentLimitAssert .input) s = .next (powerNow s { w with iinLim := true }) ∧
    exec (.currentLimitAssert .vpkg) s = .next (powerNow s { w with vpkgLim := true }) ∧
    exec (.currentLimitRelease .input) s = .next (powerNow s (syncPersist { w with iinLim := false })) ∧
    exec (.currentLimitRelease .vpkg) s = .next (powerNow s (syncPersist { w with vpkgLim := false })) ∧
    (∀ n : Fin 8,
      let f := fieldOf w n.val
      exec (.currentLimitAssert (.field n)) s = .next (checkField (powerNow s (setField w n.val { f with ownLim := true })) n.val) ∧
      exec (.currentLimitRelease (.field n)) s = .next (powerNow s (syncPersist (setField w n.val { f with ownLim := false }))) ∧
      (fieldLimited w n.val = true → exec (.fieldLimitPersist n) s = .next (powerNow s (setField w n.val { f with persist := true }))) ∧
      (∀ bank : Fin 4, exec (.phaseFault n bank) s =
        .next (checkField (logOnly (powerNow s (shedPhase w n.val bank.val)) 0x81 [n.val, bank.val]) n.val)) ∧
      (f.st = 1 →
        let s1 := setOsc (powerNow s (softStartDone w n.val)) n.val true
        (∀ p, partOfField s1 n.val = some p → exec (.softStartDone n) s = .next (partReady s1 p)) ∧
        (partOfField s1 n.val = none → exec (.softStartDone n) s = .next s1))) ∧
    (w.isOn = true →
      let s1 := powerNow s { w with convBad := min (w.convBad + 1) 16 }
      (13 ≤ convWorking s1.pwr → exec .converterFail s = .next s1) ∧
      (convWorking s1.pwr < 13 → exec .converterFail s = .next (powerDown s1))) ∧
    (∀ (kind : Fin 5) (idx : Fin 128) (temp : Int), idx.val < sensorCount kind.val →
      let old := (sensorOf w kind.val idx.val).1
      (old < stageReached kind.val temp →
        let s1 := powerNow s (setSensor w kind.val idx.val (stageReached kind.val temp, temp))
        exec (.thermalStageEnter kind idx temp) s = .next (stageAction (markRuns s1 (sensorParts s1 kind.val idx.val)
          (fun r => { r with thmAct := true })) kind.val idx.val old (stageReached kind.val temp) temp)) ∧
      (stageHeld kind.val temp < old → exec (.thermalStageLeave kind idx temp) s =
        .next (stageLeft (powerNow s (setSensor w kind.val idx.val (stageHeld kind.val temp, temp))) kind.val idx.val
          (stageHeld kind.val temp))) ∧
      (old = 3 → exec (.thermalTrip kind idx) s = .next (tripInStage (tripSensor s kind.val idx.val)))) ∧
    (∀ (n : Fin 128) (p : Nat), partOfField s (regionField n.val) = some p → (policyOf w p).fixed = false →
      let r := regionOf w n.val
      let st := (sensorOf w 0 n.val).1
      exec (.thermalCeilingTick n) s = .next (powerNow s (setRegion w n.val { r with thermCeil :=
        (if st = 1 then max 20 (r.thermCeil - 1) else if st = 0 then min 46 (r.thermCeil + 1) else r.thermCeil) }))) ∧
    (∀ (n : Fin 128) (p : Nat), partOfField s (regionField n.val) = some p → (policyOf w p).fixed = true →
      (leadRegion s p ≠ some n.val → exec (.thermalCeilingTick n) s = .next s) ∧
      (leadRegion s p = some n.val →
      let y := policyOf w p
      let stages := ((List.range 128).filter (fun i => (partOf s p).fmask.testBit (regionField i))).map (fun i => (sensorOf w 0 i).1)
      exec (.thermalCeilingTick n) s = .next (powerNow s (setPolicy w p { y with target :=
        (if stages.any (fun x => decide (2 ≤ x)) then 20 else if stages.any (· == 1) then max 20 (y.target - 1)
          else min y.step (y.target + 1)) })))) ∧
    (∀ mean, headroom w mean = true → exec (.headroomTest mean) s = .next (powerNow s (softStart w false))) ∧
    exec .quarterRateStart s = .next (powerNow s (softStart w true))

/-- A command's effect, answered with status OK and its results. -/
def Sys2Proof.answered (t : State) (res : List Byte) : State := { t with kiln := { t.kiln with resp := res, respSt := 0 } }

/-- Kiln is up and not busy (R372, R396, R406). -/
def Sys2Proof.takesStart (s : State) : Prop := kilnUp s = true ∧ nth0 s.kiln.queued 3 ≤ 256

/-- Kiln takes commands of every class: it is up, at Stage 8, and not busy. -/
def Sys2Proof.takesAny (s : State) : Prop := takesStart s ∧ isReady s = true

/-- The mailbox commands, by the row of the block. -/
def Sys2Proof.isMailbox (i : Instr) : Bool :=
  match i with
  | .info _ | .timeSet _ _ | .restart _ | .fullStart _ | .defectRead _ _ _ | .activate _ _ _ | .activateCancel _ | .attach _ _
  | .detach _ | .bar2Window _ _ | .traceConfig _ _ | .partConfig _ _ _ _ _ | .partPowerOn _ _ | .partPowerOff _ _
  | .powerPolicy _ _ _ _ _ | .tileReset _ _ | .clusterReset _ _ | .partitionReset _ _ | .computeReset _ _ | .deviceReset _ _
  | .ctxCreate _ _ | .ctxPause _ _ | .ctxResume _ _ | .ctxDestroy _ _ | .ctxRestore _ _ _ | .tmapMap _ _ _ _ _ _ | .tmapUnmap _ _ _
  | .tmapRead _ _ _ | .fabricAssign _ _ | .linkDisable _ _ | .linkEnable _ _ | .bladeRelease _ _ | .failureRate _ _ _
  | .cordSetup _ _ _ | .cordRead _ _ | .rankReplace _ _ | .emberSetup _ _ | .digestSetup _ _ | .refillDone _ _ _ | .forceCopy _ _
  | .lockstepStart _ _ | .lockstepStop _ => true
  | _ => false

/-- A refused mailbox command changes nothing but Kiln's last response (R456). -/
def Obligations.RefusedCommandsChangeNothing : Prop :=
  ∀ (i : Instr) (s t : State), isMailbox i = true → kilnUp s = true → exec i s = .next t → t.kiln.respSt ≠ 0 →
    t = { s with kiln := { s.kiln with resp := [], respSt := t.kiln.respSt } }

/-- The start-class commands and those about a port and its partitions take effect and answer OK where every check of theirs passes
(R30, R176, R178, R183, R351, R355, R365, R377, R390, R405, R413, R423, R424, R446, R456, R457). -/
def Obligations.ModuleAndPartitionCommandsComplete : Prop :=
  ∀ (s : State) (port : Fin 2),
    (takesStart s →
      exec (.info port) s = .next (answered s (leBytes 8 s.flash.unit.toNat ++ leBytes 1 s.flash.stepping ++ leBytes 1 s.flash.grade
        ++ leBytes 4 (mbxStartWord s).toNat ++ leBytes 4 (imgVersion s.flash.active))) ∧
      (∀ utc : DWord, exec (.timeSet port utc) s = .next (answered (updFab (learnTime s utc.toNat) (fun f => rootTime f utc.toNat)) [])) ∧
      exec (.restart port) s = .next (answered { powerDown s with pwr := { (powerDown s).pwr with mustCycle := false } } []) ∧
      exec (.fullStart port) s = .next (answered { s with flash := { s.flash with fullRec := s.flash.fullRec.write (runningFmt s, true) } } []) ∧
      (∀ (kind : Byte) (off : Word), kind.toNat ≤ 1 → off.toNat < 65536 →
        exec (.defectRead port kind off) s = .next (answered s (((defectRecord s.flash kind.toNat).drop off.toNat).take 224))) ∧
      (∀ (t : DWord) (window : BitVec 16), 60 ≤ window.toNat → window.toNat ≤ 3600 → s.flash.staging = 2 →
        let s1 := if t = 0 then pauseAct (resumeAct s) else resumeAct s
        exec (.activate port t window) s = .next (answered { s1 with upd := { s1.upd with
          actSt := if t = 0 then 2 else 1, actTime := t, actWin := window.toNat, unmet := 0 } } [])) ∧
      (s.upd.actSt = 1 ∨ s.upd.actSt = 2 → exec (.activateCancel port) s = .next (answered { resumeAct s with
        upd := { (resumeAct s).upd with actSt := 0, actTime := 0, actWin := 0, unmet := 0 } } []))) ∧
    (takesAny s →
      (∀ a : AttachArgs,
        let x := hostOf s port.val
        let r := attachRings a
        logszOk r.1.logsz = true → logszOk r.2.1.logsz = true → logszOk r.2.2.logsz = true → x.st = 0 ∨ x.hostId = a.hostId →
        ringOk s r.1 (ownedParts s port.val) = true → ringOk s r.2.1 (ownedParts s port.val) = true →
        ringOk s r.2.2 (ownedParts s port.val) = true →
        exec (.attach port a) s = .next (answered (attachPort s port.val a) [])) ∧
      (portCtxs s port.val = [] → exec (.detach port) s = .next (answered (updHost s port.val (fun x => { x with
        st := 0, hostId := 0, hold := none, ev := none, log := none, trace := none, beat := none, same := 0, evDrop := 0 })) [])) ∧
      exec (.bar2Window port 0xFFFFFFFF) s = .next (answered (updHost s port.val (fun x => { x with bar2 := none })) []) ∧
      (∀ page : Word, page.toNat < 2 ^ 24 → foreignPages s port.val page.toNat 1 = false →
        exec (.bar2Window port page) s = .next (answered (updHost s port.val (fun x => { x with bar2 := some page.toNat })) [])) ∧
      (∀ mask : DWord, exec (.traceConfig port mask) s = .next (answered { s with kiln := { s.kiln with traceEn := mask } } [])) ∧
      (∀ n m mode gang : Byte, partTask s n.toNat = false → foreignPart s port.val n.toNat = false → n.toNat < 8 → mode.toNat ≤ 2 → gang.toNat ≤ 3 →
        ((partOf s n.toNat).on = true → partCtxs s n.toNat = []) → fieldsTaken s n.toNat m.toNat = false →
        (m ≠ 0 → isRect m.toNat = true → (mode = 1 → gangsOk gang.toNat m.toNat = true) →
          exec (.partConfig port n m mode gang) s =
            .next (answered (setupPart s n.toNat port.val m.toNat mode.toNat gang.toNat) [])) ∧
        (m = 0 → (partOf s n.toNat).on = true → exec (.partConfig port n m mode gang) s = .next (answered (removePart s n.toNat) []))) ∧
      (∀ n : Byte, n.toNat < 8 → (partOf s n.toNat).on = true → (partOf s n.toNat).port = port.val → partTask s n.toNat = false →
        let q := partOf s n.toNat
        (q.powered = false → q.powering = false → cannotPower s n.toNat = false →
          exec (.partPowerOn port n) s = .next (answered (startPart s n.toNat) [])) ∧
        (q.powered = true → exec (.partPowerOn port n) s =
          .next (answered (partPowered (setPart s n.toNat { q with draining := false }) n.toNat 0) [])) ∧
        (q.powered = false → q.powering = false → cannotPower s n.toNat = true →
          exec (.partPowerOn port n) s = .next (answered (partPowered s n.toNat 0x0B) [])) ∧
        (q.powered = true → idleForPower s n.toNat = true →
          exec (.partPowerOff port n) s = .next (answered (setPart s n.toNat { q with draining := true }) [])) ∧
        (q.powered = false → q.powering = true → idleForPower s n.toNat = true →
          exec (.partPowerOff port n) s = .next (answered (partPowered (partOff s n.toNat) n.toNat 0) [])) ∧
        (q.powered = false → q.powering = false → idleForPower s n.toNat = true →
          exec (.partPowerOff port n) s = .next (answered (partPowered s n.toNat 0) []))) ∧
      (∀ (cap : BitVec 16) (n mode stp : Byte),
        (n.toNat ≠ 0xFF → partTask s n.toNat = false ∧ foreignPart s port.val n.toNat = false) →
        policyBad s cap.toNat n.toNat mode.toNat stp.toNat = false →
        let s1 := updPwr s (fun w => if port.val = 0 then { w with capP0 := cap.toNat } else { w with capP1 := cap.toNat })
        exec (.powerPolicy port cap n mode stp) s =
          .next (answered (if n.toNat = 0xFF then s1 else setPartPolicy s1 n.toNat mode.toNat stp.toNat) []))) ∧
    (∀ n : Fin 8, s.kiln.stat ≠ 2 → (partOf s n.val).on = true → (partOf s n.val).draining = true → queuesEmpty s n.val = true →
      ((partOf s n.val).powered = true → exec (.partitionOffDrained n) s = .next (partPowered (partOff s n.val) n.val 0)) ∧
      ((partOf s n.val).powered = false → exec (.partitionOffDrained n) s = .next (partOff s n.val)))

/-- The commands about contexts and the Tier Map take effect and answer OK where every check of theirs passes (R209, R210, R305, R309,
R310, R318, R382, R399, R400, R402, R410, R457). A new context takes the lowest free number: that is the model's choice (log entry 41). -/
def Obligations.ContextAndMapCommandsComplete : Prop :=
  ∀ (s : State) (port : Fin 2), takesAny s →
    (∀ (a : CtxArgs) (c : Nat), partTask s a.part.toNat = false → foreignPart s port.val a.part.toNat = false →
      (a.cord ≠ 0xFFFF → cordTask s a.cord.toNat = false ∧ foreignCord s port.val a.cord.toNat = false) → ctxArgsBad s a = false →
      ringOk s ⟨a.sub.toNat, a.subSz.toNat, 0⟩ [a.part.toNat] = true → ringOk s ⟨a.cpl.toNat, a.cplSz.toNat, 0⟩ [a.part.toNat] = true →
      pinnedTwice s a = false → freeCtx s = some c →
      exec (.ctxCreate port a) s = .next (answered (newCtx s port.val c a) (leBytes 1 c))) ∧
    (∀ c : Byte, ctxLive s c.toNat = true → (ctxOf s c.toNat).port = port.val → ctxTask s c.toNat = false →
      let x := ctxOf s c.toNat
      exec (.ctxPause port c) s = .next (answered (updCtx s c.toNat pauseCtx) []) ∧
      (s.kiln.stat ≠ 3 → exec (.ctxResume port c) s = .next (answered (settleCtx (updCtx s c.toNat resumeCtx) c.toNat) [])) ∧
      (x.run ≠ none → x.st ≠ .paused →
        exec (.ctxDestroy port c) s = .next (answered (updCtx s c.toNat (fun y => { y with dropReq := true })) [])) ∧
      (x.run = none → exec (.ctxDestroy port c) s = .next (answered (endCtx s c.toNat) [])) ∧
      (∀ a : RestoreArgs, x.st = .paused →
        let s1 := updCtx s c.toNat (fun y => { y with restore := some (a.seed, a.dataStep, a.dataMb) })
        (a.dataStep = a.rngStep → a.dataMb = a.rngMb → exec (.ctxRestore port c a) s = .next (answered s1 [])) ∧
        (¬ (a.dataStep = a.rngStep ∧ a.dataMb = a.rngMb) → exec (.ctxRestore port c a) s = .next (answered (postCtx s1 c.toNat 0x0D
          [posArg a.dataStep a.dataMb, posArg a.rngStep a.rngMb]) []))) ∧
      (∀ page : Word, page.toNat < 2 ^ 24 → foreignPages s port.val page.toNat 1 = false →
        exec (.refillDone port c page) s = .next (answered (refillDone s c.toNat page.toNat) [])) ∧
      exec (.forceCopy port c) s = .next (answered (updCtx s c.toNat (fun y => { y with holderNew := true })) [])) ∧
    (∀ (c : Byte) (m : Word), ctxLive s c.toNat = true → ctxTask s c.toNat = false →
      exec (.failureRate port c m) s = .next (answered (updCtx s c.toNat (fun y => { y with mtbf := some m.toNat })) [])) ∧
    (∀ (first count : Word) (part tier writable : Byte), partTask s part.toNat = false → foreignPart s port.val part.toNat = false → noPart s part.toNat = false →
      tier.toNat ≤ 1 → (tier.toNat = 1 → ddrFitted s = true) → writable.toNat ≤ 1 → first.toNat + count.toNat ≤ 2 ^ 24 →
      mappedIn s first.toNat count.toNat = [] → count.toNat ≤ freeFrames s.mem tier.toNat (ddrFitted s) →
      exec (.tmapMap port first count part tier writable) s = .next (answered { s with
        mem := mapPages part.toNat tier.toNat (writable.toNat == 1) (ddrFitted s) count.toNat first.toNat s.mem } [])) ∧
    (∀ first count : Word, first.toNat + count.toNat ≤ 2 ^ 24 →
      (∀ e ∈ mappedIn s first.toNat count.toNat, tePart e.2 ∈ ownedParts s port.val ∧ foreignPart s port.val (tePart e.2) = false) →
      (∀ n ∈ allRingPages s, ¬ (first.toNat ≤ n ∧ n < first.toNat + count.toNat)) →
      exec (.tmapUnmap port first count) s = .next (answered (drainPorts ((mappedIn s first.toNat count.toNat).foldl
        (fun x e => unmapPage x e.1 false) s)) [])) ∧
    (∀ (first : Word) (count : Byte), 1 ≤ count.toNat → count.toNat ≤ 56 → first.toNat + count.toNat ≤ 2 ^ 24 →
      foreignPages s port.val first.toNat count.toNat = false →
      exec (.tmapRead port first count) s = .next (answered s ((List.range count.toNat).flatMap (fun i =>
        leBytes 4 (tmapGet s.mem (first.toNat + i)).toNat))))

/-- The commands about the fabric, cords, streams, rank replacement and lock-step take effect and answer OK where every check of theirs
passes (R243, R253, R254, R256, R261, R264, R276, R277, R306, R312, R316, R317). -/
def Obligations.FabricCommandsComplete : Prop :=
  ∀ (s : State) (port : Fin 2), takesAny s →
    (∀ a : AssignArgs, assignBad a = false → (∀ c ∈ liveCtxs s, (ctxOf s c).st ≠ .ready ∧ (ctxOf s c).st ≠ .running) →
      (a.explicit ≠ 0 → mapOk a.addr (a.sxm.toNat + 1) (a.sym.toNat + 1) (a.szm.toNat + 1) (assignEntry a.map.toNat) = true) →
      exec (.fabricAssign port a) s = .next (answered (assignFabric s a) [])) ∧
    (∀ l : Byte, l.toNat < 96 →
      exec (.linkDisable port l) s = .next (answered (linkStep s l.toNat disableLink) []) ∧
      exec (.linkEnable port l) s = .next (answered (linkStep s l.toNat (fun p => enableLink p s.clock (linkLit s.lk l.toNat))) [])) ∧
    (∀ b : Byte, b.toNat < 6 → exec (.bladeRelease port b) s = .next (answered (linksStep s (bladeLinks b.toNat) (fun k =>
      updPorts (setBlade k b.toNat { bladeOf k b.toNat with release := true }) (bladeLinks b.toNat) disableLink)) [])) ∧
    (∀ (k : BitVec 16) (ent : BitVec 256),
      let c := decCord ent.toNat
      bits ent.toNat 184 4 = 0 → bits ent.toNat 0 128 = 0 → k.toNat < 4096 → cordTask s k.toNat = false → foreignCord s port.val k.toNat = false →
      (c.valid = true → partTask s c.part = false ∧ foreignPart s port.val c.part = false ∧ noPart s c.part = false ∧ 1 ≤ c.btiles ∧ c.btiles ≤ 2048 ∧
        c.mframe < hbmFrames ∧ cordSetupOk s.fab s.mem c (partSize s c.part) = true) →
      (cordBusy s k.toNat = false → exec (.cordSetup port k ent) s = .next (answered (writeCord s k.toNat c) [])) ∧
      (cordBusy s k.toNat = true → exec (.cordSetup port k ent) s =
        .next (answered { s with kiln := { s.kiln with cordWait := s.kiln.cordWait ++ [(k.toNat, c)] } } []))) ∧
    (∀ k : BitVec 16, k.toNat < 4096 → cordTask s k.toNat = false → foreignCord s port.val k.toNat = false →
      exec (.cordRead port k) s = .next (answered s (leBytes 32 (encCord (cordOf s.fab k.toNat))))) ∧
    (∀ a : ReplaceArgs, ctxLive s a.c.toNat = true → ctxTask s a.c.toNat = false → foreignCtx s port.val a.c.toNat = false →
      (∀ k ∈ a.cords, cordTask s k.toNat = false ∧ foreignCord s port.val k.toNat = false ∧ k.toNat < 4096) → a.cords.length ≤ 100 →
      replaceOk s (ctxOf s a.c.toNat) a = true → exec (.rankReplace port a) s = .next (answered (replaceRank s a.c.toNat a) [])) ∧
    (∀ a : EmberArgs, a.valid = 0 → a.str.toNat < 8 → foreignStream s port.val a.str.toNat = false →
      exec (.emberSetup port a) s = .next (answered (setupEmber s a) [])) ∧
    (∀ a : EmberArgs,
      let c := cordOf s.fab a.cord.toNat
      let pages := 32 * a.wspan.toNat
      a.valid = 1 → cordTask s a.cord.toNat = false → emberArgsBad s a = false → c.valid = true → c.ember = true → foreignStream s port.val a.str.toNat = false →
      foreignCord s port.val a.cord.toNat = false → foreignPages s port.val a.buf0.toNat pages = false →
      foreignPages s port.val a.buf1.toNat pages = false → bufferIn s a.buf0.toNat pages c.part = true →
      bufferIn s a.buf1.toNat pages c.part = true → exec (.emberSetup port a) s = .next (answered (setupEmber s a) [])) ∧
    (∀ a : DigestArgs, a.str.toNat < 8 → a.enable.toNat ≤ 1 → foreignStream s port.val a.str.toNat = false →
      (a.enable = 1 → cordTask s a.vcord.toNat = false ∧ foreignCord s port.val a.vcord.toNat = false ∧ a.vcord.toNat < 4096 ∧ a.every ≠ 0 ∧
        voteShape (cordOf s.fab a.vcord.toNat) = true) →
      exec (.digestSetup port a) s = .next (answered (setEmber s a.str.toNat { emberOf s a.str.toNat with
        digEn := a.enable == 1, vcord := a.vcord.toNat % 4096, every := a.every.toNat, key := a.key }) [])) ∧
    (∀ a : LockArgs, partTask s a.part.toNat = false → foreignPart s port.val a.part.toNat = false → noPart s a.part.toNat = false →
      a.link.toNat < 96 → a.logsz.toNat ≤ 12 →
      let y := policyOf s.pwr a.part.toNat
      let mine : LockSide := ⟨s.kiln.dclass, imgVersion s.flash.active, y.fixed, y.step, (partOf s a.part.toNat).loaded⟩
      (a.theirs = mine → mapRole (mapOf s.fab a.link.toNat) = 0 →
        exec (.lockstepStart port a) s = .next (answered { s with kiln := { s.kiln with ls := { s.kiln.ls with
          want := some ⟨a.part.toNat, a.link.toNat, a.logsz.toNat, port.val, a.partner, a.key⟩ } } } [])) ∧
      (a.theirs ≠ mine ∨ mapRole (mapOf s.fab a.link.toNat) ≠ 0 →
        exec (.lockstepStart port a) s = .next (answered (postEvent s [port.val] 0x18 none [0x2B]) []))) ∧
    exec (.lockstepStop port) s = .next (answered (endLock s) [])

/-- Resets (R427 to R431): each level is ordered where nothing forbids it: every tile in scope is aborted and the job is noted, with
BOOT_RESET active; the oldest job is applied once nothing of its scope is under way, and ends with RESET_DONE or, if Kiln ordered it, with
SPARE_READY; transfers still outstanding are cancelled. -/
def Obligations.ResetsAreOrderedAndApplied : Prop :=
  ∀ (s : State) (port : Fin 2),
    (takesAny s →
      (∀ (target : BitVec 16) (n : Nat),
        (targetPart s 1 target.toNat = some n → foreignPart s port.val n = false → resetOverlaps s 1 target.toNat = false →
          resetHeld s 1 target.toNat = false →
          exec (.tileReset port target) s = .next (answered (openReset s 1 target.toNat false port.val) [])) ∧
        (targetPart s 2 target.toNat = some n → foreignPart s port.val n = false → resetOverlaps s 2 target.toNat = false →
          resetHeld s 2 target.toNat = false →
          exec (.clusterReset port target) s = .next (answered (openReset s 2 target.toNat false port.val) [])) ∧
        (targetPart s 3 target.toNat = some n → partTask s target.toNat = false → foreignPart s port.val n = false → resetOverlaps s 3 target.toNat = false →
          resetHeld s 3 target.toNat = false →
          exec (.partitionReset port target) s = .next (answered (openReset s 3 target.toNat false port.val) []))) ∧
      (∀ selftest : Byte, selftest.toNat ≤ 1 →
        (mayReset s port.val 4 = true → resetOverlaps s 4 0 = false → resetHeld s 4 0 = false →
          exec (.computeReset port selftest) s = .next (answered (openReset s 4 0 (selftest == 1) port.val) [])) ∧
        (mayReset s port.val 5 = true → resetOverlaps s 5 0 = false → resetHeld s 5 0 = false →
          exec (.deviceReset port selftest) s = .next (answered (openReset s 5 0 (selftest == 1) port.val) [])))) ∧
    (∀ (j : ResetJob) (js : List ResetJob) (found : List Defect), s.kiln.stat ≠ 2 → s.kiln.resets = j :: js →
      (scopeQuiet s j = true → exec (.resetApply found) s = .next (resetEnd (resetEffect s j found) j)) ∧
      (scopeQuiet s j = false → exec (.resetApply found) s = .next s) ∧
      (resetParts s j.level j.target = [] →
        exec .resetMoverCancel s = .next (cancelTiles s (fun t => j.tiles.contains t) none)) ∧
      (resetParts s j.level j.target ≠ [] →
        exec .resetMoverCancel s = .next ((resetParts s j.level j.target).foldl cancelPart s)))

/-- Register and memory accesses of a host (R10, R203, R369, R371, R374 to R377, R386, R388): an aligned read returns the register and
latches the HI half of the LO register it reads; a write to a W1C field clears it where it writes a 1; a BAR0 access of any other form reads
zeros, and as a write changes nothing; BAR2 reads the bytes at the window's virtual address, or is faulted where there is no window or the
range is refused, as the Tier Map stood when the IR cycle began (R212); a BAR2 write lands there at once, or is refused, or waits on a moving page; a configuration request takes its effect.
Writes posted behind one that waits keep their turn: that part is the model's own reading (log entry 62). -/
def Obligations.HostAccessesReachRegistersAndMemory : Prop :=
  ∀ (s : State) (port : Fin 2),
    let x := hostOf s port.val
    (decodes x = true →
      (∀ (off : Fin 16777216), off.val % 4 = 0 →
        exec (.loReadLatch port off) s = .next (updHost (bar0Latch s off.val) port.val (fun y =>
          { y with rd := leBytes 4 (bar0Word s port.val off.val).toNat, ca := false })) ∧
        (x.waitWr = [] → ∀ v : Word, exec (.registerWrite port off v) s = .next (regWriteNow s port.val off.val v)) ∧
        (x.waitWr ≠ [] → ∀ v : Word, exec (.registerWrite port off v) s =
          .next (updHost s port.val (fun y => { y with waitWr := y.waitWr ++ [.reg off.val v] })))) ∧
      (∀ v : Word, x.waitWr = [] →
        exec (.registerWrite port 0x24 v) s = .next (if v.msb then updHost s port.val (fun y => { y with b2On := false }) else s) ∧
        exec (.registerWrite port 0xAD000C v) s = .next (if v.getLsbD 7 then updPwr s (fun w => { w with trip := false }) else s) ∧
        exec (.registerWrite port 0xAE0300 v) s = .next (if v.msb then updPwr s (fun w => { w with tripOn := false }) else s) ∧
        exec (.registerWrite port 0xA2000C v) s = .next (if v.msb then { s with mem := { s.mem with faultOn := false } } else s) ∧
        exec (.registerWrite port 0 v) s = .next s) ∧
      (∀ (off : Fin 16777216) (len : Fin 513),
        (bar0Accepts off.val len.val false = false → exec (.bar0InvalidAccess port off false len) s =
          .next (updHost s port.val (fun y => { y with rd := List.replicate len.val 0, ca := false }))) ∧
        (bar0Accepts off.val len.val true = false → exec (.bar0InvalidAccess port off true len) s = .next s)) ∧
      (∀ (off : Fin 1099511627776) (len : Fin 4097), inBar2 x off.val len.val = true → 0 < len.val →
        (x.bar2 = none → exec (.bar2Read port off len) s = .next (updHost s port.val (fun y => bar2Fault y false 0x02))) ∧
        (∀ page, x.bar2 = some page →
          let va := page * 2 ^ 18 + off.val
          (∀ st, translateRange (seenMem s.mem) va len.val (ownedParts s port.val) false = .bad st →
            exec (.bar2Read port off len) s = .next (updHost s port.val (fun y => bar2Fault y false st))) ∧
          ((∀ st, translateRange (seenMem s.mem) va len.val (ownedParts s port.val) false ≠ .bad st) →
            exec (.bar2Read port off len) s = .next (updHost s port.val (fun y => { y with rd := vaRead (seenMem s.mem) va len.val, ca := false }))))) ∧
      (∀ (off : Fin 1099511627776) (data : List Byte), inBar2 x off.val data.length = true → 0 < data.length → data.length ≤ 512 →
        (x.bar2 = none → exec (.bar2Write port off data) s = .next (updHost s port.val (fun y => bar2Fault y true 0x02))) ∧
        (∀ page, x.bar2 = some page → x.waitWr = [] →
          let va := page * 2 ^ 18 + off.val
          (∀ t f, translateRange (seenMem s.mem) va data.length (ownedParts s port.val) true = .ok t f →
            exec (.bar2Write port off data) s = .next { s with mem := seenWrite s.mem va data }) ∧
          (translateRange (seenMem s.mem) va data.length (ownedParts s port.val) true = .wait →
            exec (.bar2Write port off data) s = .next (updHost s port.val (fun y => { y with waitWr := y.waitWr ++ [.mem va data] }))) ∧
          (∀ st, translateRange (seenMem s.mem) va data.length (ownedParts s port.val) true = .bad st →
            exec (.bar2Write port off data) s = .next (updHost s port.val (fun y => bar2Fault y true st)))))) ∧
    (x.linkUp = true →
      (∀ off, exec (.configRequest port (.read off)) s = .next (updHost s port.val (fun y =>
        { y with ca := false, rd := leBytes 4 (cfgWord s (off.val / 4 * 4)) }))) ∧
      (∀ b, exec (.configRequest port (.busMaster b)) s = .next (updHost s port.val (fun y => { y with ca := false, busMaster := b })) ∧
        exec (.configRequest port (.msixEnable b)) s = .next (updHost s port.val (fun y => { y with ca := false, msixOn := b })) ∧
        exec (.configRequest port (.functionMask b)) s = .next (updHost s port.val (fun y => { y with ca := false, fmask := b }))) ∧
      exec (.configRequest port .d3hot) s = .next (updHost s port.val (fun y => { y with ca := false, d3hot := true })) ∧
      (∀ n, exec (.configRequest port (.resize n)) s = .next (updHost s port.val (fun y => { y with ca := false, barLog := n.val }))))

/-- Ports, mailboxes and heartbeats (R371, R373, R376, R379 to R381, R383, R387, R390, R391): a ring latches the command area in IDLE and DONE
and is counted while a command is pending or running; an acknowledgement makes DONE IDLE; Kiln takes a pending command to its response, after the
mailboxes that were rung before it and, among those of one cycle, after the lower ones (R389, R394, R395); a
vector's message leaves while the port may send it; ten unchanged heartbeats lose the host; a hold that expires tears down what the port
held; a port reset clears the port and loses its host; a released port trains. -/
def Obligations.PortsMailboxesAndHeartbeats : Prop :=
  ∀ (s : State) (port : Fin 2),
    let x := hostOf s port.val
    (∀ m : Fin 16, decodes x = true → x.waitWr = [] →
      let y := mbxOf x m.val
      (y.st = 0 ∨ y.st = 3 → exec (.ring port m) s = .next (updHost s port.val (fun z => setMbx z m.val
        { y with st := 1, latched := smGetList 0 y.cmd 0 256, rungAt := s.clock, early := decide (s.clock < y.busyTill) }))) ∧
      (y.st = 1 ∨ y.st = 2 → exec (.ring port m) s = .next (updHost s port.val (fun z => setMbx z m.val
        { y with coalesced := min (y.coalesced + 1) 0xFF }))) ∧
      (y.st = 3 → exec (.ack port m) s = .next (updHost s port.val (fun z => setMbx z m.val { y with st := 0 })))) ∧
    (∀ (m : Fin 16) (theirs : LockSide) (k : KTask), kilnUp s = true → nextTask 1 (mbxTasks s) = some k →
      k.idx ≠ 16 * port.val + m.val → (mbxTasks s).any (fun q => q.idx == 16 * port.val + m.val) = true →
      exec (.commandTake port m theirs) s =
        .next (takeUpTo (takeCmd s (k.idx / 16) (k.idx % 16) theirs) theirs (16 * port.val + m.val) 31)) ∧
    (∀ (m : Fin 16) (theirs : LockSide) (q : KTask), kilnUp s = true → nextTask 1 (mbxTasks s) = some q →
      q.idx = 16 * port.val + m.val → q ∈ mbxTasks s → (mbxOf x m.val).st = 1 → mayWake s (mbxOf x m.val) = true →
      let b := (mbxOf x m.val).latched
      let s1 := trace s 0x08 0 0 0 (mbxTrace port.val m.val (cmdHdr b 0 16) 0)
      let k := cmdServe s1 port.val theirs (mbxOf x m.val).early b
      cmdHdr b 0 16 ≠ 0x03 → exec (.commandTake port m theirs) s = .next (cmdRespond s port.val m.val b
        { k with st := { k.st with kiln := { k.st.kiln with resp := k.res, respSt := k.status } } })) ∧
    (∀ v : Fin 2048, mayMsix s x v.val = true → exec (.msixSend port v) s = .next (updHost s port.val (fun y => { y with
      pend := y.pend.erase v.val, sentAt := smSet 0 y.sentAt v.val (s.clock + 1), msg := some ((vecOf y v.val).addr, (vecOf y v.val).data) }))) ∧
    (∀ r : Ring, s.kiln.stat ≠ 2 → x.ev = some r → x.st = 1 →
      let b := BitVec.ofNat 32 (ringHostBeat s.mem r)
      let n := if x.beat = some b then x.same + 1 else 0
      let s1 := { s with mem := setRingField s.mem r 40 ((ringDevBeat s.mem r + 1) % 2 ^ 32) }
      let s2 := flushLost (updHost s1 port.val (fun y => { y with beat := some b, same := n })) port.val
      (n < 10 → exec (.heartbeatSample port) s = .next s2) ∧
      (10 ≤ n → exec (.heartbeatSample port) s = .next (hostLost s2 port.val))) ∧
    (s.kiln.stat ≠ 2 → x.st = 2 → exec (.hostHoldExpiry port) s = .next (updHost (tearDown s (portCtxs s port.val) (ownedParts s port.val)) port.val
      (fun y => { y with st := 0, hold := none, hostId := 0, ev := none, log := none, trace := none, evDrop := 0 }))) ∧
    (x.linkUp = true →
      exec (.portReset port .hotReset) s = .next (updHost (hostLost s port.val) port.val (fun y => { clearPort y with linkUp := false })) ∧
      exec (.portReset port .linkDown) s = .next (updHost (hostLost s port.val) port.val (fun y => { clearPort y with linkUp := false })) ∧
      exec (.portReset port .flr) s = .next (updHost (hostLost s port.val) port.val clearPort) ∧
      (x.d3hot = true → exec (.portReset port .d3ToD0) s = .next (updHost (hostLost s port.val) port.val clearPort))) ∧
    exec (.portReset port .perst) s = .next (updHost (hostLost s port.val) port.val (fun y => { clearPort y with perst := true, linkUp := false })) ∧
    (1 ≤ s.boot.stage → exec (.portTrain port) s = .next (updHost s port.val (fun y => { y with perst := false, linkUp := true })))

/-- Lock-step, the watchdog and telemetry (R331, R333 to R335, R397, R406 to R410): a completed window is logged with its digests and its
record sent, and compared once both records are there; a lag above the log, or a record that does not come, ends lock-step; a partner that
does not show itself refuses the start; a watchdog restart stops Kiln and counts it; the recovery runs and Kiln is up again; telemetry is
sampled one tick in 2^n, and n follows the load. -/
def Obligations.LockStepWatchdogAndTelemetry : Prop :=
  ∀ (s : State),
    let x := s.kiln.ls
    (∀ (w sect att : Nat) (tag : Word), x.sec = some (tag, sect, att) → x.enable = true → x.next = w →
      let tiles := windowTiles x.sums w
      let own : LsWin := ⟨tag, sect, att, w, streamDigests tiles⟩
      tilesPast s w = true → itemsDone s w = true →
      let e : LsLog := ⟨own, tiles, false⟩
      let s1 : State := { s with kiln := { s.kiln with ls := { x with
        sums := x.sums.filter (fun k => k.1 / 4096 != w)
        next := w + 1
        log := trimLog x.logsz (x.log.filter (fun o => !outdated own o.own) ++ [e])
        theirs := x.theirs.filter (fun o => !outdated own o.1)
        sentRec := some own } } }
      (s1.kiln.ls.theirs.find? (fun o => sameSec o.1 own && o.1.win == w) = none →
        exec (.comparisonWindowComplete w) s = .next s1) ∧
      (∀ b, s1.kiln.ls.theirs.find? (fun o => sameSec o.1 own && o.1.win == w) = some b →
        exec (.comparisonWindowComplete w) s = .next (compareWin s1 e b))) ∧
    (∀ r : LsRec, x.enable = true →
      let b := recOf r
      let s1 : State := { s with kiln := { s.kiln with ls := { x with
        log := x.log.filter (fun o => !outdated b.1 o.own)
        theirs := x.theirs.filter (fun o => !outdated b.1 o.1) ++ [b] } } }
      (s1.kiln.ls.log.find? (fun e => sameSec e.own b.1 && e.own.win == b.1.win && !e.met) = none →
        exec (.lockstepRecord r) s = .next s1) ∧
      (∀ e, s1.kiln.ls.log.find? (fun e => sameSec e.own b.1 && e.own.win == b.1.win && !e.met) = some e →
        exec (.lockstepRecord r) s = .next (compareWin s1 e b))) ∧
    (s.kiln.stat ≠ 2 → x.enable = true → 2 ^ x.logsz < lsLag x → exec .lockstepLagExceeded s = .next (loseLock s)) ∧
    (s.kiln.stat ≠ 2 → x.enable = true → 0 < lsLag x → exec .lockstepRecordTimeout s = .next (loseLock s)) ∧
    (∀ w, s.kiln.stat ≠ 2 → x.want = some w → exec .lockstepPartnerTimeout s =
      .next (lockRefused { s with kiln := { s.kiln with ls := { x with want := none } } } w.port)) ∧
    (∀ (core : Fin 4) (cause : Fin 3), s.boot.running = true → 1 ≤ s.boot.stage → s.kiln.stat ≠ 2 →
      exec (.watchdogRestart core cause) s = .next (
        let s0 := endTransfer (rewindKindling s)
        let s1 := (liveCtxs s0).foldl (fun x c => updCtx x c (fun y => { y with dbWait := false })) s0
        { s1 with kiln := { s1.kiln with
          stat := 2, wdTotal := min (s1.kiln.wdTotal + 1) 0xFFFF, wdTimes := s1.kiln.wdTimes ++ [s.clock]
          wdCause := cause.val, wdCore := core.val, cordWait := [], resp := [], regIn := none } })) ∧
    (∀ keepOk, s.boot.running = true → s.kiln.stat = 2 →
      let s1 := rebegin (recoverKiln s keepOk)
      exec (.kilnRestartRecovery keepOk) s = .next (if s1.pwr.handshake then (liveCtxs s1).foldl endCtx s1 else s1)) ∧
    (kilnUp s = true →
      exec .telemetrySample s = .next { s with kiln := { s.kiln with
        tick := (s.kiln.tick + 1) % 64
        telem := if (s.kiln.tick + 1) % 64 % 2 ^ s.kiln.decim = 0 then some [klnWord s 8, mbxStartWord s] else s.kiln.telem } } ∧
      (∀ r : LoadRead, exec (.decimationUpdate r) s = .next { s with kiln := { s.kiln with
        busy := r.busy.val, cbusy := r.cbusy, queued := r.queued
        decim := if 90 < r.busy.val then min (s.kiln.decim + 1) 6 else if r.busy.val < 70 then s.kiln.decim - 1 else s.kiln.decim } }))

/-- Kindling's stages pass (R412 to R421, R433, R449): each stage, met while it runs, does its work and, where nothing stops it, its report
passes and the next stage begins; Stage 0 starts the image that the copy state chooses; Stage 8 saves the settings, makes the module ready and
ends a trial. -/
def Obligations.KindlingStagesPass : Prop :=
  ∀ (s : State) (x : StageOut),
    (inStage s 0 = true → x.code ≠ 1 → x.code ≠ 3 → ∀ n i, (chooseImage (dropCut s.flash)).2 = some (n, i) →
      exec (.stage0 x) s = .next (startImage { s with flash := (chooseImage (dropCut s.flash)).1 } n i x.ms)) ∧
    (inStage s 1 = true → ∀ (puf : PufRead) (serials : List Nat), stage1Code s.flash puf = 0 →
      let s2 := resetSettings { s with
        boot := { s.boot with
          pufCorr := min puf.corr 0xFFFF, idValid := true, serials := (List.range 12).map (nth0 serials) }
        mem := (List.range 12).foldl (fun m i => setMemDev m 1 i { memDevOf m 1 i with present := nth0 serials i != 0 }) s.mem }
      exec (.stage1 x puf serials) s = .next (passStage { s2 with
        kiln := { s2.kiln with dclass := (classString s2.flash).take 31 }
        flash := if s2.flash.copy = 4 then s2.flash.putUpd (fun u => { u with tries := 0 }) else s2.flash } 1 0 x.ms)) ∧
    (inStage s 2 = true → ∀ (bad : List (Nat × Nat × Nat)) (mtemp : Int),
      let s1 := shedAll { s with boot := { s.boot with mtemp := mtemp } } bad
      stage2Code s1.pwr = 0 → exec (.stage2 x bad mtemp) s = .next (passStage s1 2 0 x.ms)) ∧
    (inStage s 3 = true → s.boot.decided = true ∨ s.boot.waited = true ∨ s.kiln.utc ≠ none → x.code ≠ 0x31 → x.code ≠ 0x32 →
      ∀ (vtab : List (Nat × Nat)) (paths : List PathRead),
        let s1 := decideStart s
        let s2 := updPwr s1 (fun w => { w with vtable := vtab.foldl (fun m e => smSet 0 m e.1 e.2) w.vtable })
        exec (.stage3 x ⟨vtab, paths⟩) s =
          .next (passStage (setLevels { s2 with boot := { s2.boot with paths := measuredPaths s1 paths } }) 3 0 x.ms)) ∧
    (inStage s 4 = true → ∀ found : List (List Defect), (powerWaves s found).2 = 0 →
      let s1 := (powerWaves s found).1
      exec (.stage4 x found) s = .next (passStage (updTiles (updTiles { s1 with boot := { s1.boot with
          unrep := false, lanes := laneMaps (defects s1.flash) } } (List.range 2048) (placePhys (defects s1.flash)))
        (List.range 2048) (fun _ y => { y with spad := [], badPar := [] })) 4 0 x.ms)) ∧
    (inStage s 5 = true → x.code ≠ 0x51 → ∀ (bad : List Nat) (res : List (Fin 16 × Nat)),
      let s1 := withhold (keepTraining { s with mem := trainDevs s.mem 0 16 (fun _ => true) } 0 res) 0 bad
      overWithheld s1.mem 0 16 2621 = false → exec (.stage5 x ⟨bad, res⟩) s = .next (passStage s1 5 0 x.ms)) ∧
    (inStage s 6 = true → ∀ (bad : List Nat) (res : List (Fin 16 × Nat)),
      (ddrFitted s = false → exec (.stage6 x ⟨bad, res⟩) s = .next (trainAll (passStage s 6 0x60 x.ms))) ∧
      (ddrFitted s = true → s.boot.serials.any (· == 0) = false → x.code ≠ 0x62 → x.code ≠ 0x63 →
        let s1 := withhold (keepTraining { s with mem := trainDevs s.mem 1 12 (fun i => nth0 s.boot.serials i != 0) } 1 res) 1 bad
        overWithheld s1.mem 1 12 5242 = false → exec (.stage6 x ⟨bad, res⟩) s = .next (trainAll (passStage s1 6 0 x.ms)))) ∧
    (inStage s 7 = true → (∀ l < 96, (portOf s.lk l).st ≠ 1) → exec (.stage7 x) s = .next (passStage s 7 (linksCode s) x.ms)) ∧
    (inStage s 8 = true → exec (.stage8 x) s = .next (
      let s1 := spareAgain (saveSettings s)
      endTrial (postReport { s1 with boot := { s1.boot with state := 2, code := 0 } } 8 (reportWord 0 2 (fastStage s 8) false x.ms))))

/-- Kindling's stops, waits and copies (R345, R347, R413 to R420, R423, R450, R451): the boot ROM's and the service bank's time limits, the
codes that the hardware finds, the module's own codes, the wait for a time and the time that arrives, Stage 7's end after 2 s, and a
background copy that is done. -/
def Obligations.KindlingStopsWaitsAndCopies : Prop :=
  ∀ (s : State),
    (inStage s 0 = true →
      exec .romSelftestTimeout s = .next (setReport { s with boot := { s.boot with
        state := 1, code := 1, led := 1, recovery := false } } 0 (reportWord 1 3 false false 100)) ∧
      exec .serviceBankTimeout s = .next { powerDown s with
        boot := { (powerDown s).boot with state := 1, code := 3, led := 3 }
        pwr := { (powerDown s).pwr with mustCycle := true, lowSeen := false } } ∧
      (∀ x : StageOut, x.code ≠ 1 → x.code ≠ 3 → (chooseImage (dropCut s.flash)).2 = none →
        exec (.stage0 x) s = .next (setReport { s with
          flash := (chooseImage (dropCut s.flash)).1
          boot := { s.boot with state := 1, code := 2, led := 2, recovery := true } } 0 (reportWord 2 3 false false x.ms)))) ∧
    (inStage s 1 = true → ∀ (x : StageOut) (puf : PufRead) (serials : List Nat), stage1Code s.flash puf ≠ 0 →
      exec (.stage1 x puf serials) s = .next (stopKindling { s with
        boot := { s.boot with
          pufCorr := min puf.corr 0xFFFF
          idValid := s.flash.identRec.valid && s.flash.helperRec.valid && puf.within && puf.keyEq
          serials := (List.range 12).map (nth0 serials) }
        mem := (List.range 12).foldl (fun m i => setMemDev m 1 i { memDevOf m 1 i with present := nth0 serials i != 0 }) s.mem } 1 (stage1Code s.flash puf) x.ms)) ∧
    (inStage s 3 = true →
      (s.kiln.utc = none → exec .stage3TimeWait s = .next { s with boot := { s.boot with waited := true } }) ∧
      (∀ (x : StageOut) (vtab : List (Nat × Nat)) (paths : List PathRead), x.code = 0x31 ∨ x.code = 0x32 →
        s.boot.decided = true ∨ s.boot.waited = true ∨ s.kiln.utc ≠ none →
        exec (.stage3 x ⟨vtab, paths⟩) s = .next (stopKindling (decideStart s) 3 x.code x.ms))) ∧
    (inStage s 4 = true → ∀ (x : StageOut) (found : List (List Defect)), (powerWaves s found).2 ≠ 0 →
      let s1 := (powerWaves s found).1
      exec (.stage4 x found) s = .next (stopKindling { s1 with boot := { s1.boot with unrep := true } } 4 (powerWaves s found).2 x.ms)) ∧
    (∀ (n : Nat) (found : List Defect),
      let r := addDefects s.flash (if s.boot.savedOn then 2 else 1) (dayNow s) ((found.filterMap findingOf).filter (waveTests s n))
      powerWave s n found = ({ s with flash := r.1 },
        if r.2 then 0x43 else if twoBadTiles (defects r.1) then 0x41 else if threeBadLanes (defects r.1) then 0x42 else 0)) ∧
    (kilnUp s = true → s.kiln.utc = none → ∀ utc, exec (.ntpAnswer utc) s = .next { s with kiln := { s.kiln with utc := some utc, utcAt := s.clock } }) ∧
    (kilnUp s = true → s.kiln.utc ≠ none → ∀ utc, exec (.ntpAnswer utc) s = .next s) ∧
    (inStage s 7 = true → ∀ ms, exec (.stage7Timeout ms) s = .next (passStage s 7 (linksCode s) ms)) ∧
    (kilnUp s = true → s.boot.booted = 2 → s.flash.copy < 4 → exec .imageCopyDone s = .next (advanceCopy s)) ∧
    (kilnUp s = true → s.boot.booted = 1 → s.flash.copy = 5 → exec .imageCopyDone s =
      .next (postAll { s with flash := { s.flash.putUpd (fun u => { u with staging := 3, copy := 0 }) with active := s.flash.previous } } 0x1C [imgVersion s.flash.previous]))

/-- The transfer service and scheduled activation (R441 to R448): one connection at a time; HELLO is answered with INFO; a header that
passes every check marks STAGING RECEIVING, and one that fails is answered with its status; a chunk at the next offset joins the body;
FINISH keeps a body with the header's digest as VERIFIED; an abort or 30 s without a message empties STAGING; a due activation pauses the
contexts, and restarts the module once its conditions hold, or is cancelled at the end of its window. -/
def Obligations.TransfersAndActivation : Prop :=
  ∀ (s : State),
    (xferUp s = true → s.upd.conn = false → s.boot.recovery = true ∨ s.flash.svcRec.value.port ≠ none → exec .transferConnect s = .next { s with upd := { s.upd with conn := true, header := none, body := [] } }) ∧
    (xferUp s = true → s.upd.conn = true →
      exec .transferConnect s = .next { s with upd := { s.upd with outMsg := some (0x09, 0x01, []) } } ∧
      exec (.hello 1) s = .next { s with upd := { s.upd with outMsg := some (0x02, 0, infoPayload s) } } ∧
      (∀ (h : List Byte) (sigOk : Bool),
        (headerBusy s = false → headerStatus s.flash h sigOk = 0 → exec (.header h sigOk) s = .next { s with
          flash := s.flash.dropStaged.putUpd (fun u => { u with staging := 1 })
          upd := { s.upd with header := some (h, sigOk), body := [], rxKib := 0, outMsg := some (0x04, 0, []) } }) ∧
        (headerBusy s = false → headerStatus s.flash h sigOk ≠ 0 → exec (.header h sigOk) s =
          .next { s with upd := { s.upd with outMsg := some (0x04, headerStatus s.flash h sigOk, []) } }) ∧
        (headerBusy s = true → exec (.header h sigOk) s = .next { s with upd := { s.upd with outMsg := some (0x04, 0x46, []) } })) ∧
      (∀ (h : List Byte) (sigOk : Bool) (off : DWord) (bytes : List Byte), s.upd.header = some (h, sigOk) →
        (0 < bytes.length → bytes.length ≤ 65536 → off.toNat = s.upd.body.length → s.upd.body.length + bytes.length ≤ hdrBodyLen h →
          exec (.chunk off bytes) s = .next { s with upd := { s.upd with
            body := s.upd.body ++ bytes, rxKib := min ((s.upd.body.length + bytes.length) / 1024) 4096
            outMsg := some (0x06, 0, beBytes 8 (s.upd.body.length + bytes.length)) } }) ∧
        (0 < bytes.length → bytes.length ≤ 65536 → off.toNat ≠ s.upd.body.length →
          exec (.chunk off bytes) s = .next { s with upd := { s.upd with outMsg := some (0x06, 0x47, beBytes 8 s.upd.body.length) } }) ∧
        (digest48 s.upd.body = hdrDigest h → s.boot.recovery = false → exec .finish s = .next { s with
          flash := { s.flash.putUpd (fun u => { u with staging := 2 }) with staged := some ⟨h, s.upd.body, sigOk⟩ }
          upd := { s.upd with header := none, body := [], outMsg := some (0x08, 0, []) } }) ∧
        (digest48 s.upd.body ≠ hdrDigest h → exec .finish s = .next { s with
          flash := s.flash.dropStaged
          upd := { s.upd with header := none, body := [], outMsg := some (0x08, 0x48, []) } }))) ∧
    (s.upd.conn = true → s.flash.staging = 1 →
      exec .transferAbort s = .next { s with
        flash := s.flash.dropStaged, upd := { s.upd with conn := false, header := none, body := [] } } ∧
      exec .transferTimeout s = .next { s with
        flash := s.flash.dropStaged
        upd := { s.upd with conn := false, header := none, body := [], outMsg := some (0x09, 0x49, []) } }) ∧
    (kilnUp s = true → s.upd.actSt = 1 → s.upd.actTime.toNat ≤ ftimeNs s.fab →
      exec .activationTime s = .next { pauseAct s with upd := { (pauseAct s).upd with actSt := 2 } }) ∧
    (kilnUp s = true → s.upd.actSt = 2 → actUnmet s = 0 →
      let s1 := postAll s 0x19 [imgVersion s.flash.staged]
      exec .activationStarted s = .next (restartModule { s1 with flash := s1.flash.putUpd (fun u => { u with copy := 1 }) })) ∧
    (kilnUp s = true → s.upd.actSt = 2 → firstUnmet (actUnmet s) ≠ 0 →
      exec .activationCancelled s = .next (postAll { resumeAct s with upd := { (resumeAct s).upd with
        actSt := 4, unmet := firstUnmet (actUnmet s) } } 0x1A [firstUnmet (actUnmet s)]))

/-- The full-start request command records its request in flash; a start that finds the record at its decision is a full one; the record is
cleared once a full start has passed, and a fast one leaves it (R424). -/
def Obligations.FullStartRequestIsKeptUntilServed : Prop :=
  ∀ (s : State),
    (∀ port : Fin 2, takesStart s → ∃ n, exec (.fullStart port) s = .next n ∧ n.flash.fullReq = true ∧ n.kiln.respSt = 0) ∧
    (inStage s 3 = true → s.boot.decided = false → s.boot.waited = true ∨ s.kiln.utc ≠ none → s.flash.fullReq = true →
      ∀ (x : StageOut) (vtab : List (Nat × Nat)) (paths : List PathRead), ∃ n, exec (.stage3 x ⟨vtab, paths⟩) s = .next n ∧
        n.boot.savedOn = false ∧ n.boot.reason ≠ 0 ∧ n.flash.fullReq = true) ∧
    (inStage s 8 = true → ∀ x : StageOut, ∃ n, exec (.stage8 x) s = .next n ∧
      n.flash.fullReq = (s.flash.fullReq && s.boot.savedOn))

/-- SPDM and the side-band (R351, R367, R435 to R438, R472): a served request is answered on its port with vector 20, in the order version,
capabilities, algorithms, then digests, certificate, challenge and measurements, and any other code with ERROR; the side-band reads the FRU
area, telemetry and the cap's status, and sets the cap, while the module is on and the PEC is right. The SPDM codes, the request order
and the signed transcript are the model's, from SPDM 1.2 (log entry 118). -/
def Obligations.SpdmAndSideBandAnswer : Prop :=
  ∀ (s : State) (port : Fin 2),
    let x := spdmOf s port.val
    let said (y : SpdmConn) : State := raiseVec (setSpdm s port.val y) port.val 20
    (kilnUp s = true → (hostOf s port.val).linkUp = true → 2 ≤ s.boot.stage →
      exec (.getVersion port) s = .next (said ⟨true, false, false, some (.version [0x12])⟩) ∧
      (x.version = true → exec (.getCapabilities port) s = .next (said { x with caps := true, last := some (.capabilities true true 2 17) })) ∧
      (x.caps = true → exec (.negotiateAlgorithms port true true) s = .next (said { x with algs := true, last := some (.algorithms 384 384) })) ∧
      (x.algs = true →
        exec (.getDigests port) s = .next (said { x with
          last := some (.digests (if s.flash.chainRec.valid then digest48 (chainBytes s) else [])) }) ∧
        (∀ off len, exec (.getCertificate port 0 off len) s = .next (said { x with
          last := some (if (chainBytes s).length ≤ off then .error 0x01
            else .certificate (((chainBytes s).drop off).take len) ((chainBytes s).length - off - len)) })) ∧
        (∀ nonce, exec (.challenge port 0 nonce) s = .next (said { x with
          last := some (.challengeAuth (digest48 (measurementBytes (allMeasurements s)))
            (deviceSign s (nonce ++ digest48 (chainBytes s) ++ digest48 (measurementBytes (allMeasurements s))))) })) ∧
        (∀ (idx : Nat) (sign : Bool) (nonce : List Byte), exec (.getMeasurements port idx sign nonce) s =
          .next (said { x with last := some (measurementResp s idx sign nonce) }))) ∧
      (∀ code : Byte, servedCodes.contains code.toNat = false →
        exec (.spdmUnsupported port code) s = .next (said { x with last := some (.error 0x07) }))) ∧
    (s.pwr.isOn = true →
      (∀ off : BitVec 16, exec (.fruRead off true) s = .next { s with
        smb := ⟨true, (List.range 32).map (fun i => if off.toNat + i < 512 then Config.fruArea (off.toNat + i) else 0)⟩ }) ∧
      exec (.telemetry true) s = .next { s with smb := ⟨true, (telemetryWords s).flatMap (fun w => leBytes 4 w.toNat)⟩ } ∧
      exec (.capStatus true) s = .next { s with smb := ⟨true, leBytes 1 s.pwr.capStatus⟩ } ∧
      (∀ w : BitVec 16, w.toNat = 0 ∨ (3000 ≤ w.toNat ∧ w.toNat ≤ 6400) → exec (.capSet w true) s =
        .next { powerNow s { s.pwr with capBmc := w.toNat, capStatus := 0 } with smb := ⟨true, []⟩ }) ∧
      (∀ w : BitVec 16, w.toNat ≠ 0 → w.toNat < 3000 ∨ 6400 < w.toNat → exec (.capSet w true) s =
        .next { powerNow s { s.pwr with capStatus := 0x04 } with smb := ⟨true, []⟩ }))

/-- Every step keeps the memories canonical: HBM, DDR5 and the Tier Map list their addresses in rising order and list nothing that reads as an
unlisted address does (R206, R208, R209). -/
def Obligations.EveryStepKeepsMemoryCanonical : Prop :=
  ∀ s t : State, memoryWf s = true → stepsTo s t → memoryWf t = true

/-- No step changes what identifies the module, lowers its anti-rollback counter, forgets a frame of the retired frame record or draws a
free value again; and it takes at most the command at the front of the queue (R31, R228, R326, R439, R440, R483). -/
def Obligations.EveryStepKeepsWhatLasts : Prop :=
  ∀ s t : State, stepsTo s t → Lasting s t ∧ t.pending = s.pending.tail

/-- The state after reset: VIN is absent, nothing runs and nothing is set up, memory is canonical with nothing mapped; the counter holds 0 and
a stream's EVERY 0x10; both ports are free and their BAR2 windows closed (R209, R320, R336, R372, R390, R440). -/
def Obligations.ResetHoldsItsValues : Prop :=
  let s := State.reset
  s.pending = [] ∧ memoryWf s = true ∧ s.mem.tmap = [] ∧ s.pwr.isOn = false ∧ s.pwr.qualifier = false ∧ s.boot.running = false ∧
  s.flash.counter = 0 ∧ (∀ p < 8, (partOf s p).on = false) ∧ (∀ c < 256, ctxLive s c = false) ∧
  (∀ k, (cordOf s.fab k).valid = false) ∧ (∀ i, (emberOf s i).every = 16 ∧ (emberOf s i).valid = false) ∧
  (∀ p < 2, (hostOf s p).st = 0 ∧ (hostOf s p).bar2 = none) ∧ (∀ t, (tileOf s t).st = .idle) ∧
  (∀ n < 8, (fieldOf s.pwr n).st = 0) ∧ s.kiln.logSeq = 0 ∧ s.kiln.traceEn = 0

/-- Tiles start, abort and halt as R147, R199 and R200 say. -/
def Obligations.TilesStartAndStop : Prop :=
  Sys2Proof.StartBeginsAStep ∧ Sys2Proof.AbortAndHaltStopATile

/-- Training, retraining and fencing of a link. -/
def Obligations.LinksTrainRetrainAndFence : Prop :=
  Sys2Proof.RetrainOrFence ∧ Sys2Proof.TrainingEndsInItsState

/-- Signal, lasers and blades. -/
def Obligations.LightLasersAndBlades : Prop :=
  Sys2Proof.SignalAndLaserEvents ∧ Sys2Proof.BladesComeAndGo

/-- An inbound write is checked once, and its words land or wait. -/
def Obligations.InboundWritesAreCheckedAndLand : Prop :=
  Sys2Proof.InboundWriteIsCheckedOnce ∧ Sys2Proof.InboundWordLandsOrWaits

/-- Submissions are taken, and steps start and end. -/
def Obligations.SubmissionsAndStepsRun : Prop :=
  Sys2Proof.SubmissionsAreTaken ∧ Sys2Proof.StepsStartAndEnd

/-- A mover starts its operation, or refuses a transfer that is not translated. -/
def Obligations.MoversStartOrRefuse : Prop :=
  Sys2Proof.MoversStartTheirOperations ∧ Sys2Proof.UntranslatedTransferIsRefused

/-- The sending side of a port, and the admission of a peer. -/
def Obligations.PortsSendAndAdmit : Prop :=
  Sys2Proof.PortsSendAndGiveUp ∧ Sys2Proof.IdentAdmitsTheNamedPeer

/-- Received frames are read in order, and the crossbar takes their flits. -/
def Obligations.ReceivedFlitsInOrder : Prop :=
  Sys2Proof.FramesAreReadInOrder ∧ Sys2Proof.CrossbarTakesFlits

/-- The operations of the control slot. -/
def Obligations.ControlSlotOperations : Prop :=
  Sys2Proof.ControlResultsOfTheTable ∧ Sys2Proof.FlowControlMovesTheSequencer ∧ Sys2Proof.ControlEffectsOnTheTile
end

