-- ==== Sys2Proof/Laws/Dispatch.lean ====
section
/-! SUPPORT. One equation per command: what exec calls for it, so that no proof unfolds the dispatch. -/

namespace Sys2Proof.Machine

theorem exec_logicalCycle (t : Fin 2048) (up : CycleEnv) (s : State) : exec (.logicalCycle t up) s = execLogicalCycle t up s := rfl
theorem exec_beatToken (t : Fin 2048) (d : Dir) (s : State) : exec (.beatToken t d) s = execBeatToken t d s := rfl
theorem exec_cycleLimit (t : Fin 2048) (s : State) : exec (.cycleLimit t) s = execCycleLimit t s := rfl
theorem exec_nop (t : Fin 2048) (slot : Fin 4) (s : State) : exec (.nop t slot) s = execNop t slot s := rfl
theorem exec_ldi (t : Fin 2048) (d : Fin 16) (mode : Fin 4) (imm : BitVec 16) (s : State) : exec (.ldi t d mode imm) s = execLdi t d mode imm s := rfl
theorem exec_salu (t : Fin 2048) (d : Fin 16) (a : Fin 16) (b : Fin 16) (fn : Fin 16) (s : State) : exec (.salu t d a b fn) s = execSalu t d a b fn s := rfl
theorem exec_saddi (t : Fin 2048) (d : Fin 16) (a : Fin 16) (imm : BitVec 16) (s : State) : exec (.saddi t d a imm) s = execSaddi t d a imm s := rfl
theorem exec_adset (t : Fin 2048) (n : Fin 32) (a : Fin 16) (b : Fin 16) (s : State) : exec (.adset t n a b) s = execAdset t n a b s := rfl
theorem exec_loop (t : Fin 2048) (csrc : Bool) (cnt : BitVec 12) (stop : BitVec 13) (s : State) : exec (.loop t csrc cnt stop) s = execLoop t csrc cnt stop s := rfl
theorem exec_jmp (t : Fin 2048) (target : BitVec 13) (s : State) : exec (.jmp t target) s = execJmp t target s := rfl
theorem exec_bnz (t : Fin 2048) (a : Fin 16) (target : BitVec 13) (s : State) : exec (.bnz t a target) s = execBnz t a target s := rfl
theorem exec_bown (t : Fin 2048) (mask : BitVec 16) (port : Fin 4) (s : State) : exec (.bown t mask port) s = execBown t mask port s := rfl
theorem exec_cclr (t : Fin 2048) (mask : BitVec 3) (s : State) : exec (.cclr t mask) s = execCclr t mask s := rfl
theorem exec_rdsr (t : Fin 2048) (d : Fin 16) (sel : Fin 16) (s : State) : exec (.rdsr t d sel) s = execRdsr t d sel s := rfl
theorem exec_digclr (t : Fin 2048) (s : State) : exec (.digclr t) s = execDigclr t s := rfl
theorem exec_event (t : Fin 2048) (code : BitVec 16) (s : State) : exec (.event t code) s = execEvent t code s := rfl
theorem exec_done (t : Fin 2048) (s : State) : exec (.done t) s = execDone t s := rfl
theorem exec_wload (t : Fin 2048) (didx : BitVec 13) (s : State) : exec (.wload t didx) s = execWload t didx s := rfl
theorem exec_stream (t : Fin 2048) (didx : BitVec 13) (prob : Fin 8) (swap : Bool) (asrc : Bool) (asc : Fin 16) (s : State) : exec (.stream t didx prob swap asrc asc) s = execStream t didx prob swap asrc asc s := rfl
theorem exec_drain (t : Fin 2048) (didx : BitVec 13) (s : State) : exec (.drain t didx) s = execDrain t didx s := rfl
theorem exec_aclr (t : Fin 2048) (first : Fin 128) (last : Fin 128) (s : State) : exec (.aclr t first last) s = execAclr t first last s := rfl
theorem exec_mode (t : Fin 2048) (hsplit : Bool) (pjoin : Fin 4) (s : State) : exec (.mode t hsplit pjoin) s = execMode t hsplit pjoin s := rfl
theorem exec_vmov (t : Fin 2048) (f : VReg) (s : State) : exec (.vmov t f) s = execVmov t f s := rfl
theorem exec_vbcast (t : Fin 2048) (f : VReg) (s : State) : exec (.vbcast t f) s = execVbcast t f s := rfl
theorem exec_vadd (t : Fin 2048) (f : VReg) (s : State) : exec (.vadd t f) s = execVadd t f s := rfl
theorem exec_vsub (t : Fin 2048) (f : VReg) (s : State) : exec (.vsub t f) s = execVsub t f s := rfl
theorem exec_vmul (t : Fin 2048) (f : VReg) (s : State) : exec (.vmul t f) s = execVmul t f s := rfl
theorem exec_vfma (t : Fin 2048) (f : VReg) (s : State) : exec (.vfma t f) s = execVfma t f s := rfl
theorem exec_vmax (t : Fin 2048) (f : VReg) (s : State) : exec (.vmax t f) s = execVmax t f s := rfl
theorem exec_vmin (t : Fin 2048) (f : VReg) (s : State) : exec (.vmin t f) s = execVmin t f s := rfl
theorem exec_vrsum (t : Fin 2048) (f : VReg) (s : State) : exec (.vrsum t f) s = execVrsum t f s := rfl
theorem exec_vrmax (t : Fin 2048) (f : VReg) (s : State) : exec (.vrmax t f) s = execVrmax t f s := rfl
theorem exec_vexp2 (t : Fin 2048) (f : VReg) (s : State) : exec (.vexp2 t f) s = execVexp2 t f s := rfl
theorem exec_vlog2 (t : Fin 2048) (f : VReg) (s : State) : exec (.vlog2 t f) s = execVlog2 t f s := rfl
theorem exec_vrcp (t : Fin 2048) (f : VReg) (s : State) : exec (.vrcp t f) s = execVrcp t f s := rfl
theorem exec_vrsq (t : Fin 2048) (f : VReg) (s : State) : exec (.vrsq t f) s = execVrsq t f s := rfl
theorem exec_vld (t : Fin 2048) (f : VMem) (s : State) : exec (.vld t f) s = execVld t f s := rfl
theorem exec_vst (t : Fin 2048) (f : VMem) (s : State) : exec (.vst t f) s = execVst t f s := rfl
theorem exec_vqnt (t : Fin 2048) (f : VMem) (s : State) : exec (.vqnt t f) s = execVqnt t f s := rfl
theorem exec_vdqt (t : Fin 2048) (f : VMem) (s : State) : exec (.vdqt t f) s = execVdqt t f s := rfl
theorem exec_vscan (t : Fin 2048) (f : VMem) (s : State) : exec (.vscan t f) s = execVscan t f s := rfl
theorem exec_vdig (t : Fin 2048) (f : VMem) (s : State) : exec (.vdig t f) s = execVdig t f s := rfl
theorem exec_put (t : Fin 2048) (ad : Fin 32) (didx : BitVec 13) (pinc : Bool) (s : State) : exec (.put t ad didx pinc) s = execPut t ad didx pinc s := rfl
theorem exec_mreq (t : Fin 2048) (ad : Fin 32) (didx : BitVec 13) (pinc : Bool) (s : State) : exec (.mreq t ad didx pinc) s = execMreq t ad didx pinc s := rfl
theorem exec_wopen (t : Fin 2048) (win : Fin 16) (didx : BitVec 13) (s : State) : exec (.wopen t win didx) s = execWopen t win didx s := rfl
theorem exec_wclose (t : Fin 2048) (win : Fin 16) (s : State) : exec (.wclose t win) s = execWclose t win s := rfl
theorem exec_tfull (t : Fin 2048) (slot : Fin 1024) (s : State) : exec (.tfull t slot) s = execTfull t slot s := rfl
theorem exec_tempty (t : Fin 2048) (slot : Fin 1024) (s : State) : exec (.tempty t slot) s = execTempty t slot s := rfl
theorem exec_pld (t : Fin 2048) (ad : Fin 32) (idx : BitVec 12) (kind : Bool) (pinc : Bool) (s : State) : exec (.pld t ad idx kind pinc) s = execPld t ad idx kind pinc s := rfl
theorem exec_tagStall (t : Fin 2048) (s : State) : exec (.tagStall t) s = execTagStall t s := rfl
theorem exec_flitReceive (t : Fin 2048) (d : Dir) (e : FlitErr) (s : State) : exec (.flitReceive t d e) s = execFlitReceive t d e s := rfl
theorem exec_notify (t : Fin 2048) (s : State) : exec (.notify t) s = execNotify t s := rfl
theorem exec_barArrive (t : Fin 2048) (cord : Fin 4096) (ch : Fin 4) (count : Fin 4096) (s : State) : exec (.barArrive t cord ch count) s = execBarArrive t cord ch count s := rfl
theorem exec_barRelease (part : Fin 8) (cord : Fin 4096) (ch : Fin 4) (s : State) : exec (.barRelease part cord ch) s = execBarRelease part cord ch s := rfl
theorem exec_regWrite (t : Fin 2048) (tgt : RegTgt) (v : RegVal) (s : State) : exec (.regWrite t tgt v) s = execRegWrite t tgt v s := rfl
theorem exec_regRead (t : Fin 2048) (off : Fin 1024) (s : State) : exec (.regRead t off) s = execRegRead t off s := rfl
theorem exec_regData (t : Fin 2048) (s : State) : exec (.regData t) s = execRegData t s := rfl
theorem exec_inboundWrite (t : Fin 2048) (s : State) : exec (.inboundWrite t) s = execInboundWrite t s := rfl
theorem exec_inboundWord (t : Fin 2048) (s : State) : exec (.inboundWord t) s = execInboundWord t s := rfl
theorem exec_negativeCompletion (t : Fin 2048) (s : State) : exec (.negativeCompletion t) s = execNegativeCompletion t s := rfl
theorem exec_pullRead (t : Fin 2048) (s : State) : exec (.pullRead t) s = execPullRead t s := rfl
theorem exec_mreqDeliveryWord (t : Fin 2048) (s : State) : exec (.mreqDeliveryWord t) s = execMreqDeliveryWord t s := rfl
theorem exec_edgeSlotFill (e : Fin 188) (cyc : Nat) (s : State) : exec (.edgeSlotFill e cyc) s = execEdgeSlotFill e cyc s := rfl
theorem exec_moverRequest (e : Fin 188) (s : State) : exec (.moverRequest e) s = execMoverRequest e s := rfl
theorem exec_get (m : Fin 64) (pos : Nat) (s : State) : exec (.get m pos) s = execGet m pos s := rfl
theorem exec_putm (m : Fin 64) (pos : Nat) (s : State) : exec (.putm m pos) s = execPutm m pos s := rfl
theorem exec_getw (m : Fin 64) (pos : Nat) (s : State) : exec (.getw m pos) s = execGetw m pos s := rfl
theorem exec_cget (m : Fin 64) (pos : Nat) (s : State) : exec (.cget m pos) s = execCget m pos s := rfl
theorem exec_cput (m : Fin 64) (pos : Nat) (s : State) : exec (.cput m pos) s = execCput m pos s := rfl
theorem exec_migrate (m : Fin 64) (pos : Nat) (s : State) : exec (.migrate m pos) s = execMigrate m pos s := rfl
theorem exec_cordWrite (m : Fin 64) (pos : Nat) (s : State) : exec (.cordWrite m pos) s = execCordWrite m pos s := rfl
theorem exec_cordGather (m : Fin 64) (pos : Nat) (s : State) : exec (.cordGather m pos) s = execCordGather m pos s := rfl
theorem exec_cordContrib (m : Fin 64) (pos : Nat) (s : State) : exec (.cordContrib m pos) s = execCordContrib m pos s := rfl
theorem exec_visibilityPoint (id : Nat) (s : State) : exec (.visibilityPoint id) s = execVisibilityPoint id s := rfl
theorem exec_migrateCopyDone (page : Nat) (err : Bool) (s : State) : exec (.migrateCopyDone page err) s = execMigrateCopyDone page err s := rfl
theorem exec_oldFrameRelease (page : Nat) (s : State) : exec (.oldFrameRelease page) s = execOldFrameRelease page s := rfl
theorem exec_freeQueueRefill (tier : Fin 2) (frames : Nat) (s : State) : exec (.freeQueueRefill tier frames) s = execFreeQueueRefill tier frames s := rfl
theorem exec_memUncorrectable (who : UeWho) (tier : Fin 2) (frame : Nat) (s : State) : exec (.memUncorrectable who tier frame) s = execMemUncorrectable who tier frame s := rfl
theorem exec_retirementCopy (page : Nat) (badBlocks : List Nat) (s : State) : exec (.retirementCopy page badBlocks) s = execRetirementCopy page badBlocks s := rfl
theorem exec_correctedErrorLimit (tier : Fin 2) (e : FrameErr) (s : State) : exec (.correctedErrorLimit tier e) s = execCorrectedErrorLimit tier e s := rfl
theorem exec_scrubError (tier : Fin 2) (frame : Nat) (s : State) : exec (.scrubError tier frame) s = execScrubError tier frame s := rfl
theorem exec_tmapEccError (page : Nat) (s : State) : exec (.tmapEccError page) s = execTmapEccError page s := rfl
theorem exec_laserFail (b : Fin 6) (laser : Fin 20) (wear : Bool) (s : State) : exec (.laserFail b laser wear) s = execLaserFail b laser wear s := rfl
theorem exec_spareLaserStable (b : Fin 6) (w : Fin 4) (s : State) : exec (.spareLaserStable b w) s = execSpareLaserStable b w s := rfl
theorem exec_resyncDone (l : Fin 96) (s : State) : exec (.resyncDone l) s = execResyncDone l s := rfl
theorem exec_lossOfSignal (l : Fin 96) (s : State) : exec (.lossOfSignal l) s = execLossOfSignal l s := rfl
theorem exec_laneSyncRegained (l : Fin 96) (s : State) : exec (.laneSyncRegained l) s = execLaneSyncRegained l s := rfl
theorem exec_pausedTimeout (l : Fin 96) (s : State) : exec (.pausedTimeout l) s = execPausedTimeout l s := rfl
theorem exec_bladeDrawn (b : Fin 6) (s : State) : exec (.bladeDrawn b) s = execBladeDrawn b s := rfl
theorem exec_bladeInserted (b : Fin 6) (s : State) : exec (.bladeInserted b) s = execBladeInserted b s := rfl
theorem exec_linkFlitReceive (l : Fin 96) (x : LineRead) (s : State) : exec (.linkFlitReceive l x) s = execLinkFlitReceive l x s := rfl
theorem exec_ackTimeout (l : Fin 96) (vc : Fin 3) (s : State) : exec (.ackTimeout l vc) s = execAckTimeout l vc s := rfl
theorem exec_linkErrorRate (l : Fin 96) (s : State) : exec (.linkErrorRate l) s = execLinkErrorRate l s := rfl
theorem exec_linkTrain (l : Fin 96) (s : State) : exec (.linkTrain l) s = execLinkTrain l s := rfl
theorem exec_trainingComplete (l : Fin 96) (ok : Bool) (rtt : Nat) (s : State) : exec (.trainingComplete l ok rtt) s = execTrainingComplete l ok rtt s := rfl
theorem exec_fenceExpiry (l : Fin 96) (s : State) : exec (.fenceExpiry l) s = execFenceExpiry l s := rfl
theorem exec_linkLeaveUp (l : Fin 96) (s : State) : exec (.linkLeaveUp l) s = execLinkLeaveUp l s := rfl
theorem exec_retryBufferExpiry (l : Fin 96) (s : State) : exec (.retryBufferExpiry l) s = execRetryBufferExpiry l s := rfl
theorem exec_ident (l : Fin 96) (rec : IdentRec) (s : State) : exec (.ident l rec) s = execIdent l rec s := rfl
theorem exec_fence (l : Fin 96) (secs : Fin 601) (s : State) : exec (.fence l secs) s = execFence l secs s := rfl
theorem exec_write (l : Fin 96) (h : PktHdr) (words : List (List Byte)) (s : State) : exec (.write l h words) s = execWrite l h words s := rfl
theorem exec_gather (l : Fin 96) (h : PktHdr) (words : List (List Byte)) (s : State) : exec (.gather l h words) s = execGather l h words s := rfl
theorem exec_contrib (l : Fin 96) (h : PktHdr) (words : List (List Byte)) (s : State) : exec (.contrib l h words) s = execContrib l h words s := rfl
theorem exec_partialSum (l : Fin 96) (h : PktHdr) (words : List (List Byte)) (s : State) : exec (.partialSum l h words) s = execPartialSum l h words s := rfl
theorem exec_redSlotStall (k : Fin 24) (slot : Fin 128) (s : State) : exec (.redSlotStall k slot) s = execRedSlotStall k slot s := rfl
theorem exec_compl (x : Compl) (s : State) : exec (.compl x) s = execCompl x s := rfl
theorem exec_packetRetry (n : Nat) (expired : Bool) (s : State) : exec (.packetRetry n expired) s = execPacketRetry n expired s := rfl
theorem exec_moduleArrived (cord : Fin 4096) (ch : Fin 4) (s : State) : exec (.moduleArrived cord ch) s = execModuleArrived cord ch s := rfl
theorem exec_barrier (l : Fin 96) (h : PktHdr) (ch : Fin 4) (gen : Fin 256) (krec : KRec) (s : State) : exec (.barrier l h ch gen krec) s = execBarrier l h ch gen krec s := rfl
theorem exec_linkstate (l : Fin 96) (dst : BitVec 16) (src : BitVec 16) (dim : Fin 3) (m : LineMask) (s : State) : exec (.linkstate l dst src dim m) s = execLinkstate l dst src dim m s := rfl
theorem exec_linkstateTimer (s : State) : exec (.linkstateTimer) s = execLinkstateTimer s := rfl
theorem exec_timeExchange (root : BitVec 16) (s : State) : exec (.timeExchange root) s = execTimeExchange root s := rfl
theorem exec_time (l : Fin 96) (dst : BitVec 16) (src : BitVec 16) (stamps : TimeStamps) (s : State) : exec (.time l dst src stamps) s = execTime l dst src stamps s := rfl
theorem exec_ftimeSyncLost (s : State) : exec (.ftimeSyncLost) s = execFtimeSyncLost s := rfl
theorem exec_kilnBarrierArrive (c : Fin 256) (kind : Fin 4) (s : State) : exec (.kilnBarrierArrive c kind) s = execKilnBarrierArrive c kind s := rfl
theorem exec_kilnBarrierRelease (cord : Fin 4096) (s : State) : exec (.kilnBarrierRelease cord) s = execKilnBarrierRelease cord s := rfl
theorem exec_quiesceDone (c : Fin 256) (s : State) : exec (.quiesceDone c) s = execQuiesceDone c s := rfl
theorem exec_flood (c : Fin 256) (s : State) : exec (.flood c) s = execFlood c s := rfl
theorem exec_sectionTimeout (c : Fin 256) (s : State) : exec (.sectionTimeout c) s = execSectionTimeout c s := rfl
theorem exec_peerLost (l : Fin 96) (s : State) : exec (.peerLost l) s = execPeerLost l s := rfl
theorem exec_droop (t : Fin 2048) (low : Bool) (s : State) : exec (.droop t low) s = execDroop t low s := rfl
theorem exec_regionMonitorTick (n : Fin 128) (warn : Bool) (s : State) : exec (.regionMonitorTick n warn) s = execRegionMonitorTick n warn s := rfl
theorem exec_oscRecalibration (n : Fin 128) (s : State) : exec (.oscRecalibration n) s = execOscRecalibration n s := rfl
theorem exec_stepLaunch (part : Fin 8) (s : State) : exec (.stepLaunch part) s = execStepLaunch part s := rfl
theorem exec_start (t : Fin 2048) (s : State) : exec (.start t) s = execStart t s := rfl
theorem exec_abort (t : Fin 2048) (s : State) : exec (.abort t) s = execAbort t s := rfl
theorem exec_halt (t : Fin 2048) (s : State) : exec (.halt t) s = execHalt t s := rfl
theorem exec_stepEnd (c : Fin 256) (s : State) : exec (.stepEnd c) s = execStepEnd c s := rfl
theorem exec_registerWrite (port : Fin 2) (off : Fin 16777216) (v : Word) (s : State) : exec (.registerWrite port off v) s = execRegisterWrite port off v s := rfl
theorem exec_loReadLatch (port : Fin 2) (off : Fin 16777216) (s : State) : exec (.loReadLatch port off) s = execLoReadLatch port off s := rfl
theorem exec_bar0InvalidAccess (port : Fin 2) (off : Fin 16777216) (isWrite : Bool) (len : Fin 513) (s : State) : exec (.bar0InvalidAccess port off isWrite len) s = execBar0InvalidAccess port off isWrite len s := rfl
theorem exec_bar2Read (port : Fin 2) (off : Fin 1099511627776) (len : Fin 4097) (s : State) : exec (.bar2Read port off len) s = execBar2Read port off len s := rfl
theorem exec_bar2Write (port : Fin 2) (off : Fin 1099511627776) (data : List Byte) (s : State) : exec (.bar2Write port off data) s = execBar2Write port off data s := rfl
theorem exec_configRequest (port : Fin 2) (q : CfgReq) (s : State) : exec (.configRequest port q) s = execConfigRequest port q s := rfl
theorem exec_standbyQualifierStart (mv : Nat) (s : State) : exec (.standbyQualifierStart mv) s = execStandbyQualifierStart mv s := rfl
theorem exec_pwrEnAssert (s : State) : exec (.pwrEnAssert) s = execPwrEnAssert s := rfl
theorem exec_powerUp (straps : Fin 4) (s : State) : exec (.powerUp straps) s = execPowerUp straps s := rfl
theorem exec_pwrEnDeassert (s : State) : exec (.pwrEnDeassert) s = execPwrEnDeassert s := rfl
theorem exec_powerDown (s : State) : exec (.powerDown) s = execPowerDown s := rfl
theorem exec_forceOff (s : State) : exec (.forceOff) s = execForceOff s := rfl
theorem exec_vinFault (mv : Nat) (s : State) : exec (.vinFault mv) s = execVinFault mv s := rfl
theorem exec_vinOutOfRange (mv : Nat) (s : State) : exec (.vinOutOfRange mv) s = execVinOutOfRange mv s := rfl
theorem exec_currentLimitAssert (w : LimSrc) (s : State) : exec (.currentLimitAssert w) s = execCurrentLimitAssert w s := rfl
theorem exec_currentLimitRelease (w : LimSrc) (s : State) : exec (.currentLimitRelease w) s = execCurrentLimitRelease w s := rfl
theorem exec_fieldLimitPersist (n : Fin 8) (s : State) : exec (.fieldLimitPersist n) s = execFieldLimitPersist n s := rfl
theorem exec_converterFail (s : State) : exec (.converterFail) s = execConverterFail s := rfl
theorem exec_phaseFault (n : Fin 8) (bank : Fin 4) (s : State) : exec (.phaseFault n bank) s = execPhaseFault n bank s := rfl
theorem exec_chargeInjectorConnect (n : Fin 128) (s : State) : exec (.chargeInjectorConnect n) s = execChargeInjectorConnect n s := rfl
theorem exec_chargeInjectorDisconnect (n : Fin 128) (s : State) : exec (.chargeInjectorDisconnect n) s = execChargeInjectorDisconnect n s := rfl
theorem exec_shuntClampEngage (n : Fin 128) (s : State) : exec (.shuntClampEngage n) s = execShuntClampEngage n s := rfl
theorem exec_shuntClampRelease (n : Fin 128) (s : State) : exec (.shuntClampRelease n) s = execShuntClampRelease n s := rfl
theorem exec_capLoopTick (watts : Nat) (s : State) : exec (.capLoopTick watts) s = execCapLoopTick watts s := rfl
theorem exec_energyMeterTick (x : MeterRead) (s : State) : exec (.energyMeterTick x) s = execEnergyMeterTick x s := rfl
theorem exec_thermalStageEnter (kind : Fin 5) (idx : Fin 128) (temp : Int) (s : State) : exec (.thermalStageEnter kind idx temp) s = execThermalStageEnter kind idx temp s := rfl
theorem exec_thermalStageLeave (kind : Fin 5) (idx : Fin 128) (temp : Int) (s : State) : exec (.thermalStageLeave kind idx temp) s = execThermalStageLeave kind idx temp s := rfl
theorem exec_thermalCeilingTick (n : Fin 128) (s : State) : exec (.thermalCeilingTick n) s = execThermalCeilingTick n s := rfl
theorem exec_thermalTrip (kind : Fin 5) (idx : Fin 128) (s : State) : exec (.thermalTrip kind idx) s = execThermalTrip kind idx s := rfl
theorem exec_headroomTest (mean : Nat) (s : State) : exec (.headroomTest mean) s = execHeadroomTest mean s := rfl
theorem exec_quarterRateStart (s : State) : exec (.quarterRateStart) s = execQuarterRateStart s := rfl
theorem exec_softStartDone (n : Fin 8) (s : State) : exec (.softStartDone n) s = execSoftStartDone n s := rfl
theorem exec_throttleAssert (s : State) : exec (.throttleAssert) s = execThrottleAssert s := rfl
theorem exec_throttleDeassert (s : State) : exec (.throttleDeassert) s = execThrottleDeassert s := rfl
theorem exec_throttleHeld (s : State) : exec (.throttleHeld) s = execThrottleHeld s := rfl
theorem exec_portReset (port : Fin 2) (how : PortRst) (s : State) : exec (.portReset port how) s = execPortReset port how s := rfl
theorem exec_portTrain (port : Fin 2) (s : State) : exec (.portTrain port) s = execPortTrain port s := rfl
theorem exec_ring (port : Fin 2) (m : Fin 16) (s : State) : exec (.ring port m) s = execRing port m s := rfl
theorem exec_ack (port : Fin 2) (m : Fin 16) (s : State) : exec (.ack port m) s = execAck port m s := rfl
theorem exec_commandTake (port : Fin 2) (m : Fin 16) (theirs : LockSide) (s : State) : exec (.commandTake port m theirs) s = execCommandTake port m theirs s := rfl
theorem exec_ringDb (port : Fin 2) (c : Fin 256) (s : State) : exec (.ringDb port c) s = execRingDb port c s := rfl
theorem exec_msixSend (port : Fin 2) (v : Fin 2048) (s : State) : exec (.msixSend port v) s = execMsixSend port v s := rfl
theorem exec_heartbeatSample (port : Fin 2) (s : State) : exec (.heartbeatSample port) s = execHeartbeatSample port s := rfl
theorem exec_hostHoldExpiry (port : Fin 2) (s : State) : exec (.hostHoldExpiry port) s = execHostHoldExpiry port s := rfl
theorem exec_info (port : Fin 2) (s : State) : exec (.info port) s = execInfo port s := rfl
theorem exec_timeSet (port : Fin 2) (utc : DWord) (s : State) : exec (.timeSet port utc) s = execTimeSet port utc s := rfl
theorem exec_restart (port : Fin 2) (s : State) : exec (.restart port) s = execRestart port s := rfl
theorem exec_fullStart (port : Fin 2) (s : State) : exec (.fullStart port) s = execFullStart port s := rfl
theorem exec_defectRead (port : Fin 2) (kind : Byte) (off : Word) (s : State) : exec (.defectRead port kind off) s = execDefectRead port kind off s := rfl
theorem exec_activate (port : Fin 2) (at_ : DWord) (window : BitVec 16) (s : State) : exec (.activate port at_ window) s = execActivate port at_ window s := rfl
theorem exec_activateCancel (port : Fin 2) (s : State) : exec (.activateCancel port) s = execActivateCancel port s := rfl
theorem exec_attach (port : Fin 2) (a : AttachArgs) (s : State) : exec (.attach port a) s = execAttach port a s := rfl
theorem exec_detach (port : Fin 2) (s : State) : exec (.detach port) s = execDetach port s := rfl
theorem exec_bar2Window (port : Fin 2) (page : Word) (s : State) : exec (.bar2Window port page) s = execBar2Window port page s := rfl
theorem exec_traceConfig (port : Fin 2) (mask : DWord) (s : State) : exec (.traceConfig port mask) s = execTraceConfig port mask s := rfl
theorem exec_partConfig (port : Fin 2) (part : Byte) (fmask : Byte) (mode : Byte) (gang : Byte) (s : State) : exec (.partConfig port part fmask mode gang) s = execPartConfig port part fmask mode gang s := rfl
theorem exec_partPowerOn (port : Fin 2) (part : Byte) (s : State) : exec (.partPowerOn port part) s = execPartPowerOn port part s := rfl
theorem exec_partPowerOff (port : Fin 2) (part : Byte) (s : State) : exec (.partPowerOff port part) s = execPartPowerOff port part s := rfl
theorem exec_partitionOffDrained (part : Fin 8) (s : State) : exec (.partitionOffDrained part) s = execPartitionOffDrained part s := rfl
theorem exec_powerPolicy (port : Fin 2) (cap : BitVec 16) (part : Byte) (mode : Byte) (stp : Byte) (s : State) : exec (.powerPolicy port cap part mode stp) s = execPowerPolicy port cap part mode stp s := rfl
theorem exec_tileReset (port : Fin 2) (target : BitVec 16) (s : State) : exec (.tileReset port target) s = execTileReset port target s := rfl
theorem exec_clusterReset (port : Fin 2) (target : BitVec 16) (s : State) : exec (.clusterReset port target) s = execClusterReset port target s := rfl
theorem exec_partitionReset (port : Fin 2) (target : BitVec 16) (s : State) : exec (.partitionReset port target) s = execPartitionReset port target s := rfl
theorem exec_computeReset (port : Fin 2) (selftest : Byte) (s : State) : exec (.computeReset port selftest) s = execComputeReset port selftest s := rfl
theorem exec_deviceReset (port : Fin 2) (selftest : Byte) (s : State) : exec (.deviceReset port selftest) s = execDeviceReset port selftest s := rfl
theorem exec_resetApply (found : List Defect) (s : State) : exec (.resetApply found) s = execResetApply found s := rfl
theorem exec_resetMoverCancel (s : State) : exec (.resetMoverCancel) s = execResetMoverCancel s := rfl
theorem exec_ctxCreate (port : Fin 2) (a : CtxArgs) (s : State) : exec (.ctxCreate port a) s = execCtxCreate port a s := rfl
theorem exec_ctxPause (port : Fin 2) (c : Byte) (s : State) : exec (.ctxPause port c) s = execCtxPause port c s := rfl
theorem exec_ctxResume (port : Fin 2) (c : Byte) (s : State) : exec (.ctxResume port c) s = execCtxResume port c s := rfl
theorem exec_ctxDestroy (port : Fin 2) (c : Byte) (s : State) : exec (.ctxDestroy port c) s = execCtxDestroy port c s := rfl
theorem exec_ctxRestore (port : Fin 2) (c : Byte) (a : RestoreArgs) (s : State) : exec (.ctxRestore port c a) s = execCtxRestore port c a s := rfl
theorem exec_tmapMap (port : Fin 2) (first : Word) (count : Word) (part : Byte) (tier : Byte) (writable : Byte) (s : State) : exec (.tmapMap port first count part tier writable) s = execTmapMap port first count part tier writable s := rfl
theorem exec_tmapUnmap (port : Fin 2) (first : Word) (count : Word) (s : State) : exec (.tmapUnmap port first count) s = execTmapUnmap port first count s := rfl
theorem exec_tmapRead (port : Fin 2) (first : Word) (count : Byte) (s : State) : exec (.tmapRead port first count) s = execTmapRead port first count s := rfl
theorem exec_fabricAssign (port : Fin 2) (a : AssignArgs) (s : State) : exec (.fabricAssign port a) s = execFabricAssign port a s := rfl
theorem exec_linkDisable (port : Fin 2) (link : Byte) (s : State) : exec (.linkDisable port link) s = execLinkDisable port link s := rfl
theorem exec_linkEnable (port : Fin 2) (link : Byte) (s : State) : exec (.linkEnable port link) s = execLinkEnable port link s := rfl
theorem exec_bladeRelease (port : Fin 2) (blade : Byte) (s : State) : exec (.bladeRelease port blade) s = execBladeRelease port blade s := rfl
theorem exec_failureRate (port : Fin 2) (c : Byte) (mtbf : Word) (s : State) : exec (.failureRate port c mtbf) s = execFailureRate port c mtbf s := rfl
theorem exec_cordSetup (port : Fin 2) (cord : BitVec 16) (ent : BitVec 256) (s : State) : exec (.cordSetup port cord ent) s = execCordSetup port cord ent s := rfl
theorem exec_cordRead (port : Fin 2) (cord : BitVec 16) (s : State) : exec (.cordRead port cord) s = execCordRead port cord s := rfl
theorem exec_rankReplace (port : Fin 2) (a : ReplaceArgs) (s : State) : exec (.rankReplace port a) s = execRankReplace port a s := rfl
theorem exec_emberSetup (port : Fin 2) (a : EmberArgs) (s : State) : exec (.emberSetup port a) s = execEmberSetup port a s := rfl
theorem exec_digestSetup (port : Fin 2) (a : DigestArgs) (s : State) : exec (.digestSetup port a) s = execDigestSetup port a s := rfl
theorem exec_refillDone (port : Fin 2) (c : Byte) (page : Word) (s : State) : exec (.refillDone port c page) s = execRefillDone port c page s := rfl
theorem exec_forceCopy (port : Fin 2) (c : Byte) (s : State) : exec (.forceCopy port c) s = execForceCopy port c s := rfl
theorem exec_lockstepStart (port : Fin 2) (a : LockArgs) (s : State) : exec (.lockstepStart port a) s = execLockstepStart port a s := rfl
theorem exec_lockstepStop (port : Fin 2) (s : State) : exec (.lockstepStop port) s = execLockstepStop port s := rfl
theorem exec_load (c : Fin 256) (tag : Word) (img : Image) (s : State) : exec (.load c tag img) s = execLoad c tag img s := rfl
theorem exec_step (c : Fin 256) (tag : Word) (n : Word) (mb : BitVec 16) (seed : DWord) (s : State) : exec (.step c tag n mb seed) s = execStep c tag n mb seed s := rfl
theorem exec_comparisonWindowComplete (win : Nat) (s : State) : exec (.comparisonWindowComplete win) s = execComparisonWindowComplete win s := rfl
theorem exec_lockstepRecord (x : LsRec) (s : State) : exec (.lockstepRecord x) s = execLockstepRecord x s := rfl
theorem exec_lockstepLagExceeded (s : State) : exec (.lockstepLagExceeded) s = execLockstepLagExceeded s := rfl
theorem exec_lockstepRecordTimeout (s : State) : exec (.lockstepRecordTimeout) s = execLockstepRecordTimeout s := rfl
theorem exec_watchdogRestart (core : Fin 4) (cause : Fin 3) (s : State) : exec (.watchdogRestart core cause) s = execWatchdogRestart core cause s := rfl
theorem exec_kilnRestartRecovery (keepOk : Bool) (s : State) : exec (.kilnRestartRecovery keepOk) s = execKilnRestartRecovery keepOk s := rfl
theorem exec_telemetrySample (s : State) : exec (.telemetrySample) s = execTelemetrySample s := rfl
theorem exec_decimationUpdate (x : LoadRead) (s : State) : exec (.decimationUpdate x) s = execDecimationUpdate x s := rfl
theorem exec_stage0 (x : StageOut) (s : State) : exec (.stage0 x) s = execStage0 x s := rfl
theorem exec_stage1 (x : StageOut) (puf : PufRead) (serials : List Nat) (s : State) : exec (.stage1 x puf serials) s = execStage1 x puf serials s := rfl
theorem exec_stage2 (x : StageOut) (bad : List (Nat × Nat × Nat)) (mtemp : Int) (s : State) : exec (.stage2 x bad mtemp) s = execStage2 x bad mtemp s := rfl
theorem exec_stage3 (x : StageOut) (c : Calib) (s : State) : exec (.stage3 x c) s = execStage3 x c s := rfl
theorem exec_stage3TimeWait (s : State) : exec (.stage3TimeWait) s = execStage3TimeWait s := rfl
theorem exec_ntpAnswer (utc : Nat) (s : State) : exec (.ntpAnswer utc) s = execNtpAnswer utc s := rfl
theorem exec_stage4 (x : StageOut) (found : List (List Defect)) (s : State) : exec (.stage4 x found) s = execStage4 x found s := rfl
theorem exec_stage5 (x : StageOut) (r : MemTrain) (s : State) : exec (.stage5 x r) s = execStage5 x r s := rfl
theorem exec_stage6 (x : StageOut) (r : MemTrain) (s : State) : exec (.stage6 x r) s = execStage6 x r s := rfl
theorem exec_stage7 (x : StageOut) (s : State) : exec (.stage7 x) s = execStage7 x s := rfl
theorem exec_stage7Timeout (ms : Nat) (s : State) : exec (.stage7Timeout ms) s = execStage7Timeout ms s := rfl
theorem exec_stage8 (x : StageOut) (s : State) : exec (.stage8 x) s = execStage8 x s := rfl
theorem exec_romSelftestTimeout (s : State) : exec (.romSelftestTimeout) s = execRomSelftestTimeout s := rfl
theorem exec_serviceBankTimeout (s : State) : exec (.serviceBankTimeout) s = execServiceBankTimeout s := rfl
theorem exec_imageCopyDone (s : State) : exec (.imageCopyDone) s = execImageCopyDone s := rfl
theorem exec_transferConnect (s : State) : exec (.transferConnect) s = execTransferConnect s := rfl
theorem exec_hello (version : Word) (s : State) : exec (.hello version) s = execHello version s := rfl
theorem exec_header (bytes : List Byte) (sigOk : Bool) (s : State) : exec (.header bytes sigOk) s = execHeader bytes sigOk s := rfl
theorem exec_chunk (off : DWord) (bytes : List Byte) (s : State) : exec (.chunk off bytes) s = execChunk off bytes s := rfl
theorem exec_finish (s : State) : exec (.finish) s = execFinish s := rfl
theorem exec_transferAbort (s : State) : exec (.transferAbort) s = execTransferAbort s := rfl
theorem exec_transferTimeout (s : State) : exec (.transferTimeout) s = execTransferTimeout s := rfl
theorem exec_activationTime (s : State) : exec (.activationTime) s = execActivationTime s := rfl
theorem exec_activationStarted (s : State) : exec (.activationStarted) s = execActivationStarted s := rfl
theorem exec_activationCancelled (s : State) : exec (.activationCancelled) s = execActivationCancelled s := rfl
theorem exec_getVersion (port : Fin 2) (s : State) : exec (.getVersion port) s = execGetVersion port s := rfl
theorem exec_getCapabilities (port : Fin 2) (s : State) : exec (.getCapabilities port) s = execGetCapabilities port s := rfl
theorem exec_negotiateAlgorithms (port : Fin 2) (p384 : Bool) (sha384 : Bool) (s : State) : exec (.negotiateAlgorithms port p384 sha384) s = execNegotiateAlgorithms port p384 sha384 s := rfl
theorem exec_getDigests (port : Fin 2) (s : State) : exec (.getDigests port) s = execGetDigests port s := rfl
theorem exec_getCertificate (port : Fin 2) (slot : Nat) (off : Nat) (len : Nat) (s : State) : exec (.getCertificate port slot off len) s = execGetCertificate port slot off len s := rfl
theorem exec_challenge (port : Fin 2) (slot : Nat) (nonce : List Byte) (s : State) : exec (.challenge port slot nonce) s = execChallenge port slot nonce s := rfl
theorem exec_getMeasurements (port : Fin 2) (idx : Nat) (sign : Bool) (nonce : List Byte) (s : State) : exec (.getMeasurements port idx sign nonce) s = execGetMeasurements port idx sign nonce s := rfl
theorem exec_spdmUnsupported (port : Fin 2) (code : Byte) (s : State) : exec (.spdmUnsupported port code) s = execSpdmUnsupported port code s := rfl
theorem exec_fruRead (off : BitVec 16) (pec : Bool) (s : State) : exec (.fruRead off pec) s = execFruRead off pec s := rfl
theorem exec_telemetry (pec : Bool) (s : State) : exec (.telemetry pec) s = execTelemetry pec s := rfl
theorem exec_capSet (w : BitVec 16) (pec : Bool) (s : State) : exec (.capSet w pec) s = execCapSet w pec s := rfl
theorem exec_capStatus (pec : Bool) (s : State) : exec (.capStatus pec) s = execCapStatus pec s := rfl
theorem exec_flitBoundary (l : Fin 96) (s : State) : exec (.flitBoundary l) s = execFlitBoundary l s := rfl
theorem exec_laneSyncLost (l : Fin 96) (s : State) : exec (.laneSyncLost l) s = execLaneSyncLost l s := rfl
theorem exec_identRecordSend (l : Fin 96) (s : State) : exec (.identRecordSend l) s = execIdentRecordSend l s := rfl
theorem exec_lockstepPartnerTimeout (s : State) : exec (.lockstepPartnerTimeout) s = execLockstepPartnerTimeout s := rfl
theorem exec_forceOffDeassert (s : State) : exec (.forceOffDeassert) s = execForceOffDeassert s := rfl
theorem exec_vinInRange (mv : Nat) (s : State) : exec (.vinInRange mv) s = execVinInRange mv s := rfl
theorem exec_bladeSeatTimeout (b : Fin 6) (s : State) : exec (.bladeSeatTimeout b) s = execBladeSeatTimeout b s := rfl

end Sys2Proof.Machine
end

