-- ==== Sys2Proof/Laws/Flash.lean ====
section
/-! SUPPORT. The shipped image verifies and starts (R441, R442, R449), whatever the digest function gives. -/

namespace Sys2Proof.Machine

theorem digest48_length (l : List Byte) : (digest48 l).length = 48 := by
  unfold digest48 fit48
  simp

/-- A field of the head of a list. -/
theorem field_head (a r : List Byte) (o n : Nat) (h : o + n ≤ a.length) : ((a ++ r).drop o).take n = (a.drop o).take n := by
  rw [List.drop_append_of_le_length (by omega), List.take_append_of_le_length (by simp; omega)]

/-- What follows a head and a digest. -/
theorem field_tail (a d z : List Byte) (o : Nat) (h : a.length + d.length ≤ o) :
    (a ++ d ++ z).drop o = z.drop (o - (a.length + d.length)) := by
  rw [List.drop_append]
  have e : (a ++ d).drop o = [] := List.drop_eq_nil_of_le (by simp; omega)
  rw [e, List.nil_append, List.length_append]

/-- The digest behind a head. -/
theorem field_digest (a d z : List Byte) : ((a ++ d ++ z).drop a.length).take d.length = d := by
  rw [List.append_assoc, List.drop_left, List.take_left]

/-- The first 28 bytes of the shipped header. -/
def shippedHead : List Byte :=
  beBytes 4 0x47543846 ++ beBytes 2 1 ++ beBytes 2 0x7A08 ++ beBytes 1 0x0F ++ beBytes 1 1 ++ beBytes 4 0 ++ beBytes 4 0
    ++ beBytes 4 4096 ++ beBytes 2 0 ++ beBytes 2 1 ++ beBytes 2 0

theorem shippedHead_length : shippedHead.length = 28 := by decide +kernel

theorem shippedHeader_eq : shippedHeader = shippedHead ++ digest48 shippedBody ++ List.replicate 4020 0 := rfl

theorem shippedHeader_field (o n : Nat) (h : o + n ≤ 28) : hdrField shippedHeader o n = hdrField shippedHead o n := by
  unfold hdrField
  rw [shippedHeader_eq, List.append_assoc, field_head _ _ _ _ (by rw [shippedHead_length]; exact h)]

theorem zeros_all (k o n : Nat) : (((List.replicate k (0 : Byte)).drop o).take n).all (· == 0) = true := by
  rw [List.drop_replicate, List.take_replicate, List.all_replicate]; simp

theorem shippedHeader_zero (o n : Nat) (h : 76 ≤ o) : hdrZero shippedHeader o n = true := by
  unfold hdrZero
  rw [shippedHeader_eq, field_tail _ _ _ _ (by rw [shippedHead_length, digest48_length]; omega)]
  exact zeros_all _ _ _

theorem shippedHeader_digest : hdrDigest shippedHeader = digest48 shippedBody := by
  have e := field_digest shippedHead (digest48 shippedBody) (List.replicate 4020 0)
  rw [shippedHead_length, digest48_length] at e
  exact e

/-- The shipped header passes every check of R442 on the shipped module. -/
theorem shippedHeader_ok : headerStatus flashInit shippedHeader true = 0 := by
  have l : shippedHeader.length = 4096 := by
    rw [shippedHeader_eq, List.length_append, List.length_append, List.length_replicate, shippedHead_length, digest48_length]
  have z : hdrZero shippedHeader 26 2 = hdrZero shippedHead 26 2 := by
    unfold hdrZero
    rw [shippedHeader_eq, List.append_assoc, field_head _ _ _ _ (by rw [shippedHead_length])]
  have f := shippedHeader_field
  have e (o n v : Nat) (h : o + n ≤ 28) (k : hdrField shippedHead o n = v) : hdrField shippedHeader o n = v := (f o n h).trans k
  have b : hdrNbind shippedHeader = 0 := e _ _ _ (by decide) (by decide +kernel)
  have len : hdrBodyLen shippedHeader = 4096 := e _ _ _ (by decide) (by decide +kernel)
  have r : hdrRollback shippedHeader = 0 := e _ _ _ (by decide) (by decide +kernel)
  have form : hdrFormOk shippedHeader = true := by
    unfold hdrFormOk
    dsimp only
    rw [l, z, b, len, e 0 4 0x47543846 (by decide) (by decide +kernel), e 4 2 1 (by decide) (by decide +kernel),
      e 8 1 15 (by decide) (by decide +kernel), shippedHeader_zero 76 _ (by decide), shippedHeader_zero 2176 _ (by decide),
      shippedHeader_zero (128 + 8 * 0) _ (by decide)]
    decide +kernel
  unfold headerStatus hdrBound
  rw [form, b, r, e 6 2 0x7A08 (by decide) (by decide +kernel), e 8 1 15 (by decide) (by decide +kernel),
    e 9 1 1 (by decide) (by decide +kernel)]
  decide +kernel

/-- The shipped module starts ACTIVE. -/
theorem shipped_starts : (chooseImage (dropCut flashInit)).2 = some (0, shippedImage) := by
  have b : bootable flashInit shippedImage = true := by
    unfold bootable
    rw [show shippedImage.header = shippedHeader from rfl, show shippedImage.sigOk = true from rfl, shippedHeader_ok, shippedHeader_digest]
    simp [shippedImage]
  show idleImage flashInit = _
  unfold idleImage okImage
  rw [show flashInit.active = some shippedImage from rfl, show flashInit.previous = none from rfl]
  simp [Option.filter, b]

end Sys2Proof.Machine
end

