-- ==== Sys2Proof/Laws/FlitCode.lean ====
section
/-! SUPPORT. What the code of a flit frame can do (spec/09_optical_links.md R244): the product of GF(2^10) is linear in its first factor, and a
codeword has no syndrome. -/

namespace Sys2Proof.Machine

/-- A linear function of elements of GF(2^10). -/
structure GfLin (f : Nat → Nat) : Prop where
  lt  : ∀ a < 1024, f a < 1024
  xor : ∀ a < 1024, ∀ b < 1024, f (a ^^^ b) = f a ^^^ f b

theorem xor_lt_1024 {a b : Nat} (ha : a < 1024) (hb : b < 1024) : a ^^^ b < 1024 := Nat.xor_lt_two_pow (n := 10) ha hb

theorem GfLin.comp {f g : Nat → Nat} (hf : GfLin f) (hg : GfLin g) : GfLin (fun a => f (g a)) where
  lt a ha := hf.lt _ (hg.lt a ha)
  xor a ha b hb := by rw [hg.xor a ha b hb, hf.xor _ (hg.lt a ha) _ (hg.lt b hb)]

theorem GfLin.add {f g : Nat → Nat} (hf : GfLin f) (hg : GfLin g) : GfLin (fun a => f a ^^^ g a) where
  lt a ha := xor_lt_1024 (hf.lt a ha) (hg.lt a ha)
  xor a ha b hb := by
    rw [hf.xor a ha b hb, hg.xor a ha b hb]; ac_rfl

theorem two_pow_add_eq_xor {n y : Nat} (h : y < 2 ^ n) : 2 ^ n + y = 2 ^ n ^^^ y := by
  apply Nat.eq_of_testBit_eq
  intro i
  rw [Nat.testBit_xor, Nat.testBit_two_pow]
  rcases Nat.lt_trichotomy i n with hi | hi | hi
  · rw [Nat.testBit_two_pow_add_gt hi, show decide (n = i) = false by simp; omega, Bool.false_xor]
  · subst hi
    rw [Nat.testBit_two_pow_add_eq, Nat.testBit_lt_two_pow h]; simp
  · have : 2 ^ n + y < 2 ^ i := by
      have := Nat.pow_le_pow_right (n := 2) (by omega) (show n + 1 ≤ i by omega)
      rw [Nat.pow_succ] at this; omega
    rw [Nat.testBit_lt_two_pow this, Nat.testBit_lt_two_pow (show y < 2 ^ i by omega), show decide (n = i) = false by simp; omega]; rfl

/-- A linear function that vanishes on the ten powers of two vanishes. -/
theorem GfLin.eq_zero {f : Nat → Nat} (hf : GfLin f) (h : ∀ i < 10, f (2 ^ i) = 0) (a : Nat) (ha : a < 1024) : f a = 0 := by
  have h0 : f 0 = 0 := by have := hf.xor 0 (by omega) 0 (by omega); simpa using this
  have key : ∀ n ≤ 10, ∀ x < 2 ^ n, f x = 0 := by
    intro n
    induction n with
    | zero => intro _ x hx; have : x = 0 := by omega
              subst this; exact h0
    | succ n ih =>
      intro hn x hx
      by_cases hb : x < 2 ^ n
      · exact ih (by omega) x hb
      · have hlt : 2 ^ n < 1024 := by
          have := Nat.pow_lt_pow_right (a := 2) (by omega) (show n < 10 by omega); simpa using this
        have hx2 : x - 2 ^ n < 2 ^ n := by rw [Nat.pow_succ] at hx; omega
        have e : x = (x - 2 ^ n) ^^^ 2 ^ n := by
          obtain ⟨y, rfl⟩ : ∃ y, x = 2 ^ n + y := ⟨x - 2 ^ n, by omega⟩
          rw [Nat.add_sub_cancel_left] at hx2 ⊢
          rw [Nat.xor_comm]; exact two_pow_add_eq_xor hx2
        rw [e, hf.xor _ (by omega) _ hlt, ih (by omega) _ hx2, h n (by omega)]; rfl
  exact key 10 (by omega) a (by simpa using ha)

theorem gfX_eq (a : Nat) (ha : a < 1024) : gfX a = 2 * a % 1024 ^^^ if a.testBit 9 then 9 else 0 := by
  have hb : a.testBit 9 = decide (512 ≤ a) := by
    rw [Nat.testBit_eq_decide_div_mod_eq]; apply decide_eq_decide.mpr; omega
  rw [gfX, hb]
  by_cases h : 512 ≤ a
  · rw [if_pos h, decide_eq_true h, if_pos rfl, show 2 * a % 1024 = 2 * a - 1024 by omega]
  · rw [if_neg h, decide_eq_false h, if_neg (by decide), Nat.xor_zero, Nat.mod_eq_of_lt (by omega)]

theorem gfX_lin : GfLin gfX where
  lt a ha := by
    rw [gfX_eq a ha]; split <;> exact xor_lt_1024 (Nat.mod_lt _ (by omega)) (by omega)
  xor a ha b hb := by
    rw [gfX_eq a ha, gfX_eq b hb, gfX_eq _ (xor_lt_1024 ha hb)]
    have h2 : ∀ x, 2 * x = x <<< 1 := fun x => by simp [Nat.shiftLeft_eq, Nat.mul_comm]
    have h : 2 * (a ^^^ b) % 1024 = (2 * a % 1024) ^^^ (2 * b % 1024) := by
      rw [h2, h2, h2, Nat.shiftLeft_xor_distrib]; exact Nat.xor_mod_two_pow (n := 10)
    rw [h, Nat.testBit_xor]
    generalize 2 * a % 1024 = u
    generalize 2 * b % 1024 = v
    cases a.testBit 9 <;> cases b.testBit 9 <;> simp only [Bool.xor_false, Bool.xor_true, Bool.not_true, Bool.not_false, if_true, if_false,
      Bool.false_eq_true, Nat.xor_zero]
    · ac_rfl
    · ac_rfl
    · rw [show u ^^^ 9 ^^^ (v ^^^ 9) = u ^^^ v ^^^ (9 ^^^ 9) by ac_rfl, Nat.xor_self, Nat.xor_zero]

/-- One step of the product by b. -/
def gfStep (b : Nat) (r : Nat × Nat) (i : Nat) : Nat × Nat := (if b.testBit i then r.1 ^^^ r.2 else r.1, gfX r.2)

theorem gfMul_eq (a b : Nat) : gfMul a b = ((List.range 10).foldl (gfStep b) (0, a)).1 := rfl

theorem gfFold_lt (b : Nat) (l : List Nat) (r : Nat × Nat) (h1 : r.1 < 1024) (h2 : r.2 < 1024) :
    (l.foldl (gfStep b) r).1 < 1024 := by
  induction l generalizing r with
  | nil => exact h1
  | cons i l ih =>
    refine ih _ ?_ (gfX_lin.lt _ h2)
    unfold gfStep; simp only; split
    · exact xor_lt_1024 h1 h2
    · exact h1

theorem gfFold_xor (b : Nat) (l : List Nat) (r q : Nat × Nat) (hr : r.2 < 1024) (hq : q.2 < 1024) :
    (l.foldl (gfStep b) (r.1 ^^^ q.1, r.2 ^^^ q.2)).1 = (l.foldl (gfStep b) r).1 ^^^ (l.foldl (gfStep b) q).1 := by
  induction l generalizing r q with
  | nil => rfl
  | cons i l ih =>
    have e : gfStep b (r.1 ^^^ q.1, r.2 ^^^ q.2) i = ((gfStep b r i).1 ^^^ (gfStep b q i).1, (gfStep b r i).2 ^^^ (gfStep b q i).2) := by
      unfold gfStep; simp only [gfX_lin.xor _ hr _ hq]; split
      · congr 1; ac_rfl
      · rfl
    rw [List.foldl_cons, e, ih _ _ (gfX_lin.lt _ hr) (gfX_lin.lt _ hq)]; rfl

/-- The product is linear in its first factor. -/
theorem gfMul_lin (b : Nat) : GfLin (fun a => gfMul a b) where
  lt a ha := gfFold_lt b _ (0, a) (by omega) ha
  xor a ha c hc := by
    simp only [gfMul_eq]; rw [← gfFold_xor b _ (0, a) (0, c) ha hc, Nat.xor_self]

/-- Two linear functions that agree on the ten powers of two agree. -/
theorem GfLin.ext {f g : Nat → Nat} (hf : GfLin f) (hg : GfLin g) (h : ∀ i < 10, f (2 ^ i) = g (2 ^ i)) (a : Nat) (ha : a < 1024) : f a = g a := by
  have := (hf.add hg).eq_zero (fun i hi => by rw [h i hi]; exact Nat.xor_self _) a ha
  exact Nat.xor_eq_zero_iff.mp this

/-- The four parity symbols after one more symbol. -/
def rsStep (st : List Nat) (s : Nat) : List Nat :=
  List.zipWith (fun a g => a ^^^ gfMul (s ^^^ nth0 st 0) g) (st.drop 1 ++ [0]) rsGen

theorem rsGen_eq : rsGen = [15, 54, 120, 64] := by decide

/-- Each root of the generator: its fourth power by the lower coefficients. -/
theorem rsRoot (j : Nat) (hj : j < 4) (x : Nat) (hx : x < 1024) :
    gfMul (gfMul (gfMul (gfMul x (gfPow j)) (gfPow j)) (gfPow j)) (gfPow j)
      = gfMul (gfMul (gfMul (gfMul x 15) (gfPow j)) (gfPow j)) (gfPow j) ^^^ gfMul (gfMul (gfMul x 54) (gfPow j)) (gfPow j)
        ^^^ gfMul (gfMul x 120) (gfPow j) ^^^ gfMul x 64 := by
  have m := gfMul_lin (gfPow j)
  refine GfLin.ext (m.comp (m.comp (m.comp m))) ((((m.comp (m.comp (m.comp (gfMul_lin 15)))).add
    (m.comp (m.comp (gfMul_lin 54)))).add (m.comp (gfMul_lin 120))).add (gfMul_lin 64)) ?_ x hx
  intro i hi
  obtain ⟨k, rfl⟩ : ∃ k : Fin 4, k.val = j := ⟨⟨j, hj⟩, rfl⟩
  obtain ⟨n, rfl⟩ : ∃ n : Fin 10, n.val = i := ⟨⟨i, hi⟩, rfl⟩
  clear m hj hi x hx
  revert k n; decide

/-- The syndrome of the first symbols, on. -/
theorem rsSyndrome_append (d e : List Nat) (j : Nat) :
    rsSyndrome (d ++ e) j = e.foldl (fun acc s => gfMul acc (gfPow j) ^^^ s) (rsSyndrome d j) := by
  simp [rsSyndrome, List.foldl_append]

theorem rsSyndrome_lt (d : List Nat) (j : Nat) (h : ∀ s ∈ d, s < 1024) : rsSyndrome d j < 1024 := by
  induction d using List.reverseRecOn with
  | nil => simp [rsSyndrome]
  | append_singleton d s ih =>
    rw [rsSyndrome_append]
    exact xor_lt_1024 ((gfMul_lin _).lt _ (ih fun x hx => h x (by simp [hx]))) (h s (by simp))

/-- The four parity symbols follow the fourth power of the syndrome. -/
theorem rsParity_spec (d : List Nat) (j : Nat) (hj : j < 4) (h : ∀ s ∈ d, s < 1024) :
    ∃ p q r s, rsParity d = [p, q, r, s] ∧ p < 1024 ∧ q < 1024 ∧ r < 1024 ∧ s < 1024 ∧
      gfMul (gfMul (gfMul (gfMul (rsSyndrome d j) (gfPow j)) (gfPow j)) (gfPow j)) (gfPow j)
        = gfMul (gfMul (gfMul p (gfPow j)) (gfPow j)) (gfPow j) ^^^ gfMul (gfMul q (gfPow j)) (gfPow j) ^^^ gfMul r (gfPow j) ^^^ s := by
  have m := gfMul_lin (gfPow j)
  have m0 : gfMul 0 (gfPow j) = 0 := by have := m.xor 0 (by omega) 0 (by omega); simpa using this
  induction d using List.reverseRecOn with
  | nil => exact ⟨0, 0, 0, 0, rfl, by omega, by omega, by omega, by omega, by simp [rsSyndrome, m0]⟩
  | append_singleton d x ih =>
    obtain ⟨p, q, r, s, hp, h1, h2, h3, h4, he⟩ := ih fun y hy => h y (by simp [hy])
    have hx : x < 1024 := h x (by simp)
    have hf : x ^^^ p < 1024 := xor_lt_1024 hx h1
    have hd := rsSyndrome_lt d j fun y hy => h y (by simp [hy])
    have hn : rsParity (d ++ [x]) = [q ^^^ gfMul (x ^^^ p) 15, r ^^^ gfMul (x ^^^ p) 54, s ^^^ gfMul (x ^^^ p) 120, gfMul (x ^^^ p) 64] := by
      have : rsParity (d ++ [x]) = rsStep (rsParity d) x := by
        simp only [rsParity, List.foldl_append, List.foldl_cons, List.foldl_nil]; rfl
      rw [this, hp, rsStep, rsGen_eq]; simp [nth0]
    have l15 := (gfMul_lin 15).lt _ hf
    have l54 := (gfMul_lin 54).lt _ hf
    have l120 := (gfMul_lin 120).lt _ hf
    have l64 := (gfMul_lin 64).lt _ hf
    refine ⟨_, _, _, _, hn, xor_lt_1024 h2 l15, xor_lt_1024 h3 l54, xor_lt_1024 h4 l120, l64, ?_⟩
    have key := rsRoot j hj _ hf
    rw [rsSyndrome_append]
    simp only [List.foldl_cons, List.foldl_nil]
    generalize gfPow j = a at *
    have e1 := m.lt _ hd
    rw [m.xor _ e1 _ hx, m.xor _ (m.lt _ e1) _ (m.lt _ hx), m.xor _ (m.lt _ (m.lt _ e1)) _ (m.lt _ (m.lt _ hx)),
      m.xor _ (m.lt _ (m.lt _ (m.lt _ e1))) _ (m.lt _ (m.lt _ (m.lt _ hx)))]
    rw [m.xor _ h2 _ l15, m.xor _ (m.lt _ h2) _ (m.lt _ l15), m.xor _ (m.lt _ (m.lt _ h2)) _ (m.lt _ (m.lt _ l15)),
      m.xor _ h3 _ l54, m.xor _ (m.lt _ h3) _ (m.lt _ l54), m.xor _ h4 _ l120]
    have e2 := m.lt _ (m.lt _ (m.lt _ h1))
    have e3 := m.lt _ (m.lt _ h2)
    have e4 := m.lt _ h3
    rw [he, m.xor _ (xor_lt_1024 (xor_lt_1024 e2 e3) e4) _ h4, m.xor _ (xor_lt_1024 e2 e3) _ e4, m.xor _ e2 _ e3]
    rw [m.xor _ hx _ h1, m.xor _ (m.lt _ hx) _ (m.lt _ h1), m.xor _ (m.lt _ (m.lt _ hx)) _ (m.lt _ (m.lt _ h1)),
      m.xor _ (m.lt _ (m.lt _ (m.lt _ hx))) _ (m.lt _ (m.lt _ (m.lt _ h1)))] at key
    generalize gfMul (gfMul (gfMul (gfMul x a) a) a) a = kx at *
    generalize gfMul (gfMul (gfMul (gfMul p a) a) a) a = kp at *
    have k2 : kx = gfMul (gfMul (gfMul (gfMul (x ^^^ p) 15) a) a) a ^^^ gfMul (gfMul (gfMul (x ^^^ p) 54) a) a
        ^^^ gfMul (gfMul (x ^^^ p) 120) a ^^^ gfMul (x ^^^ p) 64 ^^^ kp := by
      rw [← key, Nat.xor_assoc, Nat.xor_self, Nat.xor_zero]
    rw [k2]
    generalize gfMul (gfMul (gfMul (gfMul (x ^^^ p) 15) a) a) a = u1
    generalize gfMul (gfMul (gfMul (x ^^^ p) 54) a) a = u2
    generalize gfMul (gfMul (x ^^^ p) 120) a = u3
    generalize gfMul (x ^^^ p) 64 = u4
    generalize gfMul (gfMul (gfMul q a) a) a = v1
    generalize gfMul (gfMul r a) a = v2
    generalize gfMul s a = v3
    have : kp ^^^ v1 ^^^ v2 ^^^ v3 ^^^ (u1 ^^^ u2 ^^^ u3 ^^^ u4 ^^^ kp) = v1 ^^^ u1 ^^^ (v2 ^^^ u2) ^^^ (v3 ^^^ u3) ^^^ u4 ^^^ (kp ^^^ kp) := by
      ac_rfl
    rw [this, Nat.xor_self, Nat.xor_zero]

/-- R244: the four syndromes of a codeword are 0. -/
theorem rsSyndrome_code (d : List Nat) (j : Nat) (hj : j < 4) (h : ∀ s ∈ d, s < 1024) : rsSyndrome (d ++ rsParity d) j = 0 := by
  obtain ⟨p, q, r, s, hp, h1, h2, h3, -, he⟩ := rsParity_spec d j hj h
  have m := gfMul_lin (gfPow j)
  rw [rsSyndrome_append, hp]
  simp only [List.foldl_cons, List.foldl_nil]
  generalize gfPow j = a at *
  have hd := m.lt _ (rsSyndrome_lt d j h)
  have hd2 := m.lt _ hd
  have hp2 := m.lt _ h1
  rw [m.xor _ hd _ h1, m.xor _ (xor_lt_1024 hd2 hp2) _ h2, m.xor _ hd2 _ hp2,
    m.xor _ (xor_lt_1024 (xor_lt_1024 (m.lt _ hd2) (m.lt _ hp2)) (m.lt _ h2)) _ h3,
    m.xor _ (xor_lt_1024 (m.lt _ hd2) (m.lt _ hp2)) _ (m.lt _ h2), m.xor _ (m.lt _ hd2) _ (m.lt _ hp2), he, Nat.xor_assoc,
    Nat.xor_assoc, Nat.xor_assoc, Nat.xor_assoc, Nat.xor_assoc, Nat.xor_assoc]
  generalize gfMul (gfMul (gfMul p a) a) a = u
  generalize gfMul (gfMul q a) a = v
  generalize gfMul r a = w
  rw [show u ^^^ (v ^^^ (w ^^^ (s ^^^ (u ^^^ (v ^^^ (w ^^^ s)))))) = (u ^^^ u) ^^^ (v ^^^ v) ^^^ (w ^^^ w) ^^^ (s ^^^ s) by ac_rfl]
  simp only [Nat.xor_self]

/-- R244: the symbols that a frame puts on the line are a codeword. -/
theorem frameSymbols_syndrome (f : LFrame) (j : Nat) (hj : j < 4) : rsSyndrome (frameSymbols f) j = 0 := by
  refine rsSyndrome_code _ j hj fun s hs => ?_
  obtain ⟨i, -, rfl⟩ := List.mem_map.mp hs
  exact Nat.mod_lt _ (by decide)

/-- What the code cannot correct is bad. -/
theorem readLine_bad (f : LFrame) (e : LineErr) (h : rsDecode (lineSymbols f e) = none) : readLine f e = (f, .bad e.hdrOk) := by
  rw [readLine, h]
/-- What the code corrects to the frame that was sent is good. -/
theorem readLine_good (f : LFrame) (e : LineErr) (n : Nat) (h : rsDecode (lineSymbols f e) = some (frameSymbols f, n)) : readLine f e = (f, .good n) := by
  rw [readLine, h]; exact if_pos rfl
/-- A line without an error carries the frame's symbols. -/
theorem lineSymbols_clean (f : LFrame) (ok : Bool) : lineSymbols f ⟨[], ok⟩ = frameSymbols f := by rw [lineSymbols, List.foldl_nil]
/-- A line with errors in the last three symbols. -/
theorem lineSymbols_three (f : LFrame) (ok : Bool) : lineSymbols f ⟨[(213, 1), (214, 3), (215, 2)], ok⟩ = flipSym (flipSym (flipSym (frameSymbols f) 213 1) 214 3) 215 2 := by
    rw [lineSymbols]
    generalize frameSymbols f = r
    rfl
/-- A word of the syndromes 0, 0, 30 and 90 is beyond correction. -/
theorem rsDecode_three (r : List Nat) (h : ∀ j < 4, rsSyndrome r j = [0, 0, 30, 90].getD j 0) : rsDecode r = none := by
  unfold rsDecode
  rw [h 0 (by decide), h 1 (by decide), h 2 (by decide), h 3 (by decide)]
  rfl
/-- A word whose four syndromes are 0 is read as it stands. -/
theorem rsDecode_code (r : List Nat) (h : ∀ j < 4, rsSyndrome r j = 0) : rsDecode r = some (r, 0) := by
  unfold rsDecode
  rw [h 0 (by decide), h 1 (by decide), h 2 (by decide), h 3 (by decide)]
  rfl
/-- A frame without an error is read as it was sent. -/
theorem readLine_clean (f : LFrame) (ok : Bool) : readLine f ⟨[], ok⟩ = (f, .good 0) :=
  readLine_good f ⟨[], ok⟩ 0 ((congrArg rsDecode (lineSymbols_clean f ok)).trans (rsDecode_code _ (frameSymbols_syndrome f)))

/-- Errors of 1, 3 and 2 in the last three symbols of a codeword leave the syndromes 0, 0, 30 and 90. -/
theorem three_errors_syndrome (d : List Nat) (h : ∀ s ∈ d, s < 1024) (hl : d.length = 212) (j : Nat) (hj : j < 4) :
    rsSyndrome (flipSym (flipSym (flipSym (d ++ rsParity d) 213 1) 214 3) 215 2) j = [0, 0, 30, 90].getD j 0 := by
  have hz := rsSyndrome_code d j hj h
  obtain ⟨p, q, r, s, hp, h1, h2, h3, h4, -⟩ := rsParity_spec d j hj h
  rw [hp, rsSyndrome_append] at hz
  rw [hp]
  have e : flipSym (flipSym (flipSym (d ++ [p, q, r, s]) 213 1) 214 3) 215 2 = d ++ [p, q ^^^ 1, r ^^^ 3, s ^^^ 2] := by
    simp [flipSym, nth0, hl]
  rw [e, rsSyndrome_append]
  simp only [List.foldl_cons, List.foldl_nil] at hz ⊢
  have m := gfMul_lin (gfPow j)
  have hd := rsSyndrome_lt d j h
  have t1 := xor_lt_1024 (m.lt _ hd) h1
  have t2 := xor_lt_1024 (m.lt _ t1) h2
  have t3 := xor_lt_1024 (m.lt _ t2) h3
  rw [← Nat.xor_assoc _ q 1, m.xor _ t2 1 (by omega), ← Nat.xor_assoc _ r, Nat.xor_right_comm _ _ r, m.xor _ (xor_lt_1024 t3 (m.lt 1 (by omega))) 3 (by omega),
    m.xor _ t3 _ (m.lt 1 (by omega)), ← Nat.xor_assoc]
  have : ∀ a b c d e : Nat, a ^^^ b ^^^ c ^^^ d ^^^ e = (a ^^^ d) ^^^ (b ^^^ c ^^^ e) := fun a b c d e => by ac_rfl
  rw [this, hz, Nat.zero_xor]
  clear this hz m t1 t2 t3 hd e
  obtain ⟨k, rfl⟩ : ∃ k : Fin 4, k.val = j := ⟨⟨j, hj⟩, rfl⟩
  clear hj hp hl h h1 h2 h3 h4
  revert k; decide

/-- Three symbol errors that two cannot explain make a frame bad. -/
theorem readLine_three (f : LFrame) (ok : Bool) : readLine f ⟨[(213, 1), (214, 3), (215, 2)], ok⟩ = (f, .bad ok) :=
  readLine_bad f _ ((congrArg rsDecode (lineSymbols_three f ok)).trans (rsDecode_three _ fun j hj => three_errors_syndrome _
    (fun s hs => by obtain ⟨i, -, rfl⟩ := List.mem_map.mp hs; exact Nat.mod_lt _ (by decide)) (by rw [List.length_map, List.length_range]) j hj))

end Sys2Proof.Machine
end

