-- ==== Sys2Proof/Laws/SMap.lean ====
section
/-! SUPPORT. What the operations over sparse maps do: a read after a write, and that each keeps the canonical form. -/

namespace Sys2Proof.Machine

theorem smGet_smErase {α : Type} (d : α) (m : SMap α) (a b : Nat) : smGet d (smErase m a) b = if a = b then d else smGet d m b := by
  induction m with
  | nil => simp [smErase, smGet]
  | cons p m ih =>
    obtain ⟨k, w⟩ := p
    unfold smErase at *
    by_cases e : k = a
    · subst e; simp only [smGet, List.filter_cons]; simp [ih]; split <;> simp_all
    · by_cases e2 : k = b
      · subst e2; simp [e, Ne.symm e, smGet]
      · simp [e, e2, smGet, ih]

theorem smGet_smInsert {α : Type} (d : α) (m : SMap α) (a b : Nat) (v : α) (ha : ∀ p ∈ m, p.1 ≠ a) :
    smGet d (smInsert m a v) b = if a = b then v else smGet d m b := by
  induction m with
  | nil => simp [smInsert, smGet]
  | cons p m ih =>
    obtain ⟨k, w⟩ := p
    simp only [smInsert]
    split
    · simp [smGet]
    · have : k ≠ a := ha (k, w) (by simp)
      simp only [smGet, ih (fun p hp => ha p (by simp [hp]))]
      by_cases e : k = b
      · subst e; simp [Ne.symm this]
      · simp [e]

theorem smErase_other {α : Type} (m : SMap α) (a : Nat) : ∀ p ∈ smErase m a, p.1 ≠ a := by
  intro p hp; simp [smErase] at hp; exact hp.2

/-- Reading a map after a write. -/
theorem smGet_smSet {α : Type} [DecidableEq α] (d : α) (m : SMap α) (a b : Nat) (v : α) :
    smGet d (smSet d m a v) b = if a = b then v else smGet d m b := by
  unfold smSet
  split
  · rename_i h; rw [smGet_smErase, h]
  · rw [smGet_smInsert _ _ _ _ _ (smErase_other m a), smGet_smErase]; by_cases e : a = b <;> simp [e]

@[simp] theorem smGet_smSet_same {α : Type} [DecidableEq α] (d : α) (m : SMap α) (a : Nat) (v : α) :
    smGet d (smSet d m a v) a = v := by simp [smGet_smSet]

theorem smGet_smSet_other {α : Type} [DecidableEq α] (d : α) (m : SMap α) {a b : Nat} (v : α) (h : a ≠ b) :
    smGet d (smSet d m a v) b = smGet d m b := by simp [smGet_smSet, h]

theorem smSorted_mono {α : Type} {lo hi : Nat} {m : SMap α} (h : lo ≤ hi) (w : smSorted hi m = true) : smSorted lo m = true := by
  cases m with
  | nil => rfl
  | cons p m => simp only [smSorted, Bool.and_eq_true, decide_eq_true_eq] at *; exact ⟨by omega, w.2⟩

theorem smSorted_filter {α : Type} (f : Nat × α → Bool) {lo : Nat} {m : SMap α} (w : smSorted lo m = true) :
    smSorted lo (m.filter f) = true := by
  induction m generalizing lo with
  | nil => rfl
  | cons p m ih =>
    simp only [smSorted, Bool.and_eq_true, decide_eq_true_eq] at w
    rw [List.filter_cons]
    split
    · simp only [smSorted, Bool.and_eq_true, decide_eq_true_eq]; exact ⟨w.1, ih w.2⟩
    · exact smSorted_mono (by omega) (ih w.2)

theorem smSorted_smInsert {α : Type} {lo a : Nat} (v : α) {m : SMap α} (h : lo ≤ a) (ha : ∀ p ∈ m, p.1 ≠ a)
    (w : smSorted lo m = true) : smSorted lo (smInsert m a v) = true := by
  induction m generalizing lo with
  | nil => simp [smInsert, smSorted, h]
  | cons p m ih =>
    obtain ⟨k, x⟩ := p
    simp only [smSorted, Bool.and_eq_true, decide_eq_true_eq] at w
    have hk : k ≠ a := ha (k, x) (by simp)
    simp only [smInsert]
    split
    · simp only [smSorted, Bool.and_eq_true, decide_eq_true_eq]; exact ⟨h, by omega, w.2⟩
    · simp only [smSorted, Bool.and_eq_true, decide_eq_true_eq]
      exact ⟨w.1, ih (by omega) (fun p hp => ha p (by simp [hp])) w.2⟩

theorem mem_smInsert {α : Type} {m : SMap α} {a : Nat} {v : α} {p : Nat × α} (h : p ∈ smInsert m a v) : p = (a, v) ∨ p ∈ m := by
  induction m with
  | nil => simpa [smInsert] using h
  | cons q m ih =>
    obtain ⟨k, x⟩ := q
    simp only [smInsert] at h
    split at h
    · simpa using h
    · rcases List.mem_cons.mp h with h | h
      · simp [h]
      · rcases ih h with h | h <;> simp [h]

@[simp] theorem smWf_nil {α : Type} [DecidableEq α] (d : α) : smWf d ([] : SMap α) = true := rfl

/-- Dropping entries keeps the canonical form. -/
theorem smWf_filter {α : Type} [DecidableEq α] {d : α} {m : SMap α} (f : Nat × α → Bool) (w : smWf d m = true) : smWf d (m.filter f) = true := by
  simp only [smWf, Bool.and_eq_true, List.all_eq_true] at *
  exact ⟨smSorted_filter f w.1, fun p hp => w.2 p (List.mem_filter.mp hp).1⟩

/-- A write keeps the canonical form. -/
theorem smWf_smSet {α : Type} [DecidableEq α] {d : α} {m : SMap α} (a : Nat) (v : α) (w : smWf d m = true) :
    smWf d (smSet d m a v) = true := by
  unfold smSet
  split
  · exact smWf_filter _ w
  · rename_i hv
    have w' : smWf d (smErase m a) = true := smWf_filter _ w
    simp only [smWf, Bool.and_eq_true, List.all_eq_true] at *
    refine ⟨smSorted_smInsert v (by omega) (smErase_other m a) w'.1, fun p hp => ?_⟩
    rcases mem_smInsert hp with h | h
    · simp [h, hv]
    · exact w'.2 p h

theorem smWf_smSetList {α : Type} [DecidableEq α] {d : α} (vs : List α) : ∀ {m : SMap α} (a : Nat), smWf d m = true →
    smWf d (smSetList d m a vs) = true := by
  induction vs with
  | nil => intro m a w; exact w
  | cons v vs ih => intro m a w; exact ih (a + 1) (smWf_smSet a v w)

/-- A key below every listed one reads as the default. -/
theorem smGet_below {α : Type} (d : α) {lo a : Nat} {m : SMap α} (w : smSorted lo m = true) (h : a < lo) : smGet d m a = d := by
  induction m generalizing lo with
  | nil => rfl
  | cons p m ih =>
    obtain ⟨k, x⟩ := p
    simp only [smSorted, Bool.and_eq_true, decide_eq_true_eq] at w
    simp only [smGet]
    rw [if_neg (by omega)]
    exact ih w.2 (by omega)

end Sys2Proof.Machine
end

