-- ==== Sys2Proof/Laws/Memory.lean ====
section
/-! SUPPORT. The memory tiers and the Tier Map: a read after a write, and that every operation keeps the canonical form. -/

namespace Sys2Proof.Machine

theorem memWf_def (m : MemState) : memWf m = true ↔ smWf (0 : Byte) m.hbm = true ∧ smWf (0 : Byte) m.ddr = true ∧ smWf (0 : Word) m.tmap = true := by
  simp [memWf, and_assoc]

/-- What leaves the three maps as they are keeps the form. -/
theorem memWf_same {m n : MemState} (w : memWf m = true) (h : n.hbm = m.hbm) (d : n.ddr = m.ddr) (t : n.tmap = m.tmap) : memWf n = true := by
  rw [memWf_def] at *; rw [h, d, t]; exact w

theorem memWf_memInit : memWf memInit = true := rfl

/-- Reset memory is canonical. -/
theorem memoryWf_reset : memoryWf State.reset = true := rfl

@[simp] theorem tmapGet_tmapSet (m : MemState) (p q : Nat) (w : Word) : tmapGet (tmapSet m p w) q = if p = q then w else tmapGet m q :=
  smGet_smSet 0 m.tmap p q w

theorem memWf_tmapSet {m : MemState} (p : Nat) (x : Word) (w : memWf m = true) : memWf (tmapSet m p x) = true := by
  rw [memWf_def] at *; exact ⟨w.1, w.2.1, smWf_smSet p x w.2.2⟩

theorem memWf_tmapSetBy {m : MemState} (party p : Nat) (x : Word) (w : memWf m = true) : memWf (tmapSetBy m party p x) = true := by
  rw [memWf_def] at *; exact ⟨w.1, w.2.1, smWf_smSet p x w.2.2⟩

/-- R212: the map as lookups still see it is canonical too. -/
theorem smWf_seenMap {m : MemState} (w : smWf (0 : Word) m.tmap = true) : smWf (0 : Word) (seenMap m) = true := by
  unfold seenMap
  generalize m.tmap = t at w
  induction m.stale generalizing t with
  | nil => exact w
  | cons e l ih => exact ih _ (smWf_smSet e.1 e.2 w)

theorem memWf_seenMem {m : MemState} (w : memWf m = true) : memWf (seenMem m) = true := by
  rw [memWf_def] at *; exact ⟨w.1, w.2.1, smWf_seenMap w.2.2⟩

/-- Reading a byte of a tier after a write of one. -/
theorem memByte_memSetByte (m : MemState) (t u k j : Nat) (b : Byte) :
    memByte (memSetByte m t k b) u j = if (t = 0 ↔ u = 0) ∧ k = j then b else memByte m u j := by
  unfold memByte memSetByte
  by_cases ht : t = 0 <;> by_cases hu : u = 0 <;> simp [ht, hu, smGet_smSet]

theorem memWf_memSetByte {m : MemState} (t k : Nat) (b : Byte) (w : memWf m = true) : memWf (memSetByte m t k b) = true := by
  rw [memWf_def] at *
  unfold memSetByte
  split
  · exact ⟨smWf_smSet k b w.1, w.2.1, w.2.2⟩
  · exact ⟨w.1, smWf_smSet k b w.2.1, w.2.2⟩

theorem memWf_memWrite (bs : List Byte) : ∀ {m : MemState} (t k : Nat), memWf m = true → memWf (memWrite m t k bs) = true := by
  induction bs with
  | nil => intro m t k w; exact w
  | cons b bs ih => intro m t k w; exact ih t (k + 1) (memWf_memSetByte t k b w)

theorem memWf_vaWrite (bs : List Byte) : ∀ {m : MemState} (va : Nat), memWf m = true → memWf (vaWrite m va bs) = true := by
  induction bs with
  | nil => intro m va w; exact w
  | cons b bs ih =>
    intro m va w
    unfold vaWrite
    apply ih
    split
    · exact memWf_memSetByte _ _ _ w
    · exact w

theorem memWf_seenWrite {m : MemState} (va : Nat) (bs : List Byte) (w : memWf m = true) : memWf (seenWrite m va bs) = true := by
  have a := memWf_vaWrite bs va (memWf_seenMem w)
  rw [memWf_def] at *; exact ⟨a.1, a.2.1, w.2.2⟩

theorem memWf_tmapFault {m : MemState} (a b c d : Nat) (w : memWf m = true) : memWf (tmapFault m a b c d) = true := by
  unfold tmapFault; split
  · exact w
  · exact w

theorem memWf_setFreeQueue {m : MemState} (t : Nat) (q : List Nat) (w : memWf m = true) : memWf (setFreeQueue m t q) = true := by
  unfold setFreeQueue; split <;> exact w

theorem memWf_takeFresh (k : Nat) : ∀ {m : MemState} (t l f : Nat) {r : Nat × MemState}, takeFresh m t l k f = some r → memWf m = true →
    memWf r.2 = true := by
  induction k with
  | zero => intro m t l f r h; simp [takeFresh] at h
  | succ k ih =>
    intro m t l f r h w
    unfold takeFresh at h
    split at h
    · simp at h
    · simp only at h
      split at h
      · exact ih _ _ _ h w
      · simp only [Option.some.injEq] at h; rw [← h]; simp only; split <;> exact w

theorem memWf_kilnTake {m : MemState} {t : Nat} {ddr : Bool} {r : Nat × MemState} (h : kilnTake m t ddr = some r) (w : memWf m = true) :
    memWf r.2 = true := by
  unfold kilnTake at h
  split at h
  · simp only [Option.some.injEq] at h; rw [← h]; simp only; split <;> exact w
  · exact memWf_takeFresh _ _ _ _ h w

theorem memWf_kilnReturn {m : MemState} (t f : Nat) (w : memWf m = true) : memWf (kilnReturn m t f) = true := by
  unfold kilnReturn; split
  · exact w
  · split <;> exact w

theorem memWf_refillQueue (n : Nat) : ∀ {m : MemState} (t : Nat) (ddr : Bool), memWf m = true → memWf (refillQueue m t ddr n) = true := by
  induction n with
  | zero => intro m t ddr w; exact w
  | succ n ih =>
    intro m t ddr w
    unfold refillQueue
    split
    · exact w
    · split
      · exact w
      · rename_i h; exact ih _ _ (memWf_setFreeQueue _ _ (memWf_kilnTake h w))

theorem memWf_takeFrame {m : MemState} {t : Nat} {ddr : Bool} {r : Nat × MemState} (h : takeFrame m t ddr = some r) (w : memWf m = true) :
    memWf r.2 = true := by
  unfold takeFrame at h
  split at h
  · rename_i x hx; simp only [Option.some.injEq] at h; rw [← h]; exact memWf_kilnTake hx w
  · split at h
    · simp only [Option.some.injEq] at h; rw [← h]; exact memWf_setFreeQueue _ _ w
    · simp at h

theorem memWf_setMemDev {m : MemState} (t i : Nat) (d : MemDev) (w : memWf m = true) : memWf (setMemDev m t i d) = true := by
  unfold setMemDev; split <;> exact w

theorem memWf_countUe {m : MemState} (t f : Nat) (w : memWf m = true) : memWf (countUe m t f) = true := memWf_setMemDev _ _ _ w

theorem memWf_countCe {m : MemState} (t f n : Nat) (w : memWf m = true) : memWf (countCe m t f n) = true := memWf_setMemDev _ _ _ w

theorem memWf_foldl {β : Type} (f : MemState → β → MemState) (h : ∀ m b, memWf m = true → memWf (f m b) = true) (l : List β) :
    ∀ {m : MemState}, memWf m = true → memWf (l.foldl f m) = true := by
  induction l with
  | nil => intro m w; exact w
  | cons b l ih => intro m w; exact ih (h m b w)

theorem memWf_copyFrame {m : MemState} (g : Migr) (bad : List Nat) (w : memWf m = true) : memWf (copyFrame m g bad) = true := by
  unfold copyFrame
  apply memWf_foldl
  · intro m b w; exact memWf_memSetByte _ _ _ w
  · rw [memWf_def] at *
    split
    · exact ⟨smWf_filter _ w.1, w.2.1, w.2.2⟩
    · exact ⟨w.1, smWf_filter _ w.2.1, w.2.2⟩

theorem memWf_zeroFrame {m : MemState} (t f : Nat) (w : memWf m = true) : memWf (zeroFrame m t f) = true := by
  rw [memWf_def] at *
  unfold zeroFrame
  simp only
  split
  · exact ⟨smWf_filter _ w.1, w.2.1, w.2.2⟩
  · exact ⟨w.1, smWf_filter _ w.2.1, w.2.2⟩

theorem memWf_retireFrame {m : MemState} (t f : Nat) (w : memWf m = true) : memWf (retireFrame m t f) = true := by
  unfold retireFrame; split
  · exact w
  · exact memWf_same w rfl rfl rfl

end Sys2Proof.Machine
end

