-- ==== Sys2Proof/Laws/Kept.lean ====
section
/-! SUPPORT. What every operation on the whole state keeps: the queue, what lasts (Safety's Lasting) and the canonical memories. -/

namespace Sys2Proof.Machine

/-- Module flash keeps what lasts. -/
structure FlashKept (f g : Flash) : Prop where
  unit     : g.unit = f.unit
  stepping : g.stepping = f.stepping
  grade    : g.grade = f.grade
  model    : g.model = f.model
  factory  : g.factory = f.factory
  trims    : g.trims = f.trims
  counter  : f.counter ≤ g.counter
  retired  : ∀ r ∈ f.retired, r ∈ g.retired

/-- The queue is as it was, what lasts has lasted, and canonical memories stay canonical. -/
structure Kept (s t : State) : Prop where
  queue  : t.pending = s.pending
  flash  : FlashKept s.flash t.flash
  drawn  : s.freeCtr ≤ t.freeCtr
  memory : memWf s.mem = true → memWf t.mem = true

theorem FlashKept.refl (f : Flash) : FlashKept f f := ⟨rfl, rfl, rfl, rfl, rfl, rfl, Nat.le_refl _, fun _ h => h⟩

theorem FlashKept.trans {f g h : Flash} (a : FlashKept f g) (b : FlashKept g h) : FlashKept f h :=
  ⟨b.unit.trans a.unit, b.stepping.trans a.stepping, b.grade.trans a.grade, b.model.trans a.model, b.factory.trans a.factory,
   b.trims.trans a.trims, Nat.le_trans a.counter b.counter, fun r h => b.retired r (a.retired r h)⟩

theorem Kept.refl (s : State) : Kept s s := ⟨rfl, FlashKept.refl _, Nat.le_refl _, id⟩

theorem Kept.trans {s t u : State} (a : Kept s t) (b : Kept t u) : Kept s u :=
  ⟨b.queue.trans a.queue, a.flash.trans b.flash, Nat.le_trans a.drawn b.drawn, fun h => b.memory (a.memory h)⟩

/-- What is kept lasts. -/
theorem Kept.lasting {s t : State} (h : Kept s t) : Lasting s t :=
  ⟨h.flash.unit, h.flash.stepping, h.flash.grade, h.flash.model, h.flash.factory, h.flash.trims, h.flash.counter, h.flash.retired, h.drawn⟩

/-- A change of nothing but the fields that neither last nor hold memory. -/
theorem Kept.mk0 {r s : State} {clock : Nat} {tiles : SMap Tile} {ring : RingState} {lk : LinkState} {fab : FabState} {pwr : PwrState} {kiln : KilnState} {p0 : HostPort} {p1 : HostPort} {boot : BootState} {upd : UpdState} {spdm0 : SpdmConn} {spdm1 : SpdmConn} {smb : SmbState}
    (h : Kept r s) :
    Kept r (State.mk clock s.freeCtr tiles ring s.mem lk fab pwr kiln p0 p1 boot s.flash upd spdm0 spdm1 smb s.pending) :=
  h.trans ⟨rfl, FlashKept.refl _, Nat.le_refl _, id⟩

/-- A change of memory that keeps it canonical. -/
theorem Kept.mkMem {r s : State} {clock : Nat} {tiles : SMap Tile} {ring : RingState} {mem : MemState} {lk : LinkState} {fab : FabState} {pwr : PwrState} {kiln : KilnState} {p0 : HostPort} {p1 : HostPort} {boot : BootState} {upd : UpdState} {spdm0 : SpdmConn} {spdm1 : SpdmConn} {smb : SmbState}
    (h : Kept r s) (m : memWf s.mem = true → memWf mem = true) :
    Kept r (State.mk clock s.freeCtr tiles ring mem lk fab pwr kiln p0 p1 boot s.flash upd spdm0 spdm1 smb s.pending) :=
  h.trans ⟨rfl, FlashKept.refl _, Nat.le_refl _, m⟩

/-- A change of module flash that keeps what lasts. -/
theorem Kept.mkFlash {r s : State} {clock : Nat} {tiles : SMap Tile} {ring : RingState} {lk : LinkState} {fab : FabState} {pwr : PwrState} {kiln : KilnState} {p0 : HostPort} {p1 : HostPort} {boot : BootState} {flash : Flash} {upd : UpdState} {spdm0 : SpdmConn} {spdm1 : SpdmConn} {smb : SmbState}
    (h : Kept r s) (f : FlashKept s.flash flash) :
    Kept r (State.mk clock s.freeCtr tiles ring s.mem lk fab pwr kiln p0 p1 boot flash upd spdm0 spdm1 smb s.pending) :=
  h.trans ⟨rfl, f, Nat.le_refl _, id⟩

/-- A change of memory and module flash. -/
theorem Kept.mkBoth {r s : State} {clock : Nat} {tiles : SMap Tile} {ring : RingState} {mem : MemState} {lk : LinkState} {fab : FabState} {pwr : PwrState} {kiln : KilnState} {p0 : HostPort} {p1 : HostPort} {boot : BootState} {flash : Flash} {upd : UpdState} {spdm0 : SpdmConn} {spdm1 : SpdmConn} {smb : SmbState}
    (h : Kept r s) (m : memWf s.mem = true → memWf mem = true) (f : FlashKept s.flash flash) :
    Kept r (State.mk clock s.freeCtr tiles ring mem lk fab pwr kiln p0 p1 boot flash upd spdm0 spdm1 smb s.pending) :=
  h.trans ⟨rfl, f, Nat.le_refl _, m⟩

/-- A draw of a free value. -/
theorem Kept.mkDrawn {r s : State} {clock : Nat} {freeCtr : Nat} {tiles : SMap Tile} {ring : RingState} {lk : LinkState} {fab : FabState} {pwr : PwrState} {kiln : KilnState} {p0 : HostPort} {p1 : HostPort} {boot : BootState} {upd : UpdState} {spdm0 : SpdmConn} {spdm1 : SpdmConn} {smb : SmbState}
    (h : Kept r s) (c : s.freeCtr ≤ freeCtr) :
    Kept r (State.mk clock freeCtr tiles ring s.mem lk fab pwr kiln p0 p1 boot s.flash upd spdm0 spdm1 smb s.pending) :=
  h.trans ⟨rfl, FlashKept.refl _, c, id⟩

/-- A fold of steps that keep all keeps all. -/
theorem Kept.foldl {β : Type} {r s : State} (g : State → β → State) (l : List β) (h : Kept r s)
    (step : ∀ x b, Kept r x → Kept r (g x b)) : Kept r (l.foldl g s) := by
  induction l generalizing s with
  | nil => exact h
  | cons b l ih => exact ih (step s b h)

theorem Kept.foldRange {r s : State} (g : State → Nat → State) (n : Nat) (h : Kept r s)
    (step : ∀ x b, Kept r x → Kept r (g x b)) : Kept r (Machine.foldRange n g s) := Kept.foldl g _ h step

/-- What is written is what the record then holds (R30). -/
@[simp] theorem RecPair.value_write {α : Type} (p : RecPair α) (x : α) : (p.write x).value = x := by
  unfold RecPair.value RecPair.current RecPair.onB RecPair.write
  by_cases h : p.onB = true <;> simp [h]

/-- Writing the field record keeps what lasts. -/
theorem flashKept_putField (f : Flash) (x : List DWord) : FlashKept f (f.putField x) :=
  ⟨rfl, rfl, rfl, rfl, rfl, rfl, Nat.le_refl _, fun _ h => h⟩

/-- Writing the update state record keeps what lasts. -/
theorem flashKept_putUpd (f : Flash) (g : UpdData → UpdData) : FlashKept f (f.putUpd g) :=
  ⟨rfl, rfl, rfl, rfl, rfl, rfl, Nat.le_refl _, fun _ h => h⟩

/-- Writing the saved settings record keeps what lasts. -/
theorem flashKept_putSaved (f : Flash) (x : Option SavedRec) : FlashKept f (f.putSaved x) :=
  ⟨rfl, rfl, rfl, rfl, rfl, rfl, Nat.le_refl _, fun _ h => h⟩

/-- A longer retired frame record keeps what lasts. -/
theorem flashKept_putRetired (f : Flash) (l : List (Nat × Nat)) : FlashKept f (f.putRetired (f.retired ++ l)) :=
  ⟨rfl, rfl, rfl, rfl, rfl, rfl, Nat.le_refl _, fun r h => by
    show r ∈ (f.retiredRec.write (f.retired ++ l)).value
    rw [RecPair.value_write]; exact List.mem_append_left _ h⟩

/-- Adding findings to the field record keeps what lasts. -/
theorem flashKept_addDefects (f : Flash) (origin day : Nat) (found : List Finding) : FlashKept f (addDefects f origin day found).1 := by
  unfold addDefects; dsimp only
  split
  · exact FlashKept.refl f
  · exact flashKept_putField f _

theorem flashKept_chooseImage (f : Flash) : FlashKept f (chooseImage (dropCut f)).1 := by
  have a : FlashKept f (dropCut f) := by
    unfold dropCut; split
    · exact FlashKept.mk rfl rfl rfl rfl rfl rfl (Nat.le_refl _) (fun _ x => x)
    · exact FlashKept.refl f
  have b : FlashKept (dropCut f) (chooseImage (dropCut f)).1 := by
    generalize dropCut f = g
    unfold chooseImage
    repeat' first | exact FlashKept.mk rfl rfl rfl rfl rfl rfl (Nat.le_refl _) (fun _ x => x) | split
  exact a.trans b

theorem memWf_trainDevs {m : MemState} (tier n : Nat) (present : Nat → Bool) (w : memWf m = true) : memWf (trainDevs m tier n present) = true := by
  unfold trainDevs; exact memWf_foldl _ (fun _ _ w => memWf_setMemDev _ _ _ w) _ w

theorem memWf_mapPages (part tier : Nat) (writable ddr : Bool) (n : Nat) : ∀ (first : Nat) {m : MemState}, memWf m = true →
    memWf (mapPages part tier writable ddr n first m) = true := by
  induction n with
  | zero => intro first m w; exact w
  | succ n ih =>
    intro first m w
    unfold mapPages
    split
    · rename_i e; exact ih _ (memWf_tmapSet _ _ (memWf_takeFrame e w))
    · exact w

/-- What an outcome keeps: a next state keeps all. -/
def KeptOut (s : State) (o : Host.Outcome State Fault Refusal) : Prop := ∀ t, o = .next t → Kept s t

theorem KeptOut.next {s t : State} (h : Kept s t) : KeptOut s (.next t) := by
  intro u e; injection e with e; exact e ▸ h

theorem KeptOut.fault {s : State} (f : Fault) : KeptOut s (.fault f) := by
  intro u e; cases e

theorem KeptOut.refused {s : State} (f : Refusal) : KeptOut s (.refused f) := by
  intro u e; cases e

/-- A change of nothing but the bookkeeping of memory. -/
theorem memWf_mk {m : MemState} {hbmNext ddrNext hbmBack ddrBack hbmQ ddrQ retired faultOn faultPage faultSt faultMov faultPart hbmDev ddrDev scrubBad migr release unmapWait stale tmapBy ceLog}
    (w : memWf m = true) : memWf (MemState.mk m.tmap m.hbm m.ddr hbmNext ddrNext hbmBack ddrBack hbmQ ddrQ retired faultOn faultPage faultSt faultMov faultPart hbmDev ddrDev scrubBad migr release unmapWait stale tmapBy ceLog) = true := by
  rw [memWf_def] at *; exact w

theorem memWf_unmapNow {m : MemState} (page : Nat) (zero : Bool) (w : memWf m = true) : memWf (unmapNow m page zero) = true := by
  unfold unmapNow; dsimp only
  cases zero
  · exact memWf_kilnReturn _ _ (memWf_tmapSet _ _ w)
  · exact memWf_kilnReturn _ _ (memWf_tmapSet _ _ (memWf_zeroFrame _ _ w))

theorem memWf_unmapWaiting {m : MemState} (page : Nat) (w : memWf m = true) : memWf (unmapWaiting m page) = true := by
  unfold unmapWaiting; split
  · exact w
  · exact memWf_unmapNow _ _ (memWf_mk w)

theorem memWf_setMember {m : MemState} (c : CordEntry) (r : Nat) (a : BitVec 16) (w : memWf m = true) : memWf (setMember m c r a) = true := by
  unfold setMember; exact memWf_memWrite _ _ _ w

theorem memWf_setRingField {m : MemState} (r : Ring) (off v : Nat) (w : memWf m = true) : memWf (setRingField m r off v) = true := by
  unfold setRingField; exact memWf_vaWrite _ _ w

theorem memWf_ringCreate {m : MemState} (kind ctx : Nat) (r : Ring) (w : memWf m = true) : memWf (ringCreate m kind ctx r) = true := by
  unfold ringCreate; exact memWf_vaWrite _ _ w

theorem memWf_ringPut {m : MemState} (r : Ring) (e : List Byte) (w : memWf m = true) : memWf (ringPut m r e) = true := by
  unfold ringPut; exact memWf_setRingField _ _ _ (memWf_vaWrite _ _ w)

theorem memWf_ringDrop {m : MemState} (r : Ring) (w : memWf m = true) : memWf (ringDrop m r) = true := by
  unfold ringDrop; exact memWf_setRingField _ _ _ w

theorem memWf_ringPutOver {m : MemState} (r : Ring) (e : List Byte) (w : memWf m = true) : memWf (ringPutOver m r e) = true := by
  unfold ringPutOver
  repeat' first | with_reducible exact w | with_reducible apply memWf_ringPut | with_reducible apply memWf_setRingField | with_reducible apply memWf_ringDrop | split

end Sys2Proof.Machine
end

