-- ==== Sys2Proof/Laws/KeptOps.lean ====
section
/-! SUPPORT. What is kept by the operations on tiles, records, findings and steps. -/

namespace Sys2Proof.Machine

set_option linter.unusedTactic false
set_option linter.unreachableTactic false

theorem kept_setTile {z0 s : State} (hk : Kept z0 s) (t : Nat) (x : Tile) : Kept z0 (setTile s t x) := by
  unfold setTile; try dsimp only
  repeat' first | with_reducible assumption | (with_reducible refine Kept.mk0 ?_)

theorem kept_updTile {z0 s : State} (hk : Kept z0 s) (t : Nat) (f : Tile → Tile) : Kept z0 (updTile s t f) := by
  unfold updTile; try dsimp only
  repeat' first | with_reducible assumption | with_reducible apply kept_setTile

theorem kept_updTiles {z0 s : State} (hk : Kept z0 s) (ts : List Nat) (f : Nat → Tile → Tile) : Kept z0 (updTiles s ts f) := by
  unfold updTiles; try dsimp only
  repeat' first | with_reducible assumption | with_reducible apply kept_updTile | (with_reducible refine Kept.foldl _ _ ?_ ?_)
                | (intro _ _ _; try dsimp only)

theorem kept_setPart {z0 s : State} (hk : Kept z0 s) (p : Nat) (x : PartSt) : Kept z0 (setPart s p x) := by
  unfold setPart; try dsimp only
  repeat' first | with_reducible assumption | (with_reducible refine Kept.mk0 ?_)

theorem kept_setCtx {z0 s : State} (hk : Kept z0 s) (c : Nat) (x : Ctx) : Kept z0 (setCtx s c x) := by
  unfold setCtx; try dsimp only
  repeat' first | with_reducible assumption | (with_reducible refine Kept.mk0 ?_)

theorem kept_updCtx {z0 s : State} (hk : Kept z0 s) (c : Nat) (f : Ctx → Ctx) : Kept z0 (updCtx s c f) := by
  unfold updCtx; try dsimp only
  repeat' first | with_reducible assumption | with_reducible apply kept_setCtx

theorem kept_setHost {z0 s : State} (hk : Kept z0 s) (p : Nat) (x : HostPort) : Kept z0 (setHost s p x) := by
  unfold setHost; try dsimp only
  repeat' first | with_reducible assumption | split | (with_reducible refine Kept.mk0 ?_)

theorem kept_updHost {z0 s : State} (hk : Kept z0 s) (p : Nat) (f : HostPort → HostPort) : Kept z0 (updHost s p f) := by
  unfold updHost; try dsimp only
  repeat' first | with_reducible assumption | with_reducible apply kept_setHost

theorem kept_setEmber {z0 s : State} (hk : Kept z0 s) (i : Nat) (x : EmberSt) : Kept z0 (setEmber s i x) := by
  unfold setEmber; try dsimp only
  repeat' first | with_reducible assumption | (with_reducible refine Kept.mk0 ?_)

theorem kept_drawFree {r s : State} (h : Kept r s) : Kept r (drawFree s).2 := by
  unfold drawFree; dsimp only
  with_reducible refine Kept.mkDrawn h (Nat.le_succ _)

theorem kept_updLinks {z0 s : State} (hk : Kept z0 s) (f : LinkState → LinkState) : Kept z0 (updLinks s f) := by
  unfold updLinks; try dsimp only
  repeat' first | with_reducible assumption | (with_reducible refine Kept.mk0 ?_)

theorem kept_updLink {z0 s : State} (hk : Kept z0 s) (l : Nat) (f : LinkPort → LinkPort) : Kept z0 (updLink s l f) := by
  unfold updLink; try dsimp only
  repeat' first | with_reducible assumption | (with_reducible refine Kept.mk0 ?_)

theorem kept_updPwr {z0 s : State} (hk : Kept z0 s) (f : PwrState → PwrState) : Kept z0 (updPwr s f) := by
  unfold updPwr; try dsimp only
  repeat' first | with_reducible assumption | (with_reducible refine Kept.mk0 ?_)

theorem kept_setMover {z0 s : State} (hk : Kept z0 s) (m : Nat) (x : Mover) : Kept z0 (setMover s m x) := by
  unfold setMover; try dsimp only
  repeat' first | with_reducible assumption | (with_reducible refine Kept.mk0 ?_)

theorem kept_idleTick {z0 s : State} (hk : Kept z0 s) : Kept z0 (idleTick s) := by
  unfold idleTick; try dsimp only
  repeat' first | with_reducible assumption | (with_reducible refine Kept.mk0 ?_)
                | (with_reducible refine Kept.mkMem ?_ (fun w => ?_)) | with_reducible apply memWf_mk

theorem kept_tmapTurn {z0 s : State} (hk : Kept z0 s) (m : Nat) : Kept z0 (tmapTurn s m) := by
  unfold tmapTurn; try dsimp only
  repeat' first | with_reducible assumption | with_reducible apply kept_idleTick | split

theorem kept_updFab {z0 s : State} (hk : Kept z0 s) (f : FabState → FabState) : Kept z0 (updFab s f) := by
  unfold updFab; try dsimp only
  repeat' first | with_reducible assumption | (with_reducible refine Kept.mk0 ?_)

theorem kept_whileKiln {z0 s t : State} (hk : Kept z0 s) (ht : Kept z0 t) : Kept z0 (whileKiln s t) := by
  unfold whileKiln; split <;> assumption

theorem kept_crossCtl {z0 s : State} (hk : Kept z0 s) (t : Nat) (m : BitVec 128) : Kept z0 (crossCtl s t m) := by
  unfold crossCtl; try dsimp only
  repeat' first | with_reducible assumption | (with_reducible refine Kept.mk0 ?_)

theorem kept_raiseVec {z0 s : State} (hk : Kept z0 s) (p v : Nat) : Kept z0 (raiseVec s p v) := by
  unfold raiseVec; try dsimp only
  repeat' first | with_reducible assumption | with_reducible apply kept_updHost | split | (with_reducible refine Kept.mk0 ?_)

theorem kept_putRecord {z0 s : State} (hk : Kept z0 s) (p : Nat) (isTrace : Bool) (e : List Byte) :
    Kept z0 (putRecord s p isTrace e) := by
  unfold putRecord; try dsimp only
  repeat' first | with_reducible assumption | with_reducible apply kept_raiseVec | split | (with_reducible refine Kept.mk0 ?_)
                | (with_reducible refine Kept.mkMem ?_ (fun w => ?_)) | with_reducible apply memWf_ringPutOver
                | with_reducible apply memWf_mk

theorem kept_putAll {z0 s : State} (hk : Kept z0 s) (isTrace : Bool) (e : List Byte) : Kept z0 (putAll s isTrace e) := by
  unfold putAll; try dsimp only
  repeat' first | with_reducible assumption | with_reducible apply kept_putRecord | (with_reducible refine Kept.foldl _ _ ?_ ?_)
                | (intro _ _ _; try dsimp only) | split

theorem kept_postLog {z0 s : State} (hk : Kept z0 s) (code : Nat) (ctx : Option (Nat × Nat)) (args : List Nat) :
    Kept z0 (postLog s code ctx args).1 := by
  unfold postLog; try dsimp only
  repeat' first | with_reducible assumption | with_reducible apply kept_drawFree | with_reducible apply kept_putAll | split
                | (with_reducible refine Kept.mk0 ?_)

theorem kept_putEvent {z0 s : State} (hk : Kept z0 s) (p : Nat) (e : List Byte) : Kept z0 (putEvent s p e) := by
  unfold putEvent; try dsimp only
  repeat' first | with_reducible assumption | with_reducible apply kept_updHost | with_reducible apply kept_raiseVec | split
                | (with_reducible refine Kept.mk0 ?_) | (with_reducible refine Kept.mkMem ?_ (fun w => ?_))
                | with_reducible apply memWf_ringDrop | with_reducible apply memWf_ringPut | with_reducible apply memWf_mk

theorem kept_flushLost {z0 s : State} (hk : Kept z0 s) (p : Nat) : Kept z0 (flushLost s p) := by
  unfold flushLost; try dsimp only
  repeat' first | with_reducible assumption | with_reducible apply kept_postLog | with_reducible apply kept_updHost
                | with_reducible apply kept_putEvent | split | (with_reducible refine Kept.mk0 ?_)

theorem kept_postEvent {z0 s : State} (hk : Kept z0 s) (ports : List Nat) (code : Nat) (ctx : Option (Nat × Nat))
    (args : List Nat) :
    Kept z0 (postEvent s ports code ctx args) := by
  unfold postEvent; try dsimp only
  repeat' first | with_reducible assumption | with_reducible apply kept_postLog | with_reducible apply kept_putEvent
                | with_reducible apply kept_flushLost | (with_reducible refine Kept.foldl _ _ ?_ ?_)
                | (intro _ _ _; try dsimp only) | split

theorem kept_postAll {z0 s : State} (hk : Kept z0 s) (code : Nat) (args : List Nat) : Kept z0 (postAll s code args) := by
  unfold postAll; try dsimp only
  repeat' first | with_reducible assumption | with_reducible apply kept_postEvent

theorem kept_postCtx {z0 s : State} (hk : Kept z0 s) (c code : Nat) (args : List Nat) : Kept z0 (postCtx s c code args) := by
  unfold postCtx; try dsimp only
  repeat' first | with_reducible assumption | with_reducible apply kept_postEvent

theorem kept_logOnly {z0 s : State} (hk : Kept z0 s) (code : Nat) (args : List Nat) : Kept z0 (logOnly s code args) := by
  unfold logOnly; try dsimp only
  repeat' first | with_reducible assumption | with_reducible apply kept_postLog

theorem kept_trace {z0 s : State} (hk : Kept z0 s) (point ctx part step data : Nat) :
    Kept z0 (trace s point ctx part step data) := by
  unfold trace; try dsimp only
  repeat' first | with_reducible assumption | with_reducible apply kept_putAll | split | (with_reducible refine Kept.mk0 ?_)

theorem kept_traceLink {z0 s : State} (hk : Kept z0 s) (l old : Nat) : Kept z0 (traceLink s l old) := by
  unfold traceLink; try dsimp only
  repeat' first | with_reducible assumption | with_reducible apply kept_trace | split

theorem kept_complete {z0 s : State} (hk : Kept z0 s) (c tag opcode status : Nat) (body : Nat) :
    Kept z0 (complete s c tag opcode status body) := by
  unfold complete; try dsimp only
  repeat' first | with_reducible assumption | with_reducible apply kept_raiseVec | (with_reducible refine Kept.mk0 ?_)
                | (with_reducible refine Kept.mkMem ?_ (fun w => ?_)) | with_reducible apply memWf_ringPut
                | with_reducible apply memWf_mk

theorem kept_replayBuffer {z0 s : State} (hk : Kept z0 s) (p : Nat) (isTrace : Bool) : Kept z0 (replayBuffer s p isTrace) := by
  unfold replayBuffer; try dsimp only
  repeat' first | with_reducible assumption | with_reducible apply kept_putRecord | (with_reducible refine Kept.foldl _ _ ?_ ?_)
                | (intro _ _ _; try dsimp only) | split | (with_reducible refine Kept.mk0 ?_)

theorem kept_applyMap {z0 s : State} (hk : Kept z0 s) (ts : List Nat) : Kept z0 (applyMap s ts) := by
  unfold applyMap; try dsimp only
  repeat' first | with_reducible assumption | with_reducible apply kept_updTiles | (with_reducible refine Kept.mk0 ?_)

theorem kept_recordFindings {z0 s : State} (hk : Kept z0 s) (origin : Nat) (found : List Finding) :
    Kept z0 (recordFindings s origin found) := by
  unfold recordFindings; try dsimp only
  repeat' first | with_reducible assumption | split | (with_reducible refine Kept.mk0 ?_)
                | (with_reducible refine Kept.mkFlash ?_ ?_) | (with_reducible refine Kept.mkBoth ?_ (fun w => ?_) ?_)
                | with_reducible apply FlashKept.refl | with_reducible apply flashKept_addDefects
                | with_reducible apply flashKept_putField | with_reducible apply flashKept_putRetired
                | with_reducible apply flashKept_putUpd | with_reducible apply flashKept_putSaved
                | with_reducible apply flashKept_chooseImage
                | exact FlashKept.mk rfl rfl rfl rfl rfl rfl (Nat.le_refl _) (fun _ x => x)
                | exact FlashKept.mk rfl rfl rfl rfl rfl rfl (by simp) (fun _ x => by simp [x])

theorem kept_writeDefects {z0 s : State} (hk : Kept z0 s) : Kept z0 (writeDefects s) := by
  unfold writeDefects; try dsimp only
  repeat' first | with_reducible assumption | with_reducible apply kept_recordFindings | split
                | (with_reducible refine Kept.mk0 ?_)

theorem kept_resetTile {z0 s : State} (hk : Kept z0 s) (t : Nat) : Kept z0 (resetTile s t) := by
  unfold resetTile; try dsimp only
  repeat' first | with_reducible assumption | with_reducible apply kept_setTile | split | (with_reducible refine Kept.mk0 ?_)

theorem kept_zeroTile {z0 s : State} (hk : Kept z0 s) (t : Nat) : Kept z0 (zeroTile s t) := by
  unfold zeroTile; try dsimp only
  repeat' first | with_reducible assumption | with_reducible apply kept_updTile | with_reducible apply kept_resetTile
                | (with_reducible refine Kept.mk0 ?_)

theorem kept_abortPart {z0 s : State} (hk : Kept z0 s) (p : Nat) : Kept z0 (abortPart s p) := by
  unfold abortPart; try dsimp only
  repeat' first | with_reducible assumption | with_reducible apply kept_updTiles

theorem kept_closeWindows {z0 s : State} (hk : Kept z0 s) (p : Nat) : Kept z0 (closeWindows s p) := by
  unfold closeWindows; try dsimp only
  repeat' first | with_reducible assumption | with_reducible apply kept_updTiles | (with_reducible refine Kept.mk0 ?_)

theorem kept_openCluster {z0 s : State} (hk : Kept z0 s) (p : Nat) (i : Image) : Kept z0 (openCluster s p i) := by
  unfold openCluster; try dsimp only
  repeat' first | with_reducible assumption | with_reducible apply kept_updTiles | split | (with_reducible refine Kept.mk0 ?_)

theorem kept_loadStores {z0 s : State} (hk : Kept z0 s) (p : Nat) (i : Image) : Kept z0 (loadStores s p i) := by
  unfold loadStores; try dsimp only
  repeat' first | with_reducible assumption | with_reducible apply kept_updTile | with_reducible apply kept_updTiles
                | with_reducible apply kept_openCluster | with_reducible apply kept_setPart
                | (with_reducible refine Kept.foldl _ _ ?_ ?_) | (intro _ _ _; try dsimp only)
                | (with_reducible refine Kept.mk0 ?_)

theorem kept_startTile {z0 s : State} (hk : Kept z0 s) (t : Nat) : Kept z0 (startTile s t) := by
  unfold startTile; try dsimp only
  repeat' first | with_reducible assumption | with_reducible apply kept_updTile | (with_reducible refine Kept.foldl _ _ ?_ ?_)
                | (intro _ _ _; try dsimp only) | split | (with_reducible refine Kept.mk0 ?_)

theorem kept_freshWindows {z0 s : State} (hk : Kept z0 s) (p : Nat) (r : StepRun) : Kept z0 (freshWindows s p r) := by
  unfold freshWindows; try dsimp only
  repeat' first | with_reducible assumption | split | (with_reducible refine Kept.mk0 ?_)

theorem kept_startSection {z0 s : State} (hk : Kept z0 s) (c : Nat) (r : StepRun) : Kept z0 (startSection s c r) := by
  unfold startSection; try dsimp only
  repeat' first | with_reducible assumption | with_reducible apply kept_updTile | with_reducible apply kept_freshWindows
                | with_reducible apply kept_startTile | with_reducible apply kept_updCtx | with_reducible apply kept_trace
                | (with_reducible refine Kept.foldl _ _ ?_ ?_) | (intro _ _ _; try dsimp only) | split
                | (with_reducible refine Kept.mk0 ?_)

theorem kept_clearCounts {z0 s : State} (hk : Kept z0 s) (c : Nat) : Kept z0 (clearCounts s c) := by
  unfold clearCounts; try dsimp only
  repeat' first | with_reducible assumption | with_reducible apply kept_setEmber | (with_reducible refine Kept.foldl _ _ ?_ ?_)
                | (intro _ _ _; try dsimp only) | split | (with_reducible refine Kept.mk0 ?_)

theorem kept_stepBoundary {z0 s : State} (hk : Kept z0 s) (p : Nat) : Kept z0 (stepBoundary s p) := by
  unfold stepBoundary; try dsimp only
  repeat' first | with_reducible assumption | with_reducible apply kept_updTiles | with_reducible apply kept_updPwr | split
                | (with_reducible refine Kept.mk0 ?_)

theorem kept_writeCord {z0 s : State} (hk : Kept z0 s) (k : Nat) (e : CordEntry) : Kept z0 (writeCord s k e) := by
  unfold writeCord; try dsimp only
  repeat' first | with_reducible assumption | with_reducible apply kept_trace | (with_reducible refine Kept.foldl _ _ ?_ ?_)
                | (intro _ _ _; try dsimp only) | split | (with_reducible refine Kept.mk0 ?_)

theorem kept_applyCords {z0 s : State} (hk : Kept z0 s) : Kept z0 (applyCords s) := by
  unfold applyCords; try dsimp only
  repeat' first | with_reducible assumption | with_reducible apply kept_writeCord | (with_reducible refine Kept.foldl _ _ ?_ ?_)
                | (intro _ _ _; try dsimp only) | split | (with_reducible refine Kept.mk0 ?_)

theorem kept_dropCtx {z0 s : State} (hk : Kept z0 s) (c : Nat) : Kept z0 (dropCtx s c) := by
  unfold dropCtx; try dsimp only
  repeat' first | with_reducible assumption | with_reducible apply kept_setCtx | with_reducible apply kept_applyCords
                | with_reducible apply kept_setPart | split | (with_reducible refine Kept.mk0 ?_)

theorem kept_finishStep {z0 s : State} (hk : Kept z0 s) (c status : Nat) (pause : Bool) :
    Kept z0 (finishStep s c status pause) := by
  unfold finishStep; try dsimp only
  repeat' first | with_reducible assumption | with_reducible apply kept_complete | with_reducible apply kept_trace
                | with_reducible apply kept_stepBoundary | with_reducible apply kept_writeDefects
                | with_reducible apply kept_dropCtx | with_reducible apply kept_applyCords | with_reducible apply kept_updCtx
                | split | (with_reducible refine Kept.mk0 ?_)

theorem kept_failStep {z0 s : State} (hk : Kept z0 s) (c status : Nat) (pause : Bool) : Kept z0 (failStep s c status pause) := by
  unfold failStep; try dsimp only
  repeat' first | with_reducible assumption | with_reducible apply kept_finishStep | with_reducible apply kept_abortPart | split

theorem kept_countRefused {z0 s : State} (hk : Kept z0 s) (t : Nat) : Kept z0 (countRefused s t) := by
  unfold countRefused; try dsimp only
  repeat' first | with_reducible assumption | with_reducible apply kept_updCtx | split | (with_reducible refine Kept.mk0 ?_)
                | with_reducible apply KeptOut.refused

theorem kept_failTileStep {z0 s : State} (hk : Kept z0 s) (t status : Nat) : Kept z0 (failTileStep s t status) := by
  unfold failTileStep; try dsimp only
  repeat' first | with_reducible assumption | with_reducible apply kept_failStep | split

theorem kept_updRun {z0 s : State} (hk : Kept z0 s) (c : Nat) (f : StepRun → StepRun) : Kept z0 (updRun s c f) := by
  unfold updRun; try dsimp only
  repeat' first | with_reducible assumption | with_reducible apply kept_updCtx | (with_reducible refine Kept.mk0 ?_)

theorem kept_openReset {z0 s : State} (hk : Kept z0 s) (level target : Nat) (selftest : Bool) (port : Nat) :
    Kept z0 (openReset s level target selftest port) := by
  unfold openReset; try dsimp only
  repeat' first | with_reducible assumption | with_reducible apply kept_updTiles | split | (with_reducible refine Kept.mk0 ?_)

theorem kept_rollBack {z0 s : State} (hk : Kept z0 s) (c status : Nat) : Kept z0 (rollBack s c status) := by
  unfold rollBack; try dsimp only
  repeat' first | with_reducible assumption | with_reducible apply kept_finishStep | with_reducible apply kept_postCtx | split

theorem kept_soleFailed {z0 s : State} (hk : Kept z0 s) (c cause : Nat) : Kept z0 (soleFailed s c cause) := by
  unfold soleFailed; try dsimp only
  repeat' first | with_reducible assumption | with_reducible apply kept_openReset | with_reducible apply kept_rollBack
                | with_reducible apply kept_abortPart

theorem kept_noteLate {z0 s : State} (hk : Kept z0 s) (c status cause : Nat) : Kept z0 (noteLate s c status cause) := by
  unfold noteLate; try dsimp only
  repeat' first | with_reducible assumption | with_reducible apply kept_updCtx | split | (with_reducible refine Kept.mk0 ?_)

theorem kept_noteCause {z0 s : State} (hk : Kept z0 s) (c status cause : Nat) : Kept z0 (noteCause s c status cause) := by
  unfold noteCause; try dsimp only
  repeat' first | with_reducible assumption | with_reducible apply kept_noteLate | with_reducible apply kept_updRun
                | with_reducible apply kept_updFab | with_reducible apply kept_abortPart | with_reducible apply kept_soleFailed
                | with_reducible apply kept_failStep | split | (with_reducible refine Kept.mk0 ?_)

theorem kept_beginSection {z0 s : State} (hk : Kept z0 s) (c : Nat) (r : StepRun) : Kept z0 (beginSection s c r) := by
  unfold beginSection; try dsimp only
  repeat' first | with_reducible assumption | with_reducible apply kept_startSection | with_reducible apply kept_noteCause
                | with_reducible apply kept_updCtx | split | (with_reducible refine Kept.mk0 ?_)

theorem kept_noteTile {z0 s : State} (hk : Kept z0 s) (t status cause : Nat) : Kept z0 (noteTile s t status cause) := by
  unfold noteTile; try dsimp only
  repeat' first | with_reducible assumption | with_reducible apply kept_noteCause | split

theorem kept_notePart {z0 s : State} (hk : Kept z0 s) (p status cause : Nat) : Kept z0 (notePart s p status cause) := by
  unfold notePart; try dsimp only
  repeat' first | with_reducible assumption | with_reducible apply kept_noteCause | split

theorem kept_emberInvalid {z0 s : State} (hk : Kept z0 s) (i buf : Nat) : Kept z0 (emberInvalid s i buf) := by
  unfold emberInvalid; try dsimp only
  repeat' first | with_reducible assumption | with_reducible apply kept_setEmber | with_reducible apply kept_postEvent | split
                | (with_reducible refine Kept.mk0 ?_)

end Sys2Proof.Machine
end

