-- ==== Sys2Proof/Laws/KeptLinks.lean ====
section
/-! SUPPORT. What is kept by the operations on the fabric, links, barriers, movers and tiles. -/

namespace Sys2Proof.Machine

set_option linter.unusedTactic false
set_option linter.unreachableTactic false

theorem kept_updRing {z0 s : State} (hk : Kept z0 s) (f : RingState → RingState) : Kept z0 (updRing s f) := by
  unfold updRing; try dsimp only
  repeat' first | with_reducible assumption | (with_reducible refine Kept.mk0 ?_)

theorem kept_freshId {z0 s : State} (hk : Kept z0 s) : Kept z0 (freshId s).2 := by
  unfold freshId; try dsimp only
  repeat' first | with_reducible assumption | with_reducible apply kept_updRing | (with_reducible refine Kept.mk0 ?_)

theorem kept_pushLink {z0 s : State} (hk : Kept z0 s) (l vc : Nat) (p : Packet) : Kept z0 (pushLink s l vc p) := by
  unfold pushLink; try dsimp only
  repeat' first | with_reducible assumption | with_reducible apply kept_updLink

theorem kept_sendCtl {z0 s : State} (hk : Kept z0 s) (p : Packet) : Kept z0 (sendCtl s p) := by
  unfold sendCtl; try dsimp only
  repeat' first | with_reducible assumption | with_reducible apply kept_pushLink | split

theorem kept_countLate {z0 s : State} (hk : Kept z0 s) (m enter bound : Nat) : Kept z0 (countLate s m enter bound) := by
  unfold countLate; try dsimp only
  repeat' first | with_reducible assumption | with_reducible apply kept_setMover | split | (with_reducible refine Kept.mk0 ?_)

theorem kept_refusalEffect {z0 s : State} (hk : Kept z0 s) (d : MDesc) (op st : Nat) : Kept z0 (refusalEffect s d op st) := by
  unfold refusalEffect; try dsimp only
  repeat' first | with_reducible assumption | with_reducible apply kept_failTileStep | with_reducible apply kept_countRefused
                | with_reducible apply kept_noteTile | split

theorem kept_refuseXfer {z0 s : State} (hk : Kept z0 s) (m op : Nat) (d : MDesc) (st : Nat) :
    Kept z0 (refuseXfer s m op d st) := by
  unfold refuseXfer; try dsimp only
  repeat' first | with_reducible assumption | with_reducible apply kept_setMover | with_reducible apply kept_refusalEffect
                | with_reducible apply kept_updTile | split | (with_reducible refine Kept.mk0 ?_)
                | (with_reducible refine Kept.mkMem ?_ (fun w => ?_)) | with_reducible apply memWf_seenMem
                | with_reducible apply memWf_tmapFault | with_reducible apply memWf_mk

theorem kept_moverDone {z0 s : State} (hk : Kept z0 s) (m op : Nat) (d : MDesc) (st enter bound : Nat) :
    Kept z0 (moverDone s m op d st enter bound) := by
  unfold moverDone; try dsimp only
  repeat' first | with_reducible assumption | with_reducible apply kept_refuseXfer | with_reducible apply kept_updTile
                | with_reducible apply kept_countLate | split

theorem kept_xferCheck {z0 s : State} (hk : Kept z0 s) (id : Nat) : Kept z0 (xferCheck s id) := by
  unfold xferCheck; try dsimp only
  repeat' first | with_reducible assumption | with_reducible apply kept_updRing | with_reducible apply kept_moverDone | split
                | (with_reducible refine Kept.mk0 ?_)

theorem kept_gatherCheck {z0 s : State} (hk : Kept z0 s) (g : GatherCopy) : Kept z0 (gatherCheck s g) := by
  unfold gatherCheck; try dsimp only
  repeat' first | with_reducible assumption | with_reducible apply kept_updFab | with_reducible apply kept_sendCtl | split
                | (with_reducible refine Kept.mk0 ?_)

theorem kept_gatherStep {z0 s : State} (hk : Kept z0 s) (cord srank tag st : Nat) (landed : Bool) :
    Kept z0 (gatherStep s cord srank tag st landed) := by
  unfold gatherStep; try dsimp only
  repeat' first | with_reducible assumption | with_reducible apply kept_gatherCheck | with_reducible apply kept_updFab | split
                | (with_reducible refine Kept.mk0 ?_)

theorem kept_packetDone {z0 s : State} (hk : Kept z0 s) (o : OutPkt) (st : Nat) : Kept z0 (packetDone s o st) := by
  unfold packetDone; try dsimp only
  repeat' first | with_reducible assumption | with_reducible apply kept_updFab | with_reducible apply kept_updRing
                | with_reducible apply kept_xferCheck | split | (with_reducible refine Kept.mk0 ?_)

theorem kept_takeCompl {z0 s : State} (hk : Kept z0 s) (c : Compl) : Kept z0 (takeCompl s c) := by
  unfold takeCompl; try dsimp only
  repeat' first | with_reducible assumption | with_reducible apply kept_updFab | with_reducible apply kept_packetDone
                | with_reducible apply kept_gatherStep | split | (with_reducible refine Kept.mk0 ?_)
                | with_reducible apply KeptOut.refused

theorem kept_answer {z0 s : State} (hk : Kept z0 s) (h : PktHdr) (st : Nat) : Kept z0 (answer s h st) := by
  unfold answer; try dsimp only
  repeat' first | with_reducible assumption | with_reducible apply kept_takeCompl | with_reducible apply kept_sendCtl | split

theorem kept_ringAdd {z0 s : State} (hk : Kept z0 s) (tile : Nat) (words : Nat → List MWord) (org : Origin) :
    Kept z0 (ringAdd s tile words org) := by
  unfold ringAdd; try dsimp only
  repeat' first | with_reducible assumption | with_reducible apply kept_freshId | with_reducible apply kept_updRing
                | (with_reducible refine Kept.mk0 ?_)

theorem kept_ringWrite {z0 s : State} (hk : Kept z0 s) (h : PktHdr) (ws : List (List Byte)) (org : Origin) :
    Kept z0 (ringWrite s h ws org) := by
  unfold ringWrite; try dsimp only
  repeat' first | with_reducible assumption | with_reducible apply kept_ringAdd

theorem kept_nextTag {z0 s : State} (hk : Kept z0 s) (m : Nat) : Kept z0 (nextTag s m).2 := by
  unfold nextTag; try dsimp only
  repeat' first | with_reducible assumption | with_reducible apply kept_updFab | (with_reducible refine Kept.mk0 ?_)

theorem kept_sendPartial {z0 s : State} (hk : Kept z0 s) (k part : Nat) (p : Packet) : Kept z0 (sendPartial s k part p) := by
  unfold sendPartial; try dsimp only
  repeat' first | with_reducible assumption | with_reducible apply kept_nextTag | with_reducible apply kept_updFab
                | with_reducible apply kept_pushLink | with_reducible apply kept_packetDone | split
                | (with_reducible refine Kept.mk0 ?_)

theorem kept_writeResult {z0 s : State} (hk : Kept z0 s) (c : CordEntry) (o : RedSlot) (bs : List Byte) :
    Kept z0 (writeResult s c o bs) := by
  unfold writeResult; try dsimp only
  repeat' first | with_reducible assumption | with_reducible apply kept_ringWrite | split

theorem kept_redFinish {z0 s : State} (hk : Kept z0 s) (c : CordEntry) (h : PktHdr) : Kept z0 (redFinish s c h) := by
  unfold redFinish; try dsimp only
  repeat' first | with_reducible assumption | with_reducible apply kept_updFab | with_reducible apply kept_writeResult
                | with_reducible apply kept_sendPartial | (with_reducible refine Kept.foldl _ _ ?_ ?_)
                | (intro _ _ _; try dsimp only) | split | (with_reducible refine Kept.mk0 ?_)

theorem kept_arriveRed {z0 s : State} (hk : Kept z0 s) (cls : PClass) (h : PktHdr) (ws : List (List Byte)) :
    Kept z0 (arriveRed s cls h ws) := by
  unfold arriveRed; try dsimp only
  repeat' first | with_reducible assumption | with_reducible apply kept_answer | with_reducible apply kept_updFab
                | with_reducible apply kept_redFinish | split | (with_reducible refine Kept.mk0 ?_)
                | with_reducible apply KeptOut.refused

theorem kept_arriveWrite {z0 s : State} (hk : Kept z0 s) (h : PktHdr) (ws : List (List Byte)) : Kept z0 (arriveWrite s h ws) := by
  unfold arriveWrite; try dsimp only
  repeat' first | with_reducible assumption | with_reducible apply kept_answer | with_reducible apply kept_ringWrite | split

theorem kept_forwardCopy {z0 s : State} (hk : Kept z0 s) (h : PktHdr) (p : Packet) : Kept z0 (forwardCopy s h p) := by
  unfold forwardCopy; try dsimp only
  repeat' first | with_reducible assumption | with_reducible apply kept_pushLink | with_reducible apply kept_gatherStep | split

theorem kept_arriveGather {z0 s : State} (hk : Kept z0 s) (h : PktHdr) (ws : List (List Byte)) :
    Kept z0 (arriveGather s h ws) := by
  unfold arriveGather; try dsimp only
  repeat' first | with_reducible assumption | with_reducible apply kept_answer | with_reducible apply kept_updFab
                | with_reducible apply kept_forwardCopy | with_reducible apply kept_gatherStep
                | with_reducible apply kept_ringWrite | (with_reducible refine Kept.foldl _ _ ?_ ?_)
                | (intro _ _ _; try dsimp only) | split | (with_reducible refine Kept.mk0 ?_)

theorem kept_arriveBulk {z0 s : State} (hk : Kept z0 s) (cls : PClass) (h : PktHdr) (ws : List (List Byte)) :
    Kept z0 (arriveBulk s cls h ws) := by
  unfold arriveBulk; try dsimp only
  repeat' first | with_reducible assumption | with_reducible apply kept_arriveWrite | with_reducible apply kept_arriveGather
                | with_reducible apply kept_arriveRed | split

theorem kept_injectBulk {z0 s : State} (hk : Kept z0 s) (p : Packet) : Kept z0 (injectBulk s p) := by
  unfold injectBulk; try dsimp only
  repeat' first | with_reducible assumption | with_reducible apply kept_pushLink | with_reducible apply kept_arriveBulk
                | with_reducible apply kept_takeCompl | split

theorem kept_receiveBulk {z0 s : State} (hk : Kept z0 s) (cls : PClass) (h : PktHdr) (ws : List (List Byte)) :
    Kept z0 (receiveBulk s cls h ws) := by
  unfold receiveBulk; try dsimp only
  repeat' first | with_reducible assumption | with_reducible apply kept_pushLink | with_reducible apply kept_arriveBulk
                | with_reducible apply kept_answer | split | (with_reducible refine Kept.mk0 ?_)

theorem kept_tapStream {z0 s : State} (hk : Kept z0 s) (i : Nat) (h : PktHdr) (ws : List (List Byte)) :
    Kept z0 (tapStream s i h ws) := by
  unfold tapStream; try dsimp only
  repeat' first | with_reducible assumption | with_reducible apply kept_emberInvalid | with_reducible apply kept_setEmber | split
                | (with_reducible refine Kept.mk0 ?_) | (with_reducible refine Kept.mkMem ?_ (fun w => ?_))
                | with_reducible apply memWf_seenMem | with_reducible apply memWf_seenWrite | with_reducible apply memWf_mk

theorem kept_emberTap {z0 s : State} (hk : Kept z0 s) (h : PktHdr) (ws : List (List Byte)) : Kept z0 (emberTap s h ws) := by
  unfold emberTap; try dsimp only
  repeat' first | with_reducible assumption | with_reducible apply kept_tapStream
                | (with_reducible refine Kept.foldRange _ _ ?_ ?_) | (intro _ _ _; try dsimp only)

theorem kept_digestSend {z0 s : State} (hk : Kept z0 s) (h : PktHdr) (ws : List (List Byte)) : Kept z0 (digestSend s h ws) := by
  unfold digestSend; try dsimp only
  repeat' first | with_reducible assumption | with_reducible apply kept_setEmber
                | (with_reducible refine Kept.foldRange _ _ ?_ ?_) | (intro _ _ _; try dsimp only) | split
                | (with_reducible refine Kept.mk0 ?_)

theorem kept_moverWrite {z0 s : State} (hk : Kept z0 s) (m op : Nat) (d : MDesc) (h : InHdr) (ws rest : List (List Byte))
    (enter bound : Nat) :
    Kept z0 (moverWrite s m op d h ws rest enter bound) := by
  unfold moverWrite; try dsimp only
  repeat' first | with_reducible assumption | with_reducible apply kept_refuseXfer | with_reducible apply kept_ringAdd | split
                | (with_reducible refine Kept.mk0 ?_)

theorem kept_cputFrom {z0 s : State} (hk : Kept z0 s) (m : Nat) (d : MDesc) (i : Nat) (ws : List (List Byte))
    (enter bound : Nat) :
    Kept z0 (cputFrom s m d i ws enter bound) := by
  unfold cputFrom; try dsimp only
  repeat' first | with_reducible assumption | with_reducible apply kept_moverWrite

theorem kept_reportEnd {z0 s : State} (hk : Kept z0 s) (org : Option Origin) (st : Nat) : Kept z0 (reportEnd s org st) := by
  unfold reportEnd; try dsimp only
  repeat' first | with_reducible assumption | with_reducible apply kept_cputFrom | with_reducible apply kept_moverDone
                | with_reducible apply kept_gatherStep | with_reducible apply kept_emberTap | with_reducible apply kept_answer
                | split

theorem kept_xferEnd {z0 s : State} (hk : Kept z0 s) (id st : Nat) : Kept z0 (xferEnd s id st) := by
  unfold xferEnd; try dsimp only
  repeat' first | with_reducible assumption | with_reducible apply kept_reportEnd | with_reducible apply kept_updRing | split
                | (with_reducible refine Kept.mk0 ?_)

theorem kept_cancelTiles {z0 s : State} (hk : Kept z0 s) (mine : Nat → Bool) (p : Option Nat) :
    Kept z0 (cancelTiles s mine p) := by
  unfold cancelTiles; try dsimp only
  repeat' first | with_reducible assumption | with_reducible apply kept_reportEnd | (with_reducible refine Kept.foldl _ _ ?_ ?_)
                | (intro _ _ _; try dsimp only) | split | (with_reducible refine Kept.mk0 ?_)
                | (with_reducible refine Kept.mkMem ?_ (fun w => ?_)) | with_reducible apply memWf_mk

theorem kept_cancelPart {z0 s : State} (hk : Kept z0 s) (p : Nat) : Kept z0 (cancelPart s p) := by
  unfold cancelPart; try dsimp only
  repeat' first | with_reducible assumption | with_reducible apply kept_cancelTiles

theorem kept_sendLine {z0 s : State} (hk : Kept z0 s) (d : Nat) : Kept z0 (sendLine s d) := by
  unfold sendLine; try dsimp only
  repeat' first | with_reducible assumption | with_reducible apply kept_sendCtl | with_reducible apply kept_updFab
                | (with_reducible refine Kept.foldl _ _ ?_ ?_) | (intro _ _ _; try dsimp only) | split
                | (with_reducible refine Kept.mk0 ?_)

theorem kept_syncLines {z0 s : State} (hk : Kept z0 s) : Kept z0 (syncLines s) := by
  unfold syncLines; try dsimp only
  repeat' first | with_reducible assumption | with_reducible apply kept_sendLine | (with_reducible refine Kept.foldl _ _ ?_ ?_)
                | (intro _ _ _; try dsimp only) | split

theorem kept_reroutePacket {z0 s : State} (hk : Kept z0 s) (vc : Nat) (p : Packet) : Kept z0 (reroutePacket s vc p) := by
  unfold reroutePacket; try dsimp only
  repeat' first | with_reducible assumption | with_reducible apply kept_pushLink | with_reducible apply kept_answer
                | with_reducible apply kept_sendCtl | split

theorem kept_reroute {z0 s : State} (hk : Kept z0 s) (l : Nat) : Kept z0 (reroute s l) := by
  unfold reroute; try dsimp only
  repeat' first | with_reducible assumption | with_reducible apply kept_updLink | with_reducible apply kept_reroutePacket
                | (with_reducible refine Kept.foldl _ _ ?_ ?_) | (intro _ _ _; try dsimp only)
                | (with_reducible refine Kept.mk0 ?_)

theorem kept_afterLink {z0 s : State} (hk : Kept z0 s) (s0 : State) (l : Nat) : Kept z0 (afterLink s0 s l) := by
  unfold afterLink; try dsimp only
  repeat' first | with_reducible assumption | with_reducible apply kept_traceLink | with_reducible apply kept_updLink
                | with_reducible apply kept_logOnly | with_reducible apply kept_reroute | split

theorem kept_linkStep {z0 s : State} (hk : Kept z0 s) (l : Nat) (f : LinkPort → LinkPort) : Kept z0 (linkStep s l f) := by
  unfold linkStep; try dsimp only
  repeat' first | with_reducible assumption | with_reducible apply kept_syncLines | with_reducible apply kept_afterLink
                | with_reducible apply kept_updLink

theorem kept_linksStep {z0 s : State} (hk : Kept z0 s) (ls : List Nat) (f : LinkState → LinkState) :
    Kept z0 (linksStep s ls f) := by
  unfold linksStep; try dsimp only
  repeat' first | with_reducible assumption | with_reducible apply kept_syncLines | with_reducible apply kept_afterLink
                | with_reducible apply kept_updLinks | (with_reducible refine Kept.foldl _ _ ?_ ?_)
                | (intro _ _ _; try dsimp only)

theorem kept_dropBuffer {z0 s : State} (hk : Kept z0 s) (l : Nat) : Kept z0 (dropBuffer s l) := by
  unfold dropBuffer; try dsimp only
  repeat' first | with_reducible assumption | with_reducible apply kept_answer | with_reducible apply kept_updLink
                | (with_reducible refine Kept.foldl _ _ ?_ ?_) | (intro _ _ _; try dsimp only) | split

theorem kept_miswired {z0 s : State} (hk : Kept z0 s) (l : Nat) (r : IdentRec) : Kept z0 (miswired s l r) := by
  unfold miswired; try dsimp only
  repeat' first | with_reducible assumption | with_reducible apply kept_postAll

theorem kept_admitLink {z0 s : State} (hk : Kept z0 s) (l : Nat) : Kept z0 (admitLink s l) := by
  unfold admitLink; try dsimp only
  repeat' first | with_reducible assumption | with_reducible apply kept_updFab | with_reducible apply kept_linkStep
                | (with_reducible refine Kept.mk0 ?_)

theorem kept_admitLockstep {z0 s : State} (hk : Kept z0 s) (l : Nat) (w : LsWant) : Kept z0 (admitLockstep s l w) := by
  unfold admitLockstep; try dsimp only
  repeat' first | with_reducible assumption | with_reducible apply kept_updLink | with_reducible apply kept_postEvent
                | with_reducible apply kept_traceLink | (with_reducible refine Kept.mk0 ?_)

theorem kept_meetPeer {z0 s : State} (hk : Kept z0 s) (l : Nat) (r : IdentRec) (same : Bool) : Kept z0 (meetPeer s l r same) := by
  unfold meetPeer; try dsimp only
  repeat' first | with_reducible assumption | with_reducible apply kept_updLink | with_reducible apply kept_dropBuffer | split
                | (with_reducible refine Kept.mkMem ?_ (fun w => ?_)) | with_reducible apply memWf_same
                | with_reducible apply memWf_mk

theorem kept_saveLink {z0 s : State} (hk : Kept z0 s) (l : Nat) (v : LinkSaved) : Kept z0 (saveLink s l v) := by
  unfold saveLink; try dsimp only
  repeat' first | with_reducible assumption | split | (with_reducible refine Kept.mk0 ?_)
                | (with_reducible refine Kept.mkFlash ?_ ?_) | (with_reducible refine Kept.mkBoth ?_ (fun w => ?_) ?_)
                | with_reducible apply FlashKept.refl | with_reducible apply flashKept_addDefects
                | with_reducible apply flashKept_putField | with_reducible apply flashKept_putRetired
                | with_reducible apply flashKept_putUpd | with_reducible apply flashKept_putSaved
                | with_reducible apply flashKept_chooseImage
                | exact FlashKept.mk rfl rfl rfl rfl rfl rfl (Nat.le_refl _) (fun _ x => x)
                | exact FlashKept.mk rfl rfl rfl rfl rfl rfl (by simp) (fun _ x => by simp [x])

theorem kept_learnSettings {z0 s : State} (hk : Kept z0 s) (l : Nat) (r : IdentRec) : Kept z0 (learnSettings s l r) := by
  unfold learnSettings; try dsimp only
  repeat' first | with_reducible assumption | with_reducible apply kept_saveLink | with_reducible apply kept_updLink | split
                | (with_reducible refine Kept.mk0 ?_)

theorem kept_learnPeer {z0 s : State} (hk : Kept z0 s) (l : Nat) (r : IdentRec) : Kept z0 (learnPeer s l r) := by
  unfold learnPeer; try dsimp only
  repeat' first | with_reducible assumption | with_reducible apply kept_learnSettings | with_reducible apply kept_meetPeer
                | with_reducible apply kept_updLink | with_reducible apply kept_postAll | split
                | (with_reducible refine Kept.mk0 ?_) | (with_reducible refine Kept.mkMem ?_ (fun w => ?_))
                | with_reducible apply memWf_same | with_reducible apply memWf_mk

theorem kept_takeIdent {z0 s : State} (hk : Kept z0 s) (l : Nat) (r : IdentRec) : Kept z0 (takeIdent s l r) := by
  unfold takeIdent; try dsimp only
  repeat' first | with_reducible assumption | with_reducible apply kept_postAll | with_reducible apply kept_dropBuffer
                | with_reducible apply kept_linkStep | with_reducible apply kept_updLink | with_reducible apply kept_learnPeer
                | with_reducible apply kept_admitLockstep | with_reducible apply kept_admitLink
                | with_reducible apply kept_miswired | split | (with_reducible refine Kept.mk0 ?_)

theorem kept_passFlit {z0 s : State} (hk : Kept z0 s) (l : Nat) (c : CutPkt) (idx : Nat) : Kept z0 (passFlit s l c idx) := by
  unfold passFlit; try dsimp only
  repeat' first | with_reducible assumption | with_reducible apply kept_updLink | split | (with_reducible refine Kept.mk0 ?_)

theorem kept_keepPkt {z0 s : State} (hk : Kept z0 s) (l : Nat) (k : Packet) (idx : Nat) : Kept z0 (keepPkt s l k idx) := by
  unfold keepPkt; try dsimp only
  repeat' first | with_reducible assumption | with_reducible apply kept_updLink | split | (with_reducible refine Kept.mk0 ?_)

theorem kept_crossFlit {z0 s : State} (hk : Kept z0 s) (l : Nat) (f : LFlit) : Kept z0 (crossFlit s l f) := by
  unfold crossFlit; try dsimp only
  repeat' first | with_reducible assumption | with_reducible apply kept_keepPkt | with_reducible apply kept_passFlit
                | with_reducible apply kept_updLink | split | (with_reducible refine Kept.mk0 ?_)

theorem kept_takeRx {z0 s : State} (hk : Kept z0 s) (l : Nat) (k : Packet) : Kept z0 (takeRx s l k) := by
  unfold takeRx; try dsimp only
  repeat' first | with_reducible assumption | with_reducible apply kept_updLink | split | (with_reducible refine Kept.mk0 ?_)

theorem kept_updBar {z0 s : State} (hk : Kept z0 s) (cord ch : Nat) (f : BarState → BarState) : Kept z0 (updBar s cord ch f) := by
  unfold updBar; try dsimp only
  repeat' first | with_reducible assumption | with_reducible apply kept_updFab

theorem kept_sendBarrier {z0 s : State} (hk : Kept z0 s) (cord ch phase : Nat) (ranks : List Nat) (k : KRec) :
    Kept z0 (sendBarrier s cord ch phase ranks k) := by
  unfold sendBarrier; try dsimp only
  repeat' first | with_reducible assumption | with_reducible apply kept_sendCtl | (with_reducible refine Kept.foldl _ _ ?_ ?_)
                | (intro _ _ _; try dsimp only)

theorem kept_barEnter {z0 s : State} (hk : Kept z0 s) (cord ch phase : Nat) : Kept z0 (barEnter s cord ch phase) := by
  unfold barEnter; try dsimp only
  repeat' first | with_reducible assumption | with_reducible apply kept_sendBarrier | with_reducible apply kept_updBar
                | (with_reducible refine Kept.mk0 ?_)

theorem kept_barComplete {z0 s : State} (hk : Kept z0 s) (cord ch : Nat) : Kept z0 (barComplete s cord ch) := by
  unfold barComplete; try dsimp only
  repeat' first | with_reducible assumption | with_reducible apply kept_updBar | with_reducible apply kept_updFab
                | (with_reducible refine Kept.mk0 ?_)

theorem kept_barAdvance (n : Nat) : ∀ {z0 s : State} (hk : Kept z0 s) (cord ch : Nat), Kept z0 (barAdvance s cord ch n) := by
  induction n with
  | zero => intro z0 s hk cord ch; exact hk
  | succ n ih =>
    intro z0 s hk cord ch
    unfold barAdvance; try dsimp only
    repeat' first | with_reducible assumption | with_reducible apply ih | with_reducible apply kept_barComplete | with_reducible apply kept_barEnter | split

theorem kept_barArrived {z0 s : State} (hk : Kept z0 s) (cord ch : Nat) : Kept z0 (barArrived s cord ch) := by
  unfold barArrived; try dsimp only
  repeat' first | with_reducible assumption | with_reducible apply kept_barAdvance | with_reducible apply kept_barEnter

theorem kept_barReset {z0 s : State} (hk : Kept z0 s) (cord ch : Nat) : Kept z0 (barReset s cord ch) := by
  unfold barReset; try dsimp only
  repeat' first | with_reducible assumption | with_reducible apply kept_updBar | (with_reducible refine Kept.mk0 ?_)

theorem kept_takeBarrier {z0 s : State} (hk : Kept z0 s) (h : PktHdr) (ch gen : Nat) (k : KRec) :
    Kept z0 (takeBarrier s h ch gen k) := by
  unfold takeBarrier; try dsimp only
  repeat' first | with_reducible assumption | with_reducible apply kept_updBar | with_reducible apply kept_barAdvance | split
                | (with_reducible refine Kept.mk0 ?_)

theorem kept_kilnArrive {z0 s : State} (hk : Kept z0 s) (cord : Nat) (k : KRec) : Kept z0 (kilnArrive s cord k) := by
  unfold kilnArrive; try dsimp only
  repeat' first | with_reducible assumption | with_reducible apply kept_updBar | with_reducible apply kept_barArrived
                | with_reducible apply kept_sendBarrier | (with_reducible refine Kept.foldl _ _ ?_ ?_)
                | (intro _ _ _; try dsimp only) | split | (with_reducible refine Kept.mk0 ?_)

theorem kept_execBarArrive {z0 s : State} (hk : Kept z0 s) (t : Fin 2048) (cord : Fin 4096) (ch : Fin 4) (count : Fin 4096) :
    KeptOut z0 (execBarArrive t cord ch count s) := by
  unfold execBarArrive; try dsimp only
  repeat' first | with_reducible assumption | with_reducible apply kept_updTile | with_reducible apply kept_crossCtl
                | with_reducible apply kept_updBar | split | (with_reducible refine Kept.mk0 ?_)
                | with_reducible apply KeptOut.next

theorem kept_execModuleArrived {z0 s : State} (hk : Kept z0 s) (cord : Fin 4096) (ch : Fin 4) :
    KeptOut z0 (execModuleArrived cord ch s) := by
  unfold execModuleArrived; try dsimp only
  repeat' first | with_reducible assumption | with_reducible apply kept_barArrived | split | with_reducible apply KeptOut.next

theorem kept_execBarrier {z0 s : State} (hk : Kept z0 s) (l : Fin 96) (h : PktHdr) (ch : Fin 4) (gen : Fin 256) (krec : KRec) :
    KeptOut z0 (execBarrier l h ch gen krec s) := by
  unfold execBarrier; try dsimp only
  repeat' first | with_reducible assumption | with_reducible apply kept_takeRx | with_reducible apply kept_takeBarrier
                | with_reducible apply kept_sendCtl | split | with_reducible apply KeptOut.next

theorem kept_execBarRelease {z0 s : State} (hk : Kept z0 s) (part : Fin 8) (cord : Fin 4096) (ch : Fin 4) :
    KeptOut z0 (execBarRelease part cord ch s) := by
  unfold execBarRelease; try dsimp only
  repeat' first | with_reducible assumption | with_reducible apply kept_crossCtl | with_reducible apply kept_barReset
                | with_reducible apply kept_updTiles | (with_reducible refine Kept.foldl _ _ ?_ ?_)
                | (intro _ _ _; try dsimp only) | split | (with_reducible refine Kept.mk0 ?_) | with_reducible apply KeptOut.next

theorem kept_moverDrop {z0 s : State} (hk : Kept z0 s) (m pos : Nat) : Kept z0 (moverDrop s m pos) := by
  unfold moverDrop; try dsimp only
  repeat' first | with_reducible assumption | with_reducible apply kept_setMover | (with_reducible refine Kept.mk0 ?_)

theorem kept_deliver {z0 s : State} (hk : Kept z0 s) (m op : Nat) (d : MDesc) (ws : List (List Byte)) (enter bound : Nat) :
    Kept z0 (deliver s m op d ws enter bound) := by
  unfold deliver; try dsimp only
  repeat' first | with_reducible assumption | with_reducible apply kept_refuseXfer | with_reducible apply kept_ringAdd | split

theorem kept_moverGet {z0 s : State} (hk : Kept z0 s) (m pos : Nat) : Kept z0 (moverGet s m pos) := by
  unfold moverGet; try dsimp only
  repeat' first | with_reducible assumption | with_reducible apply kept_moverDrop | with_reducible apply kept_refuseXfer
                | with_reducible apply kept_deliver | split | (with_reducible refine Kept.mkMem ?_ (fun w => ?_))
                | with_reducible apply memWf_seenMem | with_reducible apply memWf_mk

theorem kept_moverGetw {z0 s : State} (hk : Kept z0 s) (m pos : Nat) : Kept z0 (moverGetw s m pos) := by
  unfold moverGetw; try dsimp only
  repeat' first | with_reducible assumption | with_reducible apply kept_moverDrop | with_reducible apply kept_refuseXfer
                | with_reducible apply kept_moverWrite | split | (with_reducible refine Kept.mkMem ?_ (fun w => ?_))
                | with_reducible apply memWf_seenMem | with_reducible apply memWf_mk

theorem kept_startPull {z0 s : State} (hk : Kept z0 s) (m : Nat) (d : MDesc) (src addr enter bound : Nat) :
    Kept z0 (startPull s m d src addr enter bound) := by
  unfold startPull; try dsimp only
  repeat' first | with_reducible assumption | with_reducible apply kept_freshId | with_reducible apply kept_updRing
                | (with_reducible refine Kept.mk0 ?_)

theorem kept_moverPutm {z0 s : State} (hk : Kept z0 s) (m pos : Nat) : Kept z0 (moverPutm s m pos) := by
  unfold moverPutm; try dsimp only
  repeat' first | with_reducible assumption | with_reducible apply kept_moverDrop | with_reducible apply kept_refuseXfer
                | with_reducible apply kept_startPull | split | (with_reducible refine Kept.mkMem ?_ (fun w => ?_))
                | with_reducible apply memWf_seenMem | with_reducible apply memWf_mk

theorem kept_moverCget {z0 s : State} (hk : Kept z0 s) (m pos : Nat) : Kept z0 (moverCget s m pos) := by
  unfold moverCget; try dsimp only
  repeat' first | with_reducible assumption | with_reducible apply kept_startPull | with_reducible apply kept_moverDrop | split

theorem kept_moverCput {z0 s : State} (hk : Kept z0 s) (m pos : Nat) : Kept z0 (moverCput s m pos) := by
  unfold moverCput; try dsimp only
  repeat' first | with_reducible assumption | with_reducible apply kept_refuseXfer | with_reducible apply kept_updTile
                | with_reducible apply kept_moverDrop | with_reducible apply kept_startPull | split

theorem kept_moverCord {z0 s : State} (hk : Kept z0 s) (m pos cop : Nat) : Kept z0 (moverCord s m pos cop) := by
  unfold moverCord; try dsimp only
  repeat' first | with_reducible assumption | with_reducible apply kept_refuseXfer | with_reducible apply kept_moverDrop
                | with_reducible apply kept_startPull | split

theorem kept_lockItem {z0 s : State} (hk : Kept z0 s) (d : MDesc) (kind : Nat) (bs : List Byte) :
    Kept z0 (lockItem s d kind bs) := by
  unfold lockItem; try dsimp only
  repeat' first | with_reducible assumption | split | (with_reducible refine Kept.mk0 ?_)

theorem kept_sendPkt {z0 s : State} (hk : Kept z0 s) (m id part : Nat) (p : Packet) : Kept z0 (sendPkt s m id part p) := by
  unfold sendPkt; try dsimp only
  repeat' first | with_reducible assumption | with_reducible apply kept_nextTag | with_reducible apply kept_updFab
                | with_reducible apply kept_injectBulk | (with_reducible refine Kept.mk0 ?_)

theorem kept_sendCord {z0 s : State} (hk : Kept z0 s) (x : PullXfer) : Kept z0 (sendCord s x) := by
  unfold sendCord; try dsimp only
  repeat' first | with_reducible assumption | with_reducible apply kept_lockItem | with_reducible apply kept_digestSend
                | with_reducible apply kept_updRing | with_reducible apply kept_sendPkt | with_reducible apply kept_xferCheck
                | (with_reducible refine Kept.foldl _ _ ?_ ?_) | (intro _ _ _; try dsimp only) | split
                | (with_reducible refine Kept.mk0 ?_)

theorem kept_dropPull {z0 s : State} (hk : Kept z0 s) (id : Nat) : Kept z0 (dropPull s id) := by
  unfold dropPull; try dsimp only
  repeat' first | with_reducible assumption | with_reducible apply kept_updRing | (with_reducible refine Kept.mk0 ?_)

theorem kept_pullDone {z0 s : State} (hk : Kept z0 s) (x : PullXfer) : Kept z0 (pullDone s x) := by
  unfold pullDone; try dsimp only
  repeat' first | with_reducible assumption | with_reducible apply kept_deliver | with_reducible apply kept_dropPull
                | with_reducible apply kept_cputFrom | with_reducible apply kept_sendCord | split

theorem kept_pullAbort {z0 s : State} (hk : Kept z0 s) (x : PullXfer) : Kept z0 (pullAbort s x) := by
  unfold pullAbort; try dsimp only
  repeat' first | with_reducible assumption | with_reducible apply kept_updTile | with_reducible apply kept_dropPull

theorem kept_pullStep {z0 s : State} (hk : Kept z0 s) (t : Nat) : Kept z0 (pullStep s t) := by
  unfold pullStep; try dsimp only
  repeat' first | with_reducible assumption | with_reducible apply kept_setTile | with_reducible apply kept_pullAbort
                | with_reducible apply kept_updRing | with_reducible apply kept_pullDone | split
                | (with_reducible refine Kept.mk0 ?_)

theorem kept_visible {z0 s : State} (hk : Kept z0 s) (id : Nat) : Kept z0 (visible s id) := by
  unfold visible; try dsimp only
  repeat' first | with_reducible assumption | with_reducible apply kept_dropPull | with_reducible apply kept_moverDone
                | with_reducible apply kept_lockItem | split | (with_reducible refine Kept.mk0 ?_)
                | (with_reducible refine Kept.mkMem ?_ (fun w => ?_)) | with_reducible apply memWf_vaWrite
                | with_reducible apply memWf_mk

theorem kept_migrAnswer {z0 s : State} (hk : Kept z0 s) (m : Nat) (d : MDesc) (st tier old new enter bound : Nat) :
    Kept z0 (migrAnswer s m d st tier old new enter bound) := by
  unfold migrAnswer; try dsimp only
  repeat' first | with_reducible assumption | with_reducible apply kept_deliver

theorem kept_moverMigrate {z0 s : State} (hk : Kept z0 s) (m pos : Nat) : Kept z0 (moverMigrate s m pos) := by
  unfold moverMigrate; try dsimp only
  repeat' first | with_reducible assumption | with_reducible apply kept_moverDrop | with_reducible apply kept_migrAnswer
                | with_reducible apply kept_refuseXfer | with_reducible apply kept_tmapTurn | split
                | (with_reducible refine Kept.mk0 ?_) | (with_reducible refine Kept.mkMem ?_ (fun w => ?_))
                | with_reducible apply memWf_seenMem | with_reducible apply memWf_tmapSetBy
                | with_reducible apply memWf_setFreeQueue | with_reducible apply memWf_mk

theorem kept_migrSwitch {z0 s0 : State} (hk : Kept z0 s0) (g : Migr) (bad : List Nat) : Kept z0 (migrSwitch s0 g bad) := by
  unfold migrSwitch; try dsimp only
  repeat' first | with_reducible assumption | with_reducible apply kept_tmapTurn | (with_reducible refine Kept.mk0 ?_)
                | (with_reducible refine Kept.mkMem ?_ (fun w => ?_)) | with_reducible apply memWf_copyFrame
                | with_reducible apply memWf_unmapWaiting | with_reducible apply memWf_tmapSetBy | with_reducible apply memWf_mk

theorem kept_migrAbandon {z0 s0 : State} (hk : Kept z0 s0) (g : Migr) : Kept z0 (migrAbandon s0 g) := by
  unfold migrAbandon; try dsimp only
  repeat' first | with_reducible assumption | with_reducible apply kept_tmapTurn | (with_reducible refine Kept.mk0 ?_)
                | (with_reducible refine Kept.mkMem ?_ (fun w => ?_)) | with_reducible apply memWf_tmapSetBy
                | with_reducible apply memWf_unmapWaiting | with_reducible apply memWf_setFreeQueue
                | with_reducible apply memWf_mk

theorem kept_retire {z0 s : State} (hk : Kept z0 s) (tier frame : Nat) : Kept z0 (retire s tier frame) := by
  unfold retire; try dsimp only
  repeat' first | with_reducible assumption | with_reducible apply kept_logOnly | split | (with_reducible refine Kept.mk0 ?_)
                | (with_reducible refine Kept.mkMem ?_ (fun w => ?_)) | with_reducible apply memWf_retireFrame
                | with_reducible apply memWf_mk | (with_reducible refine Kept.mkFlash ?_ ?_)
                | (with_reducible refine Kept.mkBoth ?_ (fun w => ?_) ?_) | with_reducible apply FlashKept.refl
                | with_reducible apply flashKept_addDefects | with_reducible apply flashKept_putField
                | with_reducible apply flashKept_putRetired | with_reducible apply flashKept_putUpd
                | with_reducible apply flashKept_putSaved | with_reducible apply flashKept_chooseImage
                | exact FlashKept.mk rfl rfl rfl rfl rfl rfl (Nat.le_refl _) (fun _ x => x)
                | exact FlashKept.mk rfl rfl rfl rfl rfl rfl (by simp) (fun _ x => by simp [x])

theorem kept_startRetire {z0 s : State} (hk : Kept z0 s) (page : Nat) (who : MigrWho) : Kept z0 (startRetire s page who) := by
  unfold startRetire; try dsimp only
  repeat' first | with_reducible assumption | split | (with_reducible refine Kept.mk0 ?_)
                | (with_reducible refine Kept.mkMem ?_ (fun w => ?_)) | with_reducible apply memWf_tmapSet
                | with_reducible apply memWf_setFreeQueue | with_reducible apply memWf_mk

theorem kept_frameBad {z0 s : State} (hk : Kept z0 s) (tier frame : Nat) (corrected : Bool) :
    Kept z0 (frameBad s tier frame corrected) := by
  unfold frameBad; try dsimp only
  repeat' first | with_reducible assumption | with_reducible apply kept_startRetire | with_reducible apply kept_retire | split

theorem kept_retryBad {z0 s : State} (hk : Kept z0 s) : Kept z0 (retryBad s) := by
  unfold retryBad; try dsimp only
  repeat' first | with_reducible assumption | with_reducible apply kept_frameBad | (with_reducible refine Kept.foldl _ _ ?_ ?_)
                | (intro _ _ _; try dsimp only) | (with_reducible refine Kept.mk0 ?_)
                | (with_reducible refine Kept.mkMem ?_ (fun w => ?_)) | with_reducible apply memWf_mk

theorem kept_momentInvalid {z0 s : State} (hk : Kept z0 s) (c rank buf : Nat) : Kept z0 (momentInvalid s c rank buf) := by
  unfold momentInvalid; try dsimp only
  repeat' first | with_reducible assumption | with_reducible apply kept_updCtx | with_reducible apply kept_postCtx
                | (with_reducible refine Kept.mk0 ?_)

theorem kept_pageLostIn {z0 s : State} (hk : Kept z0 s) (page c : Nat) : Kept z0 (pageLostIn s page c) := by
  unfold pageLostIn; try dsimp only
  repeat' first | with_reducible assumption | with_reducible apply kept_momentInvalid | with_reducible apply kept_noteCause
                | with_reducible apply kept_updCtx | with_reducible apply kept_postCtx | split
                | (with_reducible refine Kept.mk0 ?_)

theorem kept_pageLost {z0 s : State} (hk : Kept z0 s) (page : Nat) : Kept z0 (pageLost s page) := by
  unfold pageLost; try dsimp only
  repeat' first | with_reducible assumption | with_reducible apply kept_emberInvalid | with_reducible apply kept_setEmber
                | with_reducible apply kept_pageLostIn | (with_reducible refine Kept.foldl _ _ ?_ ?_)
                | (intro _ _ _; try dsimp only) | split | (with_reducible refine Kept.mk0 ?_)

theorem kept_moverMeetsUe {z0 s : State} (hk : Kept z0 s) (m tier frame : Nat) : Kept z0 (moverMeetsUe s m tier frame) := by
  unfold moverMeetsUe; try dsimp only
  repeat' first | with_reducible assumption | with_reducible apply kept_refuseXfer | with_reducible apply kept_moverDrop | split

theorem kept_migrUe {z0 s : State} (hk : Kept z0 s) (m : Nat) (d : MDesc) (tier frame enter : Nat) :
    Kept z0 (migrUe s m d tier frame enter) := by
  unfold migrUe; try dsimp only
  repeat' first | with_reducible assumption | with_reducible apply kept_migrAnswer | with_reducible apply kept_setMover

theorem kept_migrMeetsUe {z0 s : State} (hk : Kept z0 s) (tier frame : Nat) : Kept z0 (migrMeetsUe s tier frame) := by
  unfold migrMeetsUe; try dsimp only
  repeat' first | with_reducible assumption | with_reducible apply kept_migrUe | with_reducible apply kept_migrAbandon | split

theorem kept_takeFrom {z0 s : State} (hk : Kept z0 s) (x : RingXfer) (port : Option Nat) : Kept z0 (takeFrom s x port).1 := by
  unfold takeFrom; try dsimp only
  repeat' first | with_reducible assumption | with_reducible apply kept_updRing | with_reducible apply kept_deliver
                | with_reducible apply kept_countLate | split | (with_reducible refine Kept.mk0 ?_)

theorem kept_takeWord {z0 s : State} (hk : Kept z0 s) (e tile : Nat) : Kept z0 (takeWord s e tile).1 := by
  unfold takeWord; try dsimp only
  repeat' first | with_reducible assumption | with_reducible apply kept_takeFrom | split

theorem kept_fillQuarter {z0 s : State} (hk : Kept z0 s) (e cyc idx q : Nat) : Kept z0 (fillQuarter s e cyc idx q).1 := by
  unfold fillQuarter; try dsimp only
  repeat' first | with_reducible assumption | with_reducible apply kept_takeWord | split

theorem kept_edgeTurn {z0 s : State} (hk : Kept z0 s) (e : Nat) : Kept z0 (edgeTurn s e) := by
  unfold edgeTurn; try dsimp only
  repeat' first | with_reducible assumption | with_reducible apply kept_idleTick | with_reducible apply kept_updRing | split
                | (with_reducible refine Kept.mk0 ?_)

theorem kept_edgeFill {z0 s0 : State} (hk : Kept z0 s0) (e cyc : Nat) : Kept z0 (edgeFill s0 e cyc) := by
  unfold edgeFill; try dsimp only
  repeat' first | with_reducible assumption | with_reducible apply kept_edgeTurn | with_reducible apply kept_fillQuarter
                | with_reducible apply kept_updTile | split | (with_reducible refine Kept.mk0 ?_)

theorem kept_takeFlying {z0 s : State} (hk : Kept z0 s) (x : Flying) : Kept z0 (takeFlying s x).1 := by
  unfold takeFlying; try dsimp only
  repeat' first | with_reducible assumption | with_reducible apply kept_setTile | split | (with_reducible refine Kept.mk0 ?_)

theorem kept_heldFetch {z0 s : State} (hk : Kept z0 s) (t : Nat) : Kept z0 (heldFetch s t).1 := by
  unfold heldFetch; try dsimp only
  repeat' first | with_reducible assumption | with_reducible apply kept_takeFlying | with_reducible apply kept_deliver
                | with_reducible apply kept_takeFrom | split

theorem kept_deliverStep {z0 s : State} (hk : Kept z0 s) (t : Nat) : Kept z0 (deliverStep s t) := by
  unfold deliverStep; try dsimp only
  repeat' first | with_reducible assumption | with_reducible apply kept_updTile | with_reducible apply kept_heldFetch | split

theorem kept_moverEnter {z0 s : State} (hk : Kept z0 s) (e : Nat) : Kept z0 (moverEnter s e) := by
  unfold moverEnter; try dsimp only
  repeat' first | with_reducible assumption | with_reducible apply kept_updRing | with_reducible apply kept_setMover | split
                | (with_reducible refine Kept.mk0 ?_)

theorem kept_haltTile {z0 s : State} (hk : Kept z0 s) (t : Nat) : Kept z0 (haltTile s t) := by
  unfold haltTile; try dsimp only
  repeat' first | with_reducible assumption | with_reducible apply kept_setTile | with_reducible apply kept_updTile
                | (with_reducible refine Kept.foldl _ _ ?_ ?_) | (intro _ _ _; try dsimp only) | split
                | (with_reducible refine Kept.mk0 ?_)

theorem kept_writeCtrl {z0 s : State} (hk : Kept z0 s) (t : Nat) (v : Word) : Kept z0 (writeCtrl s t v) := by
  unfold writeCtrl; try dsimp only
  repeat' first | with_reducible assumption | with_reducible apply kept_updTile | with_reducible apply kept_startTile | split

theorem kept_writeTile {z0 s : State} (hk : Kept z0 s) (t : Nat) (tgt : RegTgt) (v : Word) : Kept z0 (writeTile s t tgt v) := by
  unfold writeTile; try dsimp only
  repeat' first | with_reducible assumption | with_reducible apply kept_updTile | with_reducible apply kept_writeCtrl
                | with_reducible apply kept_haltTile | split

theorem kept_execRegWrite {z0 s : State} (hk : Kept z0 s) (t : Fin 2048) (tgt : RegTgt) (v : RegVal) :
    KeptOut z0 (execRegWrite t tgt v s) := by
  unfold execRegWrite; try dsimp only
  repeat' first | with_reducible assumption | with_reducible apply kept_drawFree | with_reducible apply kept_crossCtl
                | with_reducible apply kept_writeTile | (with_reducible refine Kept.foldl _ _ ?_ ?_)
                | (intro _ _ _; try dsimp only) | split | with_reducible apply KeptOut.next

theorem kept_execRegRead {z0 s : State} (hk : Kept z0 s) (t : Fin 2048) (off : Fin 1024) : KeptOut z0 (execRegRead t off s) := by
  unfold execRegRead; try dsimp only
  repeat' first | with_reducible assumption | with_reducible apply kept_updTile | with_reducible apply kept_crossCtl | split
                | (with_reducible refine Kept.mk0 ?_) | with_reducible apply KeptOut.next

theorem kept_execRegData {z0 s : State} (hk : Kept z0 s) (t : Fin 2048) : KeptOut z0 (execRegData t s) := by
  unfold execRegData; try dsimp only
  repeat' first | with_reducible assumption | with_reducible apply kept_updTile | with_reducible apply kept_crossCtl | split
                | (with_reducible refine Kept.mk0 ?_) | with_reducible apply KeptOut.next

theorem kept_execStart {z0 s : State} (hk : Kept z0 s) (t : Fin 2048) : KeptOut z0 (execStart t s) := by
  unfold execStart; try dsimp only
  repeat' first | with_reducible assumption | with_reducible apply kept_startTile | split | with_reducible apply KeptOut.next

theorem kept_execAbort {z0 s : State} (hk : Kept z0 s) (t : Fin 2048) : KeptOut z0 (execAbort t s) := by
  unfold execAbort; try dsimp only
  repeat' first | with_reducible assumption | with_reducible apply kept_updTile | split | with_reducible apply KeptOut.next

theorem kept_execHalt {z0 s : State} (hk : Kept z0 s) (t : Fin 2048) : KeptOut z0 (execHalt t s) := by
  unfold execHalt; try dsimp only
  repeat' first | with_reducible assumption | with_reducible apply kept_haltTile | split | with_reducible apply KeptOut.next

theorem kept_noteRecurrence {z0 s : State} (hk : Kept z0 s) (b : Blame) (who : Nat) : Kept z0 (noteRecurrence s b who) := by
  unfold noteRecurrence; try dsimp only
  repeat' first | with_reducible assumption | with_reducible apply kept_drawFree | (with_reducible refine Kept.mk0 ?_)

theorem kept_noteError {z0 s : State} (hk : Kept z0 s) (t : Nat) (b : Blame) (status cause who : Nat) :
    Kept z0 (noteError s t b status cause who) := by
  unfold noteError; try dsimp only
  repeat' first | with_reducible assumption | with_reducible apply kept_noteTile | with_reducible apply kept_noteRecurrence
                | split | (with_reducible refine Kept.mk0 ?_)

theorem kept_noteDone {z0 s : State} (hk : Kept z0 s) (t : Nat) : Kept z0 (noteDone s t) := by
  unfold noteDone; try dsimp only
  repeat' first | with_reducible assumption | with_reducible apply kept_updRun | with_reducible apply kept_trace
                | (with_reducible refine Kept.foldl _ _ ?_ ?_) | (intro _ _ _; try dsimp only) | split
                | (with_reducible refine Kept.mk0 ?_)

theorem kept_kilnNotice {z0 s : State} (hk : Kept z0 s) (t : Nat) (n : Notice) : Kept z0 (kilnNotice s t n) := by
  unfold kilnNotice; try dsimp only
  repeat' first | with_reducible assumption | with_reducible apply kept_noteDone | with_reducible apply kept_trace
                | with_reducible apply kept_noteTile | with_reducible apply kept_noteError
                | with_reducible apply kept_countRefused | split | with_reducible apply KeptOut.fault

theorem kept_execNotify {z0 s : State} (hk : Kept z0 s) (t : Fin 2048) : KeptOut z0 (execNotify t s) := by
  unfold execNotify; try dsimp only
  repeat' first | with_reducible assumption | with_reducible apply kept_whileKiln | with_reducible apply kept_drawFree
                | with_reducible apply kept_kilnNotice | with_reducible apply kept_updTile | with_reducible apply kept_crossCtl
                | split | (with_reducible refine Kept.mk0 ?_) | with_reducible apply KeptOut.next

theorem kept_reportRefusal {z0 s : State} (hk : Kept z0 s) (h : InHdr) (w : WinStatus) : Kept z0 (reportRefusal s h w) := by
  unfold reportRefusal; try dsimp only
  repeat' first | with_reducible assumption | with_reducible apply kept_updTile | with_reducible apply kept_xferEnd | split
                | (with_reducible refine Kept.mk0 ?_)

theorem kept_execInboundWrite {z0 s : State} (hk : Kept z0 s) (t : Fin 2048) : KeptOut z0 (execInboundWrite t s) := by
  unfold execInboundWrite; try dsimp only
  repeat' first | with_reducible assumption | with_reducible apply kept_setTile | with_reducible apply kept_reportRefusal | split
                | with_reducible apply KeptOut.next

theorem kept_execInboundWord {z0 s : State} (hk : Kept z0 s) (t : Fin 2048) : KeptOut z0 (execInboundWord t s) := by
  unfold execInboundWord; try dsimp only
  repeat' first | with_reducible assumption | with_reducible apply kept_setTile | with_reducible apply kept_xferEnd | split
                | with_reducible apply KeptOut.next

theorem kept_execNegativeCompletion {z0 s : State} (hk : Kept z0 s) (t : Fin 2048) : KeptOut z0 (execNegativeCompletion t s) := by
  unfold execNegativeCompletion; try dsimp only
  repeat' first | with_reducible assumption | with_reducible apply kept_updTile | with_reducible apply KeptOut.next

theorem kept_execPullRead {z0 s : State} (hk : Kept z0 s) (t : Fin 2048) : KeptOut z0 (execPullRead t s) := by
  unfold execPullRead; try dsimp only
  repeat' first | with_reducible assumption | with_reducible apply kept_pullStep | with_reducible apply KeptOut.next

theorem kept_execMreqDeliveryWord {z0 s : State} (hk : Kept z0 s) (t : Fin 2048) : KeptOut z0 (execMreqDeliveryWord t s) := by
  unfold execMreqDeliveryWord; try dsimp only
  repeat' first | with_reducible assumption | with_reducible apply kept_deliverStep | with_reducible apply KeptOut.next

end Sys2Proof.Machine
end

