-- ==== Sys2Proof/Laws/KeptKiln.lean ====
section
/-! SUPPORT. What is kept by Kiln's steps, power, registers, hosts and memory. -/

namespace Sys2Proof.Machine

set_option linter.unusedTactic false
set_option linter.unreachableTactic false

theorem kept_arriveJob {z0 s : State} (hk : Kept z0 s) (c kind status cause : Nat) :
    Kept z0 (arriveJob s c kind status cause) := by
  unfold arriveJob; try dsimp only
  repeat' first | with_reducible assumption | with_reducible apply kept_abortPart | with_reducible apply kept_kilnArrive
                | with_reducible apply kept_updRun | split | (with_reducible refine Kept.mk0 ?_)

theorem kept_arriveSection {z0 s : State} (hk : Kept z0 s) (c : Nat) : Kept z0 (arriveSection s c) := by
  unfold arriveSection; try dsimp only
  repeat' first | with_reducible assumption | with_reducible apply kept_arriveJob | split

theorem kept_arriveCommit {z0 s : State} (hk : Kept z0 s) (c : Nat) : Kept z0 (arriveCommit s c) := by
  unfold arriveCommit; try dsimp only
  repeat' first | with_reducible assumption | with_reducible apply kept_arriveJob | split

theorem kept_arriveVote {z0 s : State} (hk : Kept z0 s) (c i : Nat) : Kept z0 (arriveVote s c i) := by
  unfold arriveVote; try dsimp only
  repeat' first | with_reducible assumption | with_reducible apply kept_kilnArrive | split

theorem kept_dropAttempt {z0 s : State} (hk : Kept z0 s) (p : Nat) : Kept z0 (dropAttempt s p) := by
  have a := kept_cancelPart (kept_abortPart hk p) p
  unfold dropAttempt
  generalize cancelPart (abortPart s p) p = s1 at *
  exact kept_updFab a _

theorem kept_beginReplay {z0 s : State} (hk : Kept z0 s) (c cause : Nat) : Kept z0 (beginReplay s c cause) := by
  unfold beginReplay; try dsimp only
  repeat' first | with_reducible assumption | with_reducible apply kept_updRun | with_reducible apply kept_dropAttempt
                | with_reducible apply kept_trace | split | (with_reducible refine Kept.mk0 ?_)

theorem kept_refillSet {z0 s : State} (hk : Kept z0 s) (i : Image) : Kept z0 (refillSet s i) := by
  unfold refillSet; try dsimp only
  repeat' first | with_reducible assumption | with_reducible apply kept_updTiles | (with_reducible refine Kept.foldl _ _ ?_ ?_)
                | (intro _ _ _; try dsimp only)

theorem kept_restart {z0 s : State} (hk : Kept z0 s) (c : Nat) : Kept z0 (restart s c) := by
  unfold restart; try dsimp only
  repeat' first | with_reducible assumption | with_reducible apply kept_resetTile | with_reducible apply kept_clearCounts
                | with_reducible apply kept_refillSet | with_reducible apply kept_openCluster
                | with_reducible apply kept_beginSection | (with_reducible refine Kept.foldl _ _ ?_ ?_)
                | (intro _ _ _; try dsimp only) | split | (with_reducible refine Kept.mk0 ?_)

theorem kept_startRestore {z0 s : State} (hk : Kept z0 s) (c : Nat) : Kept z0 (startRestore s c) := by
  unfold startRestore; try dsimp only
  repeat' first | with_reducible assumption | with_reducible apply kept_arriveJob | with_reducible apply kept_updRun
                | with_reducible apply kept_resetTile | with_reducible apply kept_postCtx | with_reducible apply kept_restart
                | (with_reducible refine Kept.foldl _ _ ?_ ?_) | (intro _ _ _; try dsimp only) | split
                | (with_reducible refine Kept.mk0 ?_)

theorem kept_afterQuiet {z0 s : State} (hk : Kept z0 s) (c : Nat) : Kept z0 (afterQuiet s c) := by
  unfold afterQuiet; try dsimp only
  repeat' first | with_reducible assumption | with_reducible apply kept_startRestore | with_reducible apply kept_restart | split

theorem kept_quiesceDone {z0 s : State} (hk : Kept z0 s) (c : Nat) : Kept z0 (quiesceDone s c) := by
  unfold quiesceDone; try dsimp only
  repeat' first | with_reducible assumption | with_reducible apply kept_dropAttempt | with_reducible apply kept_updRun
                | with_reducible apply kept_arriveJob | with_reducible apply kept_afterQuiet | split
                | (with_reducible refine Kept.mk0 ?_)

theorem kept_haltPart {z0 s : State} (hk : Kept z0 s) (p : Nat) : Kept z0 (haltPart s p) := by
  unfold haltPart; try dsimp only
  repeat' first | with_reducible assumption | with_reducible apply kept_haltTile | (with_reducible refine Kept.foldl _ _ ?_ ?_)
                | (intro _ _ _; try dsimp only)

theorem kept_afterSection {z0 s : State} (hk : Kept z0 s) (c : Nat) : Kept z0 (afterSection s c) := by
  unfold afterSection; try dsimp only
  repeat' first | with_reducible assumption | with_reducible apply kept_updRun | with_reducible apply kept_haltPart | split
                | (with_reducible refine Kept.mk0 ?_)

theorem kept_commitEmber {z0 s : State} (hk : Kept z0 s) (p : Nat) (step : Word) : Kept z0 (commitEmber s p step) := by
  unfold commitEmber; try dsimp only
  repeat' first | with_reducible assumption | with_reducible apply kept_setEmber | (with_reducible refine Kept.foldl _ _ ?_ ?_)
                | (intro _ _ _; try dsimp only) | split | (with_reducible refine Kept.mk0 ?_)

theorem kept_commitMoments {z0 s : State} (hk : Kept z0 s) (c step : Nat) : Kept z0 (commitMoments s c step) := by
  unfold commitMoments; try dsimp only
  repeat' first | with_reducible assumption | with_reducible apply kept_drawFree | with_reducible apply kept_updCtx
                | (with_reducible refine Kept.foldl _ _ ?_ ?_) | (intro _ _ _; try dsimp only) | split
                | (with_reducible refine Kept.mk0 ?_)

theorem kept_commitStep {z0 s : State} (hk : Kept z0 s) (c : Nat) : Kept z0 (commitStep s c) := by
  unfold commitStep; try dsimp only
  repeat' first | with_reducible assumption | with_reducible apply kept_commitEmber | with_reducible apply kept_haltPart
                | with_reducible apply kept_updCtx | with_reducible apply kept_commitMoments | with_reducible apply kept_trace
                | with_reducible apply kept_retryBad | with_reducible apply kept_finishStep | split
                | (with_reducible refine Kept.mk0 ?_)

theorem kept_moduleFailed {z0 s : State} (hk : Kept z0 s) (c rank cause : Nat) : Kept z0 (moduleFailed s c rank cause) := by
  unfold moduleFailed; try dsimp only
  repeat' first | with_reducible assumption | with_reducible apply kept_dropAttempt | with_reducible apply kept_postCtx
                | with_reducible apply kept_openReset | with_reducible apply kept_finishStep | with_reducible apply kept_rollBack
                | with_reducible apply kept_updCtx | with_reducible apply kept_updRun | split
                | (with_reducible refine Kept.mk0 ?_)

theorem kept_faultRelease {z0 s : State} (hk : Kept z0 s) (c cause : Nat) : Kept z0 (faultRelease s c cause) := by
  unfold faultRelease; try dsimp only
  repeat' first | with_reducible assumption | with_reducible apply kept_dropAttempt | with_reducible apply kept_rollBack
                | with_reducible apply kept_finishStep | split

theorem kept_releaseJob {z0 s : State} (hk : Kept z0 s) (c kind : Nat) (k : KRec) : Kept z0 (releaseJob s c kind k) := by
  unfold releaseJob; try dsimp only
  repeat' first | with_reducible assumption | with_reducible apply kept_afterSection | with_reducible apply kept_commitStep
                | with_reducible apply kept_afterQuiet | with_reducible apply kept_beginReplay
                | with_reducible apply kept_moduleFailed | with_reducible apply kept_faultRelease | split

theorem kept_releaseVote {z0 s : State} (hk : Kept z0 s) (cord : Nat) (own : KRec) (others : List BarGot) :
    Kept z0 (releaseVote s cord own others) := by
  unfold releaseVote; try dsimp only
  repeat' first | with_reducible assumption | with_reducible apply kept_updRun | with_reducible apply kept_noteCause | split
                | (with_reducible refine Kept.mk0 ?_)

theorem kept_joinSection {z0 s : State} (hk : Kept z0 s) (c cord kind : Nat) : Kept z0 (joinSection s c cord kind) := by
  unfold joinSection; try dsimp only
  repeat' first | with_reducible assumption | with_reducible apply kept_updRun | split | (with_reducible refine Kept.mk0 ?_)

theorem kept_kilnRelease {z0 s : State} (hk : Kept z0 s) (cord : Nat) : Kept z0 (kilnRelease s cord) := by
  unfold kilnRelease; try dsimp only
  repeat' first | with_reducible assumption | with_reducible apply kept_releaseVote | with_reducible apply kept_barReset
                | with_reducible apply kept_joinSection | with_reducible apply kept_trace | with_reducible apply kept_releaseJob
                | split

theorem kept_floodCtx {z0 s : State} (hk : Kept z0 s) (c : Nat) : Kept z0 (floodCtx s c) := by
  unfold floodCtx; try dsimp only
  repeat' first | with_reducible assumption | with_reducible apply kept_arriveJob | split

theorem kept_execKilnBarrierArrive {z0 s : State} (hk : Kept z0 s) (c : Fin 256) (kind : Fin 4) :
    KeptOut z0 (execKilnBarrierArrive c kind s) := by
  unfold execKilnBarrierArrive; try dsimp only
  repeat' first | with_reducible assumption | with_reducible apply kept_whileKiln | with_reducible apply kept_arriveSection
                | with_reducible apply kept_arriveCommit | with_reducible apply kept_quiesceDone
                | with_reducible apply kept_arriveVote | (with_reducible refine Kept.foldl _ _ ?_ ?_)
                | (intro _ _ _; try dsimp only) | split | with_reducible apply KeptOut.next

theorem kept_execKilnBarrierRelease {z0 s : State} (hk : Kept z0 s) (cord : Fin 4096) :
    KeptOut z0 (execKilnBarrierRelease cord s) := by
  unfold execKilnBarrierRelease; try dsimp only
  repeat' first | with_reducible assumption | with_reducible apply kept_whileKiln | with_reducible apply kept_kilnRelease
                | with_reducible apply KeptOut.next

theorem kept_execQuiesceDone {z0 s : State} (hk : Kept z0 s) (c : Fin 256) : KeptOut z0 (execQuiesceDone c s) := by
  unfold execQuiesceDone; try dsimp only
  repeat' first | with_reducible assumption | with_reducible apply kept_whileKiln | with_reducible apply kept_quiesceDone
                | with_reducible apply KeptOut.next

theorem kept_execFlood {z0 s : State} (hk : Kept z0 s) (c : Fin 256) : KeptOut z0 (execFlood c s) := by
  unfold execFlood; try dsimp only
  repeat' first | with_reducible assumption | with_reducible apply kept_whileKiln | with_reducible apply kept_floodCtx
                | with_reducible apply KeptOut.next

theorem kept_execSectionTimeout {z0 s : State} (hk : Kept z0 s) (c : Fin 256) : KeptOut z0 (execSectionTimeout c s) := by
  unfold execSectionTimeout; try dsimp only
  repeat' first | with_reducible assumption | with_reducible apply kept_whileKiln | with_reducible apply kept_updCtx
                | with_reducible apply kept_postCtx | split | (with_reducible refine Kept.mk0 ?_)
                | with_reducible apply KeptOut.next

theorem kept_popSub {z0 s : State} (hk : Kept z0 s) (c : Nat) : Kept z0 (popSub s c) := by
  unfold popSub; try dsimp only
  repeat' first | with_reducible assumption | with_reducible apply kept_updCtx | split | (with_reducible refine Kept.mk0 ?_)

theorem kept_dropBad (n : Nat) : ∀ {z0 s : State} (hk : Kept z0 s) (c : Nat), Kept z0 (dropBad s c n) := by
  induction n with
  | zero => intro z0 s hk c; exact hk
  | succ n ih =>
    intro z0 s hk c
    unfold dropBad; try dsimp only
    repeat' first | with_reducible assumption | with_reducible apply ih | with_reducible apply kept_popSub | with_reducible apply kept_complete | split

theorem kept_settleCtx {z0 s : State} (hk : Kept z0 s) (c : Nat) : Kept z0 (settleCtx s c) := by
  unfold settleCtx; try dsimp only
  repeat' first | with_reducible assumption | with_reducible apply kept_dropBad | split

theorem kept_addSub {z0 s : State} (hk : Kept z0 s) (c : Nat) (x : Sub) : Kept z0 (addSub s c x) := by
  unfold addSub; try dsimp only
  repeat' first | with_reducible assumption | with_reducible apply kept_updCtx | (with_reducible refine Kept.mk0 ?_)

theorem kept_readSubs (n : Nat) : ∀ {z0 s : State} (hk : Kept z0 s) (c : Nat), Kept z0 (readSubs s c n) := by
  induction n with
  | zero => intro z0 s hk c; exact hk
  | succ n ih =>
    intro z0 s hk c
    unfold readSubs; try dsimp only
    split
    · exact hk
    · apply ih
      with_reducible refine Kept.mkMem ?_ (fun w => ?_)
      · with_reducible exact kept_addSub hk _ _
      · with_reducible exact memWf_setRingField _ _ _ w

theorem kept_execLoad {z0 s : State} (hk : Kept z0 s) (c : Fin 256) (tag : Word) (img : Image) :
    KeptOut z0 (execLoad c tag img s) := by
  unfold execLoad; try dsimp only
  repeat' first | with_reducible assumption | with_reducible apply kept_popSub | with_reducible apply kept_settleCtx
                | with_reducible apply kept_complete | with_reducible apply kept_updCtx | split
                | (with_reducible refine Kept.mk0 ?_) | with_reducible apply KeptOut.next

theorem kept_execStep {z0 s : State} (hk : Kept z0 s) (c : Fin 256) (tag : Word) (n : Word) (mb : BitVec 16) (seed : DWord) :
    KeptOut z0 (execStep c tag n mb seed s) := by
  unfold execStep; try dsimp only
  repeat' first | with_reducible assumption | with_reducible apply kept_addSub | split | with_reducible apply KeptOut.next

theorem kept_switchCtx {z0 s : State} (hk : Kept z0 s) (p c : Nat) (i : Image) : Kept z0 (switchCtx s p c i) := by
  unfold switchCtx; try dsimp only
  repeat' first | with_reducible assumption | with_reducible apply kept_closeWindows | with_reducible apply kept_loadStores
                | with_reducible apply kept_updTiles | with_reducible apply kept_openCluster | with_reducible apply kept_setPart
                | with_reducible apply kept_updCtx | with_reducible apply kept_trace | split | (with_reducible refine Kept.mk0 ?_)

theorem kept_launch {z0 s : State} (hk : Kept z0 s) (c : Nat) : Kept z0 (launch s c) := by
  unfold launch; try dsimp only
  repeat' first | with_reducible assumption | with_reducible apply kept_popSub | with_reducible apply kept_complete
                | with_reducible apply kept_beginSection | with_reducible apply kept_updCtx | with_reducible apply kept_switchCtx
                | split | (with_reducible refine Kept.mk0 ?_)

theorem kept_launchNext {z0 s : State} (hk : Kept z0 s) (c : Nat) (r : StepRun) : Kept z0 (launchNext s c r) := by
  unfold launchNext; try dsimp only
  repeat' first | with_reducible assumption | with_reducible apply kept_beginSection | with_reducible apply kept_clearCounts
                | split | (with_reducible refine Kept.mk0 ?_)

theorem kept_readWaiting {z0 s : State} (hk : Kept z0 s) (p : Nat) : Kept z0 (readWaiting s p) := by
  unfold readWaiting; try dsimp only
  repeat' first | with_reducible assumption | with_reducible apply kept_readSubs | (with_reducible refine Kept.foldl _ _ ?_ ?_)
                | (intro _ _ _; try dsimp only) | split

theorem kept_stepLaunch {z0 s : State} (hk : Kept z0 s) (p : Nat) : Kept z0 (stepLaunch s p) := by
  unfold stepLaunch; try dsimp only
  repeat' first | with_reducible assumption | with_reducible apply kept_launchNext | with_reducible apply kept_retryBad
                | with_reducible apply kept_settleCtx | with_reducible apply kept_readWaiting | with_reducible apply kept_launch
                | (with_reducible refine Kept.foldl _ _ ?_ ?_) | (intro _ _ _; try dsimp only) | split

theorem kept_execStepLaunch {z0 s : State} (hk : Kept z0 s) (part : Fin 8) : KeptOut z0 (execStepLaunch part s) := by
  unfold execStepLaunch; try dsimp only
  repeat' first | with_reducible assumption | with_reducible apply kept_whileKiln | with_reducible apply kept_stepLaunch
                | with_reducible apply KeptOut.next

theorem kept_stepEnd {z0 s : State} (hk : Kept z0 s) (c : Nat) : Kept z0 (stepEnd s c) := by
  unfold stepEnd; try dsimp only
  repeat' first | with_reducible assumption | with_reducible apply kept_retryBad | with_reducible apply kept_finishStep
                | with_reducible apply kept_haltPart | split

theorem kept_execStepEnd {z0 s : State} (hk : Kept z0 s) (c : Fin 256) : KeptOut z0 (execStepEnd c s) := by
  unfold execStepEnd; try dsimp only
  repeat' first | with_reducible assumption | with_reducible apply kept_whileKiln | with_reducible apply kept_stepEnd
                | with_reducible apply KeptOut.next

theorem kept_powerDown {z0 s : State} (hk : Kept z0 s) : Kept z0 (powerDown s) :=
  hk.trans ⟨rfl, FlashKept.refl _, Nat.le_refl _, fun _ => memWf_memInit⟩

theorem kept_powerDownIf {z0 s : State} (hk : Kept z0 s) (b : Bool) : Kept z0 (powerDownIf s b) := by
  unfold powerDownIf; try dsimp only
  repeat' first | with_reducible assumption | with_reducible apply kept_powerDown | split

theorem kept_setOsc {z0 s : State} (hk : Kept z0 s) (n : Nat) (b : Bool) : Kept z0 (setOsc s n b) := by
  unfold setOsc; try dsimp only
  repeat' first | with_reducible assumption | with_reducible apply kept_updTiles | split | (with_reducible refine Kept.mk0 ?_)

theorem kept_failCtxs {z0 s : State} (hk : Kept z0 s) (cs : List Nat) (cause : Nat) : Kept z0 (failCtxs s cs cause) := by
  unfold failCtxs; try dsimp only
  repeat' first | with_reducible assumption | with_reducible apply kept_noteCause | (with_reducible refine Kept.foldl _ _ ?_ ?_)
                | (intro _ _ _; try dsimp only)

theorem kept_partPowered {z0 s : State} (hk : Kept z0 s) (p status : Nat) : Kept z0 (partPowered s p status) := by
  unfold partPowered; try dsimp only
  repeat' first | with_reducible assumption | with_reducible apply kept_postEvent

theorem kept_dropField {z0 s : State} (hk : Kept z0 s) (n : Nat) : Kept z0 (dropField s n) := by
  unfold dropField; try dsimp only
  repeat' first | with_reducible assumption | with_reducible apply kept_updPwr | with_reducible apply kept_setOsc

theorem kept_tripField {z0 s : State} (hk : Kept z0 s) (n : Nat) : Kept z0 (tripField s n) := by
  unfold tripField; try dsimp only
  repeat' first | with_reducible assumption | with_reducible apply kept_dropField | with_reducible apply kept_setPart
                | with_reducible apply kept_failCtxs | with_reducible apply kept_partPowered | split
                | (with_reducible refine Kept.mk0 ?_)

theorem kept_checkField {z0 s : State} (hk : Kept z0 s) (n : Nat) : Kept z0 (checkField s n) := by
  unfold checkField; try dsimp only
  repeat' first | with_reducible assumption | with_reducible apply kept_tripField | with_reducible apply kept_failCtxs | split

theorem kept_loseConverter {z0 s : State} (hk : Kept z0 s) : Kept z0 (loseConverter s) := by
  unfold loseConverter; try dsimp only
  repeat' first | with_reducible assumption | with_reducible apply kept_updPwr | with_reducible apply kept_powerDownIf
                | (with_reducible refine Kept.mk0 ?_)

theorem kept_markRuns {z0 s : State} (hk : Kept z0 s) (ps : List Nat) (f : StepRun → StepRun) : Kept z0 (markRuns s ps f) := by
  unfold markRuns; try dsimp only
  repeat' first | with_reducible assumption | with_reducible apply kept_updRun | (with_reducible refine Kept.foldl _ _ ?_ ?_)
                | (intro _ _ _; try dsimp only) | split

theorem kept_capActs {z0 s : State} (hk : Kept z0 s) : Kept z0 (capActs s) := by
  unfold capActs; try dsimp only
  repeat' first | with_reducible assumption | with_reducible apply kept_markRuns | split | (with_reducible refine Kept.mk0 ?_)

theorem kept_logFree {z0 s : State} (hk : Kept z0 s) (args : List Nat) : Kept z0 (logFree s args) := by
  unfold logFree; try dsimp only
  repeat' first | with_reducible assumption | with_reducible apply kept_drawFree | with_reducible apply kept_logOnly

theorem kept_regionToFloor {z0 s : State} (hk : Kept z0 s) (n : Nat) : Kept z0 (regionToFloor s n) := by
  unfold regionToFloor; try dsimp only
  repeat' first | with_reducible assumption | with_reducible apply kept_updPwr | (with_reducible refine Kept.foldl _ _ ?_ ?_)
                | (intro _ _ _; try dsimp only) | split | (with_reducible refine Kept.mk0 ?_)

theorem kept_stageAction {z0 s : State} (hk : Kept z0 s) (kind idx old stage : Nat) (temp : Int) :
    Kept z0 (stageAction s kind idx old stage temp) := by
  unfold stageAction; try dsimp only
  repeat' first | with_reducible assumption | with_reducible apply kept_regionToFloor | with_reducible apply kept_logFree
                | with_reducible apply kept_postAll | split | (with_reducible refine Kept.mk0 ?_)
                | (with_reducible refine Kept.mkMem ?_ (fun w => ?_)) | with_reducible apply memWf_setMemDev
                | with_reducible apply memWf_mk

theorem kept_stackLost {z0 s : State} (hk : Kept z0 s) (idx : Nat) : Kept z0 (stackLost s idx) := by
  unfold stackLost; dsimp only
  refine Kept.mkMem (kept_updPwr hk _) (fun w => ?_)
  rw [memWf_def] at *; exact ⟨smWf_filter _ w.1, w.2.1, w.2.2⟩

theorem kept_tripSensor {z0 s : State} (hk : Kept z0 s) (kind idx : Nat) : Kept z0 (tripSensor s kind idx) := by
  unfold tripSensor; try dsimp only
  repeat' first | with_reducible assumption | with_reducible apply kept_updPwr | with_reducible apply kept_tripField
                | with_reducible apply kept_failCtxs | with_reducible apply kept_stackLost | with_reducible apply kept_linksStep
                | with_reducible apply kept_loseConverter | split

theorem kept_stageLeft {z0 s : State} (hk : Kept z0 s) (kind idx stage : Nat) : Kept z0 (stageLeft s kind idx stage) := by
  unfold stageLeft; try dsimp only
  repeat' first | with_reducible assumption | with_reducible apply kept_linksStep | split | (with_reducible refine Kept.mk0 ?_)
                | (with_reducible refine Kept.mkMem ?_ (fun w => ?_)) | with_reducible apply memWf_setMemDev
                | with_reducible apply memWf_mk

theorem kept_ceilingTick {z0 s : State} (hk : Kept z0 s) (n : Nat) : Kept z0 (ceilingTick s n) := by
  unfold ceilingTick; try dsimp only
  repeat' first | with_reducible assumption | with_reducible apply kept_updPwr | split | (with_reducible refine Kept.mk0 ?_)

theorem kept_partReady {z0 s : State} (hk : Kept z0 s) (p : Nat) : Kept z0 (partReady s p) := by
  unfold partReady; try dsimp only
  repeat' first | with_reducible assumption | with_reducible apply kept_setPart | with_reducible apply kept_partPowered
                | with_reducible apply kept_resetTile | (with_reducible refine Kept.foldl _ _ ?_ ?_)
                | (intro _ _ _; try dsimp only) | split | (with_reducible refine Kept.mk0 ?_)

theorem kept_partOff {z0 s : State} (hk : Kept z0 s) (p : Nat) : Kept z0 (partOff s p) := by
  unfold partOff; try dsimp only
  repeat' first | with_reducible assumption | with_reducible apply kept_dropField | with_reducible apply kept_closeWindows
                | with_reducible apply kept_setPart | (with_reducible refine Kept.foldl _ _ ?_ ?_) | (intro _ _ _; try dsimp only)
                | (with_reducible refine Kept.mk0 ?_)

theorem kept_removePart {z0 s : State} (hk : Kept z0 s) (p : Nat) : Kept z0 (removePart s p) := by
  unfold removePart; try dsimp only
  repeat' first | with_reducible assumption | with_reducible apply kept_partOff | with_reducible apply kept_updPwr
                | with_reducible apply kept_setPart | (with_reducible refine Kept.mk0 ?_)

theorem kept_endCtx {z0 s : State} (hk : Kept z0 s) (c : Nat) : Kept z0 (endCtx s c) := by
  unfold endCtx; try dsimp only
  repeat' first | with_reducible assumption | with_reducible apply kept_dropCtx | with_reducible apply kept_cancelPart
                | with_reducible apply kept_abortPart | split

theorem kept_bar0Latch {z0 s : State} (hk : Kept z0 s) (off : Nat) : Kept z0 (bar0Latch s off) := by
  unfold bar0Latch; try dsimp only
  repeat' first | with_reducible assumption | with_reducible apply kept_updTile | with_reducible apply kept_updLink
                | with_reducible apply kept_setEmber | split | (with_reducible refine Kept.mk0 ?_)

theorem kept_writeDev {z0 s : State} (hk : Kept z0 s) (page o : Nat) (v : Word) : Kept z0 (writeDev s page o v) := by
  unfold writeDev; try dsimp only
  repeat' first | with_reducible assumption | with_reducible apply kept_setMover | with_reducible apply kept_updFab
                | with_reducible apply kept_setEmber | with_reducible apply kept_updPwr | split
                | (with_reducible refine Kept.mk0 ?_) | (with_reducible refine Kept.mkMem ?_ (fun w => ?_))
                | with_reducible apply memWf_mk

theorem kept_serveDb {z0 s : State} (hk : Kept z0 s) (c : Nat) : Kept z0 (serveDb s c) := by
  unfold serveDb; try dsimp only
  repeat' first | with_reducible assumption | with_reducible apply kept_updCtx | with_reducible apply kept_settleCtx
                | with_reducible apply kept_readSubs | (with_reducible refine Kept.mk0 ?_)

theorem kept_ringDbNow {z0 s : State} (hk : Kept z0 s) (port c : Nat) : Kept z0 (ringDbNow s port c) := by
  unfold ringDbNow; try dsimp only
  repeat' first | with_reducible assumption | with_reducible apply kept_updHost | with_reducible apply kept_serveDb
                | with_reducible apply kept_updCtx | split | (with_reducible refine Kept.mk0 ?_)

theorem kept_wakeRings {z0 s : State} (hk : Kept z0 s) : Kept z0 (wakeRings s) := by
  unfold wakeRings; try dsimp only
  repeat' first | with_reducible assumption | with_reducible apply kept_serveDb | (with_reducible refine Kept.foldl _ _ ?_ ?_)
                | (intro _ _ _; try dsimp only) | split

theorem kept_idleStep {z0 s : State} (hk : Kept z0 s) : Kept z0 (idleStep s) := by
  unfold idleStep; try dsimp only
  repeat' first | with_reducible assumption | with_reducible apply kept_wakeRings | with_reducible apply kept_idleTick

theorem kept_regWriteNow {z0 s : State} (hk : Kept z0 s) (p off : Nat) (v : Word) : Kept z0 (regWriteNow s p off v) := by
  unfold regWriteNow; try dsimp only
  repeat' first | with_reducible assumption | with_reducible apply kept_updHost | with_reducible apply kept_ringDbNow
                | with_reducible apply kept_writeDev | split | (with_reducible refine Kept.mk0 ?_)

theorem kept_postReg {z0 s : State} (hk : Kept z0 s) (p off : Nat) (v : Word) : Kept z0 (postReg s p off v) := by
  unfold postReg; try dsimp only
  repeat' first | with_reducible assumption | with_reducible apply kept_regWriteNow | with_reducible apply kept_updHost | split
                | (with_reducible refine Kept.mk0 ?_)

theorem kept_memWriteNow {z0 s t : State} (hk : Kept z0 s) (p va : Nat) (data : List Byte) (e : memWriteNow s p va data = some t) :
    Kept z0 t := by
  unfold memWriteNow at e
  split at e
  · cases e
    with_reducible refine Kept.mkMem hk (fun w => ?_)
    with_reducible exact memWf_seenWrite _ _ w
  · cases e
  · cases e; with_reducible exact kept_updHost hk _ _

theorem kept_memWriteNow_getD {z0 s u : State} (hk : Kept z0 s) (hu : Kept z0 u) (p va : Nat) (data : List Byte) :
    Kept z0 ((memWriteNow s p va data).getD u) := by
  cases e : memWriteNow s p va data with
  | none => exact hu
  | some t => exact kept_memWriteNow hk p va data e

theorem kept_drainPort (n : Nat) : ∀ {z0 s : State} (hk : Kept z0 s) (p : Nat), Kept z0 (drainPort s p n) := by
  induction n with
  | zero => intro z0 s hk p; exact hk
  | succ n ih =>
    intro z0 s hk p
    unfold drainPort; try dsimp only
    repeat' first | with_reducible assumption | with_reducible apply ih | with_reducible apply kept_regWriteNow | with_reducible apply kept_updHost | split
    rename_i e; with_reducible exact kept_memWriteNow hk _ _ _ e

theorem kept_drainPorts {z0 s : State} (hk : Kept z0 s) : Kept z0 (drainPorts s) := by
  unfold drainPorts; try dsimp only
  repeat' first | with_reducible assumption | with_reducible apply kept_drainPort | (with_reducible refine Kept.foldl _ _ ?_ ?_)
                | (intro _ _ _; try dsimp only)

theorem kept_hostLost {z0 s : State} (hk : Kept z0 s) (p : Nat) : Kept z0 (hostLost s p) := by
  unfold hostLost; try dsimp only
  repeat' first | with_reducible assumption | with_reducible apply kept_updHost | with_reducible apply kept_postEvent
                | with_reducible apply kept_updCtx | (with_reducible refine Kept.foldl _ _ ?_ ?_) | (intro _ _ _; try dsimp only)
                | split | (with_reducible refine Kept.mk0 ?_) | (with_reducible refine Kept.mkMem ?_ (fun w => ?_))
                | with_reducible apply memWf_same | with_reducible apply memWf_mk

theorem kept_unmapPage {z0 s : State} (hk : Kept z0 s) (page : Nat) (zero : Bool) : Kept z0 (unmapPage s page zero) := by
  unfold unmapPage; try dsimp only
  repeat' first | with_reducible assumption | split | (with_reducible refine Kept.mk0 ?_)
                | (with_reducible refine Kept.mkMem ?_ (fun w => ?_)) | with_reducible apply memWf_unmapNow
                | with_reducible apply memWf_mk

theorem kept_dropCords {z0 s : State} (hk : Kept z0 s) (ps : List Nat) : Kept z0 (dropCords s ps) := by
  unfold dropCords; try dsimp only
  repeat' first | with_reducible assumption | with_reducible apply kept_updFab | (with_reducible refine Kept.mk0 ?_)

theorem kept_tearDown {z0 s : State} (hk : Kept z0 s) (cs ps : List Nat) : Kept z0 (tearDown s cs ps) := by
  unfold tearDown; try dsimp only
  repeat' first | with_reducible assumption | with_reducible apply kept_endCtx | with_reducible apply kept_unmapPage
                | with_reducible apply kept_removePart | with_reducible apply kept_dropCords
                | (with_reducible refine Kept.foldl _ _ ?_ ?_) | (intro _ _ _; try dsimp only)

theorem kept_execEdgeSlotFill {z0 s : State} (hk : Kept z0 s) (e : Fin 188) (cyc : Nat) :
    KeptOut z0 (execEdgeSlotFill e cyc s) := by
  unfold execEdgeSlotFill; try dsimp only
  repeat' first | with_reducible assumption | with_reducible apply kept_edgeFill | with_reducible apply KeptOut.next

theorem kept_execMoverRequest {z0 s : State} (hk : Kept z0 s) (e : Fin 188) : KeptOut z0 (execMoverRequest e s) := by
  unfold execMoverRequest; try dsimp only
  repeat' first | with_reducible assumption | with_reducible apply kept_moverEnter | with_reducible apply KeptOut.next

theorem kept_execGet {z0 s : State} (hk : Kept z0 s) (m : Fin 64) (pos : Nat) : KeptOut z0 (execGet m pos s) := by
  unfold execGet; try dsimp only
  repeat' first | with_reducible assumption | with_reducible apply kept_moverGet | with_reducible apply KeptOut.next

theorem kept_execPutm {z0 s : State} (hk : Kept z0 s) (m : Fin 64) (pos : Nat) : KeptOut z0 (execPutm m pos s) := by
  unfold execPutm; try dsimp only
  repeat' first | with_reducible assumption | with_reducible apply kept_moverPutm | with_reducible apply KeptOut.next

theorem kept_execGetw {z0 s : State} (hk : Kept z0 s) (m : Fin 64) (pos : Nat) : KeptOut z0 (execGetw m pos s) := by
  unfold execGetw; try dsimp only
  repeat' first | with_reducible assumption | with_reducible apply kept_moverGetw | with_reducible apply KeptOut.next

theorem kept_execCget {z0 s : State} (hk : Kept z0 s) (m : Fin 64) (pos : Nat) : KeptOut z0 (execCget m pos s) := by
  unfold execCget; try dsimp only
  repeat' first | with_reducible assumption | with_reducible apply kept_moverCget | with_reducible apply KeptOut.next

theorem kept_execCput {z0 s : State} (hk : Kept z0 s) (m : Fin 64) (pos : Nat) : KeptOut z0 (execCput m pos s) := by
  unfold execCput; try dsimp only
  repeat' first | with_reducible assumption | with_reducible apply kept_moverCput | with_reducible apply KeptOut.next

theorem kept_execMigrate {z0 s : State} (hk : Kept z0 s) (m : Fin 64) (pos : Nat) : KeptOut z0 (execMigrate m pos s) := by
  unfold execMigrate; try dsimp only
  repeat' first | with_reducible assumption | with_reducible apply kept_moverMigrate | with_reducible apply KeptOut.next

theorem kept_execCordWrite {z0 s : State} (hk : Kept z0 s) (m : Fin 64) (pos : Nat) : KeptOut z0 (execCordWrite m pos s) := by
  unfold execCordWrite; try dsimp only
  repeat' first | with_reducible assumption | with_reducible apply kept_moverCord | with_reducible apply KeptOut.next

theorem kept_execCordGather {z0 s : State} (hk : Kept z0 s) (m : Fin 64) (pos : Nat) : KeptOut z0 (execCordGather m pos s) := by
  unfold execCordGather; try dsimp only
  repeat' first | with_reducible assumption | with_reducible apply kept_moverCord | with_reducible apply KeptOut.next

theorem kept_execCordContrib {z0 s : State} (hk : Kept z0 s) (m : Fin 64) (pos : Nat) : KeptOut z0 (execCordContrib m pos s) := by
  unfold execCordContrib; try dsimp only
  repeat' first | with_reducible assumption | with_reducible apply kept_moverCord | with_reducible apply KeptOut.next

theorem kept_execVisibilityPoint {z0 s : State} (hk : Kept z0 s) (id : Nat) : KeptOut z0 (execVisibilityPoint id s) := by
  unfold execVisibilityPoint; try dsimp only
  repeat' first | with_reducible assumption | with_reducible apply kept_visible | with_reducible apply KeptOut.next

theorem kept_kilnCopyDone {z0 s : State} (hk : Kept z0 s) (g : Migr) : Kept z0 (kilnCopyDone s g) := by
  unfold kilnCopyDone; try dsimp only
  repeat' first | with_reducible assumption | with_reducible apply kept_retire | with_reducible apply kept_migrSwitch | split
                | (with_reducible refine Kept.mk0 ?_) | (with_reducible refine Kept.mkMem ?_ (fun w => ?_))
                | with_reducible apply memWf_mk

theorem kept_moverCopyDone {z0 s : State} (hk : Kept z0 s) (g : Migr) (m : Nat) (d : MDesc) (enter : Nat) :
    Kept z0 (moverCopyDone s g m d enter) := by
  unfold moverCopyDone; try dsimp only
  repeat' first | with_reducible assumption | with_reducible apply kept_migrSwitch | with_reducible apply kept_migrAnswer | split
                | (with_reducible refine Kept.mk0 ?_) | (with_reducible refine Kept.mkMem ?_ (fun w => ?_))
                | with_reducible apply memWf_mk

theorem kept_copyError {z0 s : State} (hk : Kept z0 s) (g : Migr) : Kept z0 (copyError s g) := by
  unfold copyError; try dsimp only
  repeat' first | with_reducible assumption | with_reducible apply kept_migrAbandon | with_reducible apply kept_migrUe
                | with_reducible apply kept_frameBad | split | (with_reducible refine Kept.mk0 ?_)
                | (with_reducible refine Kept.mkMem ?_ (fun w => ?_)) | with_reducible apply memWf_countUe
                | with_reducible apply memWf_mk

theorem kept_copyDone {z0 s : State} (hk : Kept z0 s) (page : Nat) (err : Bool) : Kept z0 (copyDone s page err) := by
  unfold copyDone; try dsimp only
  repeat' first | with_reducible assumption | with_reducible apply kept_retire | with_reducible apply kept_copyError
                | with_reducible apply kept_moverCopyDone | with_reducible apply kept_kilnCopyDone | split

theorem kept_execOldFrameRelease {z0 s : State} (hk : Kept z0 s) (page : Nat) : KeptOut z0 (execOldFrameRelease page s) := by
  unfold execOldFrameRelease; try dsimp only
  repeat' first | with_reducible assumption | split | (with_reducible refine Kept.mk0 ?_)
                | (with_reducible refine Kept.mkMem ?_ (fun w => ?_)) | with_reducible apply memWf_kilnReturn
                | with_reducible apply memWf_mk | with_reducible apply KeptOut.next

theorem kept_execFreeQueueRefill {z0 s : State} (hk : Kept z0 s) (tier : Fin 2) (frames : Nat) :
    KeptOut z0 (execFreeQueueRefill tier frames s) := by
  unfold execFreeQueueRefill; try dsimp only
  repeat' first | with_reducible assumption | with_reducible apply kept_whileKiln | split | (with_reducible refine Kept.mk0 ?_)
                | (with_reducible refine Kept.mkMem ?_ (fun w => ?_)) | with_reducible apply memWf_refillQueue
                | with_reducible apply memWf_mk | with_reducible apply KeptOut.next

theorem kept_ueMet {z0 s : State} (hk : Kept z0 s) (who : UeWho) (tier frame : Nat) : Kept z0 (ueMet s who tier frame) := by
  unfold ueMet; try dsimp only
  repeat' first | with_reducible assumption | with_reducible apply kept_migrMeetsUe | with_reducible apply kept_moverMeetsUe
                | with_reducible apply kept_raiseVec | with_reducible apply kept_updHost | with_reducible apply kept_emberInvalid
                | with_reducible apply kept_setEmber | split | (with_reducible refine Kept.mk0 ?_)

theorem kept_memUncorrectable {z0 s : State} (hk : Kept z0 s) (who : UeWho) (tier frame : Nat) :
    Kept z0 (memUncorrectable s who tier frame) := by
  unfold memUncorrectable; try dsimp only
  repeat' first | with_reducible assumption | with_reducible apply kept_frameBad | with_reducible apply kept_ueMet
                | (with_reducible refine Kept.mk0 ?_) | (with_reducible refine Kept.mkMem ?_ (fun w => ?_))
                | with_reducible apply memWf_countUe | with_reducible apply memWf_mk

theorem kept_retirementCopy {z0 s : State} (hk : Kept z0 s) (page : Nat) (badBlocks : List Nat) :
    Kept z0 (retirementCopy s page badBlocks) := by
  unfold retirementCopy; try dsimp only
  repeat' first | with_reducible assumption | with_reducible apply kept_retire | with_reducible apply kept_pageLost
                | with_reducible apply kept_migrSwitch | split

theorem kept_reportCe {z0 s : State} (hk : Kept z0 s) (tier frame n : Nat) : Kept z0 (reportCe s tier frame n) := by
  unfold reportCe; try dsimp only
  repeat' first | with_reducible assumption | (with_reducible refine Kept.mk0 ?_)
                | (with_reducible refine Kept.mkMem ?_ (fun w => ?_)) | with_reducible apply memWf_countCe
                | with_reducible apply memWf_mk

theorem kept_execCorrectedErrorLimit {z0 s : State} (hk : Kept z0 s) (tier : Fin 2) (e : FrameErr) :
    KeptOut z0 (execCorrectedErrorLimit tier e s) := by
  unfold execCorrectedErrorLimit; try dsimp only
  repeat' first | with_reducible assumption | with_reducible apply kept_reportCe | with_reducible apply kept_frameBad | split
                | with_reducible apply KeptOut.next | with_reducible apply KeptOut.fault

theorem kept_execScrubError {z0 s : State} (hk : Kept z0 s) (tier : Fin 2) (frame : Nat) :
    KeptOut z0 (execScrubError tier frame s) := by
  unfold execScrubError; try dsimp only
  repeat' first | with_reducible assumption | with_reducible apply kept_startRetire | with_reducible apply kept_retire | split
                | (with_reducible refine Kept.mk0 ?_) | (with_reducible refine Kept.mkMem ?_ (fun w => ?_))
                | with_reducible apply memWf_countUe | with_reducible apply memWf_mk | with_reducible apply KeptOut.next
                | with_reducible apply KeptOut.fault

theorem kept_execTmapEccError {z0 s : State} (hk : Kept z0 s) (_page : Nat) : KeptOut z0 (execTmapEccError _page s) := by
  unfold execTmapEccError; try dsimp only
  repeat' first | with_reducible assumption | with_reducible apply kept_noteCause | with_reducible apply kept_failStep
                | with_reducible apply kept_updCtx | (with_reducible refine Kept.foldl _ _ ?_ ?_) | (intro _ _ _; try dsimp only)
                | split | (with_reducible refine Kept.mk0 ?_) | with_reducible apply KeptOut.next

theorem kept_execRegisterWrite {z0 s : State} (hk : Kept z0 s) (port : Fin 2) (off : Fin 16777216) (v : Word) :
    KeptOut z0 (execRegisterWrite port off v s) := by
  unfold execRegisterWrite; try dsimp only
  repeat' first | with_reducible assumption | with_reducible apply kept_postReg | split | with_reducible apply KeptOut.next

theorem kept_execLoReadLatch {z0 s : State} (hk : Kept z0 s) (port : Fin 2) (off : Fin 16777216) :
    KeptOut z0 (execLoReadLatch port off s) := by
  unfold execLoReadLatch; try dsimp only
  repeat' first | with_reducible assumption | with_reducible apply kept_updHost | with_reducible apply kept_bar0Latch | split
                | (with_reducible refine Kept.mk0 ?_) | with_reducible apply KeptOut.next

theorem kept_execBar0InvalidAccess {z0 s : State} (hk : Kept z0 s) (port : Fin 2) (off : Fin 16777216) (isWrite : Bool)
    (len : Fin 513) :
    KeptOut z0 (execBar0InvalidAccess port off isWrite len s) := by
  unfold execBar0InvalidAccess; try dsimp only
  repeat' first | with_reducible assumption | with_reducible apply kept_updHost | split | (with_reducible refine Kept.mk0 ?_)
                | with_reducible apply KeptOut.next

theorem kept_execBar2Read {z0 s : State} (hk : Kept z0 s) (port : Fin 2) (off : Fin 1099511627776) (len : Fin 4097) :
    KeptOut z0 (execBar2Read port off len s) := by
  unfold execBar2Read; try dsimp only
  repeat' first | with_reducible assumption | with_reducible apply kept_updHost | split | (with_reducible refine Kept.mk0 ?_)
                | (with_reducible refine Kept.mkMem ?_ (fun w => ?_)) | with_reducible apply memWf_seenMem
                | with_reducible apply memWf_mk | with_reducible apply KeptOut.next

theorem kept_execBar2Write {z0 s : State} (hk : Kept z0 s) (port : Fin 2) (off : Fin 1099511627776) (data : List Byte) :
    KeptOut z0 (execBar2Write port off data s) := by
  refine KeptOut.next ?_
  split
  · exact hk
  · dsimp only
    split
    · exact kept_updHost hk _ _
    · rename_i page _
      have q := kept_updHost hk port.val (fun y => { y with waitWr := y.waitWr ++ [.mem (page * 2 ^ 18 + off.val) data] })
      split
      · exact kept_memWriteNow_getD hk q _ _ _
      · exact q

theorem kept_execConfigRequest {z0 s : State} (hk : Kept z0 s) (port : Fin 2) (q : CfgReq) :
    KeptOut z0 (execConfigRequest port q s) := by
  unfold execConfigRequest; try dsimp only
  repeat' first | with_reducible assumption | with_reducible apply kept_updHost | split | (with_reducible refine Kept.mk0 ?_)
                | with_reducible apply KeptOut.next

theorem kept_execPortReset {z0 s : State} (hk : Kept z0 s) (port : Fin 2) (how : PortRst) :
    KeptOut z0 (execPortReset port how s) := by
  unfold execPortReset; try dsimp only
  repeat' first | with_reducible assumption | with_reducible apply kept_updHost | with_reducible apply kept_hostLost | split
                | (with_reducible refine Kept.mk0 ?_) | with_reducible apply KeptOut.next

theorem kept_execPortTrain {z0 s : State} (hk : Kept z0 s) (port : Fin 2) : KeptOut z0 (execPortTrain port s) := by
  unfold execPortTrain; try dsimp only
  repeat' first | with_reducible assumption | with_reducible apply kept_updHost | split | (with_reducible refine Kept.mk0 ?_)
                | with_reducible apply KeptOut.next

theorem kept_execRing {z0 s : State} (hk : Kept z0 s) (port : Fin 2) (m : Fin 16) : KeptOut z0 (execRing port m s) := by
  unfold execRing; try dsimp only
  repeat' first | with_reducible assumption | with_reducible apply kept_postReg | split | with_reducible apply KeptOut.next

theorem kept_execAck {z0 s : State} (hk : Kept z0 s) (port : Fin 2) (m : Fin 16) : KeptOut z0 (execAck port m s) := by
  unfold execAck; try dsimp only
  repeat' first | with_reducible assumption | with_reducible apply kept_postReg | split | with_reducible apply KeptOut.next

theorem kept_execRingDb {z0 s : State} (hk : Kept z0 s) (port : Fin 2) (c : Fin 256) : KeptOut z0 (execRingDb port c s) := by
  unfold execRingDb; try dsimp only
  repeat' first | with_reducible assumption | with_reducible apply kept_postReg | split | with_reducible apply KeptOut.next

theorem kept_execMsixSend {z0 s : State} (hk : Kept z0 s) (port : Fin 2) (v : Fin 2048) : KeptOut z0 (execMsixSend port v s) := by
  unfold execMsixSend; try dsimp only
  repeat' first | with_reducible assumption | with_reducible apply kept_updHost | split | (with_reducible refine Kept.mk0 ?_)
                | with_reducible apply KeptOut.next

theorem kept_execHeartbeatSample {z0 s : State} (hk : Kept z0 s) (port : Fin 2) : KeptOut z0 (execHeartbeatSample port s) := by
  unfold execHeartbeatSample; try dsimp only
  repeat' first | with_reducible assumption | with_reducible apply kept_whileKiln | with_reducible apply kept_flushLost
                | with_reducible apply kept_updHost | with_reducible apply kept_hostLost | split
                | (with_reducible refine Kept.mk0 ?_) | (with_reducible refine Kept.mkMem ?_ (fun w => ?_))
                | with_reducible apply memWf_setRingField | with_reducible apply memWf_same | with_reducible apply memWf_mk
                | with_reducible apply KeptOut.next

theorem kept_execHostHoldExpiry {z0 s : State} (hk : Kept z0 s) (port : Fin 2) : KeptOut z0 (execHostHoldExpiry port s) := by
  unfold execHostHoldExpiry; try dsimp only
  repeat' first | with_reducible assumption | with_reducible apply kept_whileKiln | with_reducible apply kept_updHost
                | with_reducible apply kept_tearDown | with_reducible apply kept_trace | split
                | (with_reducible refine Kept.mk0 ?_) | with_reducible apply KeptOut.next

theorem kept_execMemUncorrectable {z0 s : State} (hk : Kept z0 s) (who : UeWho) (tier : Fin 2) (frame : Nat) :
    KeptOut z0 (execMemUncorrectable who tier frame s) := by
  unfold execMemUncorrectable; try dsimp only
  repeat' first | with_reducible assumption | with_reducible apply kept_drainPorts | with_reducible apply kept_memUncorrectable
                | split | with_reducible apply KeptOut.next | with_reducible apply KeptOut.fault

theorem kept_execMigrateCopyDone {z0 s : State} (hk : Kept z0 s) (page : Nat) (err : Bool) :
    KeptOut z0 (execMigrateCopyDone page err s) := by
  unfold execMigrateCopyDone; try dsimp only
  repeat' first | with_reducible assumption | with_reducible apply kept_drainPorts | with_reducible apply kept_copyDone
                | with_reducible apply KeptOut.next

theorem kept_execRetirementCopy {z0 s : State} (hk : Kept z0 s) (page : Nat) (badBlocks : List Nat) :
    KeptOut z0 (execRetirementCopy page badBlocks s) := by
  unfold execRetirementCopy; try dsimp only
  repeat' first | with_reducible assumption | with_reducible apply kept_whileKiln | with_reducible apply kept_drainPorts
                | with_reducible apply kept_retirementCopy | with_reducible apply KeptOut.next

end Sys2Proof.Machine
end

