-- ==== Sys2Proof/Laws/KeptCommands.lean ====
section
/-! SUPPORT. What is kept by the mailbox commands, contexts, lockstep and restarts. -/

namespace Sys2Proof.Machine

set_option linter.unusedTactic false
set_option linter.unreachableTactic false

theorem kept_cmdRefuse {z0 s : State} (hk : Kept z0 s) (st : Nat) : Kept z0 (cmdRefuse s st).st := hk

theorem kept_cmdDone {z0 s : State} (hk : Kept z0 s) (res : List Byte) : Kept z0 (cmdDone s res).st := hk

theorem kept_cmdCheck {z0 s : State} (hk : Kept z0 s) (bad : Bool) (st : Nat) (k : CmdOut) (h : Kept z0 k.st) :
    Kept z0 (cmdCheck s bad st k).st := by
  unfold cmdCheck; split
  · exact hk
  · exact h

theorem kept_cmdAdmit {z0 s : State} (hk : Kept z0 s) (start : Bool) (k : CmdOut) (h : Kept z0 k.st) :
    Kept z0 (cmdAdmit s start k).st := kept_cmdCheck hk _ _ _ (kept_cmdCheck hk _ _ _ h)

theorem kept_cmdRun {z0 s : State} (hk : Kept z0 s) (k : CmdOut) (h : Kept z0 k.st) : Kept z0 (cmdRun s k) := by
  unfold cmdRun; split
  · with_reducible exact Kept.mk0 h
  · with_reducible exact hk

theorem kept_cmdInfo {z0 s : State} (hk : Kept z0 s) : Kept z0 (cmdInfo s).st := by
  unfold cmdInfo; try dsimp only
  repeat' first | with_reducible assumption | with_reducible apply kept_cmdAdmit | with_reducible apply kept_cmdDone

theorem kept_learnTime {z0 s : State} (hk : Kept z0 s) (utc : Nat) : Kept z0 (learnTime s utc) := by
  unfold learnTime; try dsimp only
  repeat' first | with_reducible assumption | split | (with_reducible refine Kept.mk0 ?_)

theorem kept_cmdTimeSet {z0 s : State} (hk : Kept z0 s) (utc : Nat) : Kept z0 (cmdTimeSet s utc).st := by
  unfold cmdTimeSet; try dsimp only
  repeat' first | with_reducible assumption | with_reducible apply kept_cmdAdmit | with_reducible apply kept_cmdDone
                | with_reducible apply kept_updFab | with_reducible apply kept_learnTime

theorem kept_restartModule {z0 s : State} (hk : Kept z0 s) : Kept z0 (restartModule s) := by
  unfold restartModule; try dsimp only
  repeat' first | with_reducible assumption | with_reducible apply kept_powerDown | (with_reducible refine Kept.mk0 ?_)

theorem kept_cmdRestart {z0 s : State} (hk : Kept z0 s) : Kept z0 (cmdRestart s).st := by
  unfold cmdRestart; try dsimp only
  repeat' first | with_reducible assumption | with_reducible apply kept_cmdAdmit | with_reducible apply kept_cmdDone
                | with_reducible apply kept_restartModule

theorem kept_cmdFullStart {z0 s : State} (hk : Kept z0 s) : Kept z0 (cmdFullStart s).st := by
  unfold cmdFullStart; try dsimp only
  repeat' first | with_reducible assumption | with_reducible apply kept_cmdAdmit | with_reducible apply kept_cmdDone
                | (with_reducible refine Kept.mk0 ?_) | (with_reducible refine Kept.mkFlash ?_ ?_)
                | (with_reducible refine Kept.mkBoth ?_ (fun w => ?_) ?_) | with_reducible apply FlashKept.refl
                | with_reducible apply flashKept_addDefects | with_reducible apply flashKept_putField
                | with_reducible apply flashKept_putRetired | with_reducible apply flashKept_putUpd
                | with_reducible apply flashKept_putSaved | with_reducible apply flashKept_chooseImage
                | exact FlashKept.mk rfl rfl rfl rfl rfl rfl (Nat.le_refl _) (fun _ x => x)
                | exact FlashKept.mk rfl rfl rfl rfl rfl rfl (by simp) (fun _ x => by simp [x])

theorem kept_cmdDefectRead {z0 s : State} (hk : Kept z0 s) (kind off : Nat) : Kept z0 (cmdDefectRead s kind off).st := by
  unfold cmdDefectRead; try dsimp only
  repeat' first | with_reducible assumption | with_reducible apply kept_cmdAdmit | with_reducible apply kept_cmdCheck
                | with_reducible apply kept_cmdDone | split

theorem kept_resumeAct {z0 s : State} (hk : Kept z0 s) : Kept z0 (resumeAct s) := by
  unfold resumeAct; try dsimp only
  repeat' first | with_reducible assumption | with_reducible apply kept_updCtx | (with_reducible refine Kept.foldl _ _ ?_ ?_)
                | (intro _ _ _; try dsimp only) | split

theorem kept_pauseAct {z0 s : State} (hk : Kept z0 s) : Kept z0 (pauseAct s) := by
  unfold pauseAct; try dsimp only
  repeat' first | with_reducible assumption | with_reducible apply kept_updCtx | (with_reducible refine Kept.foldl _ _ ?_ ?_)
                | (intro _ _ _; try dsimp only) | split | (with_reducible refine Kept.mk0 ?_)

theorem kept_cmdActivate {z0 s : State} (hk : Kept z0 s) (t : DWord) (window : Nat) : Kept z0 (cmdActivate s t window).st := by
  unfold cmdActivate; try dsimp only
  repeat' first | with_reducible assumption | with_reducible apply kept_cmdAdmit | with_reducible apply kept_cmdCheck
                | with_reducible apply kept_resumeAct | with_reducible apply kept_pauseAct | with_reducible apply kept_cmdDone
                | split | (with_reducible refine Kept.mk0 ?_)

theorem kept_cmdActivateCancel {z0 s : State} (hk : Kept z0 s) : Kept z0 (cmdActivateCancel s).st := by
  unfold cmdActivateCancel; try dsimp only
  repeat' first | with_reducible assumption | with_reducible apply kept_cmdAdmit | with_reducible apply kept_cmdDone
                | with_reducible apply kept_resumeAct | split | (with_reducible refine Kept.mk0 ?_)

theorem kept_postDiscovered {z0 s : State} (hk : Kept z0 s) (p : Nat) : Kept z0 (postDiscovered s p) := by
  unfold postDiscovered; try dsimp only
  repeat' first | with_reducible assumption | with_reducible apply kept_postEvent | (with_reducible refine Kept.foldl _ _ ?_ ?_)
                | (intro _ _ _; try dsimp only) | split

theorem kept_postPrevious {z0 s : State} (hk : Kept z0 s) (p : Nat) : Kept z0 (postPrevious s p) := by
  unfold postPrevious; try dsimp only
  repeat' first | with_reducible assumption | with_reducible apply kept_postEvent | split | (with_reducible refine Kept.mk0 ?_)

theorem kept_postSpare {z0 s : State} (hk : Kept z0 s) (p : Nat) : Kept z0 (postSpare s p) := by
  unfold postSpare; try dsimp only
  repeat' first | with_reducible assumption | with_reducible apply kept_postEvent | split | (with_reducible refine Kept.mk0 ?_)

theorem kept_makeRings {z0 s : State} (hk : Kept z0 s) (p : Nat) (r : Ring × Ring × Ring) : Kept z0 (makeRings s p r) := by
  unfold makeRings; try dsimp only
  repeat' first | with_reducible assumption | with_reducible apply kept_updHost | with_reducible apply kept_trace
                | with_reducible apply kept_replayBuffer | (with_reducible refine Kept.mk0 ?_)
                | (with_reducible refine Kept.mkMem ?_ (fun w => ?_)) | with_reducible apply memWf_ringCreate
                | with_reducible apply memWf_mk

theorem kept_attachPort {z0 s : State} (hk : Kept z0 s) (p : Nat) (a : AttachArgs) : Kept z0 (attachPort s p a) := by
  unfold attachPort; try dsimp only
  repeat' first | with_reducible assumption | with_reducible apply kept_updHost | with_reducible apply kept_makeRings
                | with_reducible apply kept_postSpare | with_reducible apply kept_postPrevious
                | with_reducible apply kept_postDiscovered | split | (with_reducible refine Kept.mk0 ?_)
                | (with_reducible refine Kept.mkMem ?_ (fun w => ?_)) | with_reducible apply memWf_same
                | with_reducible apply memWf_mk

theorem kept_cmdAttach {z0 s : State} (hk : Kept z0 s) (p : Nat) (a : AttachArgs) : Kept z0 (cmdAttach s p a).st := by
  unfold cmdAttach; try dsimp only
  repeat' first | with_reducible assumption | with_reducible apply kept_cmdAdmit | with_reducible apply kept_cmdCheck
                | with_reducible apply kept_cmdDone | with_reducible apply kept_attachPort

theorem kept_cmdDetach {z0 s : State} (hk : Kept z0 s) (p : Nat) : Kept z0 (cmdDetach s p).st := by
  unfold cmdDetach; try dsimp only
  repeat' first | with_reducible assumption | with_reducible apply kept_cmdAdmit | with_reducible apply kept_cmdCheck
                | with_reducible apply kept_cmdDone | with_reducible apply kept_updHost | with_reducible apply kept_trace
                | (with_reducible refine Kept.mk0 ?_) | (with_reducible refine Kept.mkMem ?_ (fun w => ?_))
                | with_reducible apply memWf_same | with_reducible apply memWf_mk

theorem kept_cmdBar2Window {z0 s : State} (hk : Kept z0 s) (p page : Nat) : Kept z0 (cmdBar2Window s p page).st := by
  unfold cmdBar2Window; try dsimp only
  repeat' first | with_reducible assumption | with_reducible apply kept_cmdAdmit | with_reducible apply kept_cmdDone
                | with_reducible apply kept_updHost | with_reducible apply kept_cmdCheck | split
                | (with_reducible refine Kept.mk0 ?_)

theorem kept_cmdTraceConfig {z0 s : State} (hk : Kept z0 s) (mask : DWord) : Kept z0 (cmdTraceConfig s mask).st := by
  unfold cmdTraceConfig; try dsimp only
  repeat' first | with_reducible assumption | with_reducible apply kept_cmdAdmit | with_reducible apply kept_cmdDone
                | (with_reducible refine Kept.mk0 ?_)

theorem kept_setupPart {z0 s : State} (hk : Kept z0 s) (n port m mode gang : Nat) : Kept z0 (setupPart s n port m mode gang) := by
  unfold setupPart; try dsimp only
  repeat' first | with_reducible assumption | with_reducible apply kept_partOff | with_reducible apply kept_setPart
                | with_reducible apply kept_updTiles | split | (with_reducible refine Kept.mk0 ?_)

theorem kept_cmdPartConfig {z0 s : State} (hk : Kept z0 s) (p n m mode gang : Nat) :
    Kept z0 (cmdPartConfig s p n m mode gang).st := by
  unfold cmdPartConfig; try dsimp only
  repeat' first | with_reducible assumption | with_reducible apply kept_cmdAdmit | with_reducible apply kept_cmdCheck
                | with_reducible apply kept_cmdDone | with_reducible apply kept_setupPart | with_reducible apply kept_removePart
                | split

theorem kept_startPart {z0 s : State} (hk : Kept z0 s) (n : Nat) : Kept z0 (startPart s n) := by
  unfold startPart; try dsimp only
  repeat' first | with_reducible assumption | with_reducible apply kept_updPwr | with_reducible apply kept_setPart
                | (with_reducible refine Kept.foldl _ _ ?_ ?_) | (intro _ _ _; try dsimp only) | split
                | (with_reducible refine Kept.mk0 ?_)

theorem kept_cmdPartPowerOn {z0 s : State} (hk : Kept z0 s) (p n : Nat) : Kept z0 (cmdPartPowerOn s p n).st := by
  unfold cmdPartPowerOn; try dsimp only
  repeat' first | with_reducible assumption | with_reducible apply kept_cmdAdmit | with_reducible apply kept_cmdCheck
                | with_reducible apply kept_cmdDone | with_reducible apply kept_partPowered | with_reducible apply kept_setPart
                | with_reducible apply kept_startPart | split | (with_reducible refine Kept.mk0 ?_)

theorem kept_cmdPartPowerOff {z0 s : State} (hk : Kept z0 s) (p n : Nat) : Kept z0 (cmdPartPowerOff s p n).st := by
  unfold cmdPartPowerOff; try dsimp only
  repeat' first | with_reducible assumption | with_reducible apply kept_cmdAdmit | with_reducible apply kept_cmdCheck
                | with_reducible apply kept_cmdDone | with_reducible apply kept_setPart | with_reducible apply kept_partPowered
                | with_reducible apply kept_partOff | split | (with_reducible refine Kept.mk0 ?_)

theorem kept_partDrained {z0 s : State} (hk : Kept z0 s) (n : Nat) : Kept z0 (partDrained s n) := by
  unfold partDrained; try dsimp only
  repeat' first | with_reducible assumption | with_reducible apply kept_partPowered | with_reducible apply kept_partOff | split

theorem kept_setPartPolicy {z0 s : State} (hk : Kept z0 s) (n mode stp : Nat) : Kept z0 (setPartPolicy s n mode stp) := by
  unfold setPartPolicy; try dsimp only
  repeat' first | with_reducible assumption | with_reducible apply kept_updPwr | split | (with_reducible refine Kept.mk0 ?_)

theorem kept_cmdPowerPolicy {z0 s : State} (hk : Kept z0 s) (p cap n mode stp : Nat) :
    Kept z0 (cmdPowerPolicy s p cap n mode stp).st := by
  unfold cmdPowerPolicy; try dsimp only
  repeat' first | with_reducible assumption | with_reducible apply kept_cmdAdmit | with_reducible apply kept_cmdCheck
                | with_reducible apply kept_updPwr | with_reducible apply kept_cmdDone | with_reducible apply kept_setPartPolicy
                | split | (with_reducible refine Kept.mk0 ?_)

theorem kept_dropCopies {z0 s : State} (hk : Kept z0 s) (p : Nat) : Kept z0 (dropCopies s p) := by
  unfold dropCopies; try dsimp only
  repeat' first | with_reducible assumption | with_reducible apply kept_setEmber | (with_reducible refine Kept.foldl _ _ ?_ ?_)
                | (intro _ _ _; try dsimp only) | split | (with_reducible refine Kept.mk0 ?_)

theorem kept_newCtx {z0 s : State} (hk : Kept z0 s) (p c : Nat) (a : CtxArgs) : Kept z0 (newCtx s p c a) := by
  unfold newCtx; try dsimp only
  repeat' first | with_reducible assumption | with_reducible apply kept_setCtx | with_reducible apply kept_dropCopies
                | (with_reducible refine Kept.mk0 ?_) | (with_reducible refine Kept.mkMem ?_ (fun w => ?_))
                | with_reducible apply memWf_ringCreate | with_reducible apply memWf_mk

theorem kept_cmdCtxCreate {z0 s : State} (hk : Kept z0 s) (p : Nat) (a : CtxArgs) : Kept z0 (cmdCtxCreate s p a).st := by
  unfold cmdCtxCreate; try dsimp only
  repeat' first | with_reducible assumption | with_reducible apply kept_cmdAdmit | with_reducible apply kept_cmdCheck
                | with_reducible apply kept_cmdRefuse | with_reducible apply kept_cmdDone | with_reducible apply kept_newCtx
                | split

theorem kept_cmdCtx {z0 s : State} (hk : Kept z0 s) (p c : Nat) (k : CmdOut) (hkk : Kept z0 k.st) :
    Kept z0 (cmdCtx s p c k).st := by
  unfold cmdCtx; try dsimp only
  repeat' first | with_reducible assumption | with_reducible apply kept_cmdAdmit | with_reducible apply kept_cmdCheck

theorem kept_cmdCtxPause {z0 s : State} (hk : Kept z0 s) (p c : Nat) : Kept z0 (cmdCtxPause s p c).st := by
  unfold cmdCtxPause; try dsimp only
  repeat' first | with_reducible assumption | with_reducible apply kept_cmdCtx | with_reducible apply kept_cmdDone
                | with_reducible apply kept_updCtx

theorem kept_cmdCtxResume {z0 s : State} (hk : Kept z0 s) (p c : Nat) : Kept z0 (cmdCtxResume s p c).st := by
  unfold cmdCtxResume; try dsimp only
  repeat' first | with_reducible assumption | with_reducible apply kept_cmdCtx | with_reducible apply kept_cmdCheck
                | with_reducible apply kept_cmdDone | with_reducible apply kept_settleCtx | with_reducible apply kept_updCtx

theorem kept_cmdCtxDestroy {z0 s : State} (hk : Kept z0 s) (p c : Nat) : Kept z0 (cmdCtxDestroy s p c).st := by
  unfold cmdCtxDestroy; try dsimp only
  repeat' first | with_reducible assumption | with_reducible apply kept_cmdCtx | with_reducible apply kept_cmdDone
                | with_reducible apply kept_updCtx | with_reducible apply kept_endCtx | split
                | (with_reducible refine Kept.mk0 ?_)

theorem kept_cmdCtxRestore {z0 s : State} (hk : Kept z0 s) (p c : Nat) (a : RestoreArgs) :
    Kept z0 (cmdCtxRestore s p c a).st := by
  unfold cmdCtxRestore; try dsimp only
  repeat' first | with_reducible assumption | with_reducible apply kept_cmdCtx | with_reducible apply kept_cmdCheck
                | with_reducible apply kept_updCtx | with_reducible apply kept_cmdDone | with_reducible apply kept_postCtx | split
                | (with_reducible refine Kept.mk0 ?_)

theorem kept_cmdTmapMap {z0 s : State} (hk : Kept z0 s) (p first count part tier writable : Nat) :
    Kept z0 (cmdTmapMap s p first count part tier writable).st := by
  unfold cmdTmapMap; try dsimp only
  repeat' first | with_reducible assumption | with_reducible apply kept_cmdAdmit | with_reducible apply kept_cmdCheck
                | with_reducible apply kept_cmdDone | split | (with_reducible refine Kept.mk0 ?_)
                | (with_reducible refine Kept.mkMem ?_ (fun w => ?_)) | with_reducible apply memWf_mapPages
                | with_reducible apply memWf_mk

theorem kept_cmdTmapUnmap {z0 s : State} (hk : Kept z0 s) (p first count : Nat) : Kept z0 (cmdTmapUnmap s p first count).st := by
  unfold cmdTmapUnmap; try dsimp only
  repeat' first | with_reducible assumption | with_reducible apply kept_cmdAdmit | with_reducible apply kept_cmdCheck
                | with_reducible apply kept_cmdDone | with_reducible apply kept_drainPorts | with_reducible apply kept_unmapPage
                | (with_reducible refine Kept.foldl _ _ ?_ ?_) | (intro _ _ _; try dsimp only)

theorem kept_cmdTmapRead {z0 s : State} (hk : Kept z0 s) (p first count : Nat) : Kept z0 (cmdTmapRead s p first count).st := by
  unfold cmdTmapRead; try dsimp only
  repeat' first | with_reducible assumption | with_reducible apply kept_cmdAdmit | with_reducible apply kept_cmdCheck
                | with_reducible apply kept_cmdDone | split

theorem kept_cmdFailureRate {z0 s : State} (hk : Kept z0 s) (c mtbf : Nat) : Kept z0 (cmdFailureRate s c mtbf).st := by
  unfold cmdFailureRate; try dsimp only
  repeat' first | with_reducible assumption | with_reducible apply kept_cmdAdmit | with_reducible apply kept_cmdCheck
                | with_reducible apply kept_cmdDone | with_reducible apply kept_updCtx | (with_reducible refine Kept.mk0 ?_)

theorem kept_refillDone {z0 s : State} (hk : Kept z0 s) (c page : Nat) : Kept z0 (refillDone s c page) := by
  unfold refillDone; try dsimp only
  repeat' first | with_reducible assumption | with_reducible apply kept_updCtx | with_reducible apply kept_arriveJob
                | with_reducible apply kept_afterQuiet | split | (with_reducible refine Kept.mk0 ?_)

theorem kept_cmdRefillDone {z0 s : State} (hk : Kept z0 s) (p c page : Nat) : Kept z0 (cmdRefillDone s p c page).st := by
  unfold cmdRefillDone; try dsimp only
  repeat' first | with_reducible assumption | with_reducible apply kept_cmdAdmit | with_reducible apply kept_cmdCheck
                | with_reducible apply kept_cmdDone | with_reducible apply kept_refillDone | split

theorem kept_cmdForceCopy {z0 s : State} (hk : Kept z0 s) (p c : Nat) : Kept z0 (cmdForceCopy s p c).st := by
  unfold cmdForceCopy; try dsimp only
  repeat' first | with_reducible assumption | with_reducible apply kept_cmdCtx | with_reducible apply kept_cmdDone
                | with_reducible apply kept_updCtx | (with_reducible refine Kept.mk0 ?_)

theorem kept_assignFabric {z0 s : State} (hk : Kept z0 s) (a : AssignArgs) : Kept z0 (assignFabric s a) := by
  unfold assignFabric; try dsimp only
  repeat' first | with_reducible assumption | with_reducible apply kept_linksStep | with_reducible apply kept_updFab
                | (with_reducible refine Kept.foldl _ _ ?_ ?_) | (intro _ _ _; try dsimp only) | split
                | (with_reducible refine Kept.mk0 ?_)

theorem kept_cmdFabricAssign {z0 s : State} (hk : Kept z0 s) (a : AssignArgs) : Kept z0 (cmdFabricAssign s a).st := by
  unfold cmdFabricAssign; try dsimp only
  repeat' first | with_reducible assumption | with_reducible apply kept_cmdAdmit | with_reducible apply kept_cmdCheck
                | with_reducible apply kept_cmdDone | with_reducible apply kept_assignFabric

theorem kept_cmdLinkDisable {z0 s : State} (hk : Kept z0 s) (l : Nat) : Kept z0 (cmdLinkDisable s l).st := by
  unfold cmdLinkDisable; try dsimp only
  repeat' first | with_reducible assumption | with_reducible apply kept_cmdAdmit | with_reducible apply kept_cmdCheck
                | with_reducible apply kept_cmdDone | with_reducible apply kept_linkStep

theorem kept_cmdLinkEnable {z0 s : State} (hk : Kept z0 s) (l : Nat) : Kept z0 (cmdLinkEnable s l).st := by
  unfold cmdLinkEnable; try dsimp only
  repeat' first | with_reducible assumption | with_reducible apply kept_cmdAdmit | with_reducible apply kept_cmdCheck
                | with_reducible apply kept_cmdDone | with_reducible apply kept_linkStep

theorem kept_cmdBladeRelease {z0 s : State} (hk : Kept z0 s) (b : Nat) : Kept z0 (cmdBladeRelease s b).st := by
  unfold cmdBladeRelease; try dsimp only
  repeat' first | with_reducible assumption | with_reducible apply kept_cmdAdmit | with_reducible apply kept_cmdCheck
                | with_reducible apply kept_cmdDone | with_reducible apply kept_linksStep | (with_reducible refine Kept.mk0 ?_)

theorem kept_cmdCordSetup {z0 s : State} (hk : Kept z0 s) (p k : Nat) (ent : BitVec 256) :
    Kept z0 (cmdCordSetup s p k ent).st := by
  unfold cmdCordSetup; try dsimp only
  repeat' first | with_reducible assumption | with_reducible apply kept_cmdCheck | with_reducible apply kept_cmdAdmit
                | with_reducible apply kept_cmdDone | with_reducible apply kept_writeCord | split
                | (with_reducible refine Kept.mk0 ?_)

theorem kept_cmdCordRead {z0 s : State} (hk : Kept z0 s) (p k : Nat) : Kept z0 (cmdCordRead s p k).st := by
  unfold cmdCordRead; try dsimp only
  repeat' first | with_reducible assumption | with_reducible apply kept_cmdAdmit | with_reducible apply kept_cmdCheck
                | with_reducible apply kept_cmdDone

theorem kept_setupEmber {z0 s : State} (hk : Kept z0 s) (a : EmberArgs) : Kept z0 (setupEmber s a) := by
  unfold setupEmber; try dsimp only
  repeat' first | with_reducible assumption | with_reducible apply kept_setEmber | split | (with_reducible refine Kept.mk0 ?_)

theorem kept_cmdEmberSetup {z0 s : State} (hk : Kept z0 s) (p : Nat) (a : EmberArgs) : Kept z0 (cmdEmberSetup s p a).st := by
  unfold cmdEmberSetup; try dsimp only
  repeat' first | with_reducible assumption | with_reducible apply kept_cmdAdmit | with_reducible apply kept_cmdCheck
                | with_reducible apply kept_cmdDone | with_reducible apply kept_setupEmber | split

theorem kept_cmdDigestSetup {z0 s : State} (hk : Kept z0 s) (p : Nat) (a : DigestArgs) : Kept z0 (cmdDigestSetup s p a).st := by
  unfold cmdDigestSetup; try dsimp only
  repeat' first | with_reducible assumption | with_reducible apply kept_cmdAdmit | with_reducible apply kept_cmdCheck
                | with_reducible apply kept_cmdDone | with_reducible apply kept_setEmber | split
                | (with_reducible refine Kept.mk0 ?_)

theorem kept_rewriteCord {z0 s : State} (hk : Kept z0 s) (a : ReplaceArgs) (k : Nat) : Kept z0 (rewriteCord s a k) := by
  unfold rewriteCord; try dsimp only
  repeat' first | with_reducible assumption | with_reducible apply kept_updFab | with_reducible apply kept_trace | split
                | (with_reducible refine Kept.mk0 ?_) | (with_reducible refine Kept.mkMem ?_ (fun w => ?_))
                | with_reducible apply memWf_setMember | with_reducible apply memWf_mk

theorem kept_spareRun {z0 s : State} (hk : Kept z0 s) (c : Nat) : Kept z0 (spareRun s c) := by
  unfold spareRun; try dsimp only
  repeat' first | with_reducible assumption | with_reducible apply kept_updCtx | with_reducible apply kept_switchCtx
                | with_reducible apply kept_popSub | split | (with_reducible refine Kept.mk0 ?_)

theorem kept_replaceRank {z0 s : State} (hk : Kept z0 s) (c : Nat) (a : ReplaceArgs) : Kept z0 (replaceRank s c a) := by
  unfold replaceRank; try dsimp only
  repeat' first | with_reducible assumption | with_reducible apply kept_rewriteCord | with_reducible apply kept_spareRun
                | with_reducible apply kept_drawFree | with_reducible apply kept_dropAttempt | with_reducible apply kept_updCtx
                | (with_reducible refine Kept.foldl _ _ ?_ ?_) | (intro _ _ _; try dsimp only) | split
                | (with_reducible refine Kept.mk0 ?_)

theorem kept_cmdRankReplace {z0 s : State} (hk : Kept z0 s) (p : Nat) (a : ReplaceArgs) : Kept z0 (cmdRankReplace s p a).st := by
  unfold cmdRankReplace; try dsimp only
  repeat' first | with_reducible assumption | with_reducible apply kept_cmdAdmit | with_reducible apply kept_cmdCheck
                | with_reducible apply kept_cmdDone | with_reducible apply kept_replaceRank | split

theorem kept_lockRefused {z0 s : State} (hk : Kept z0 s) (port : Nat) : Kept z0 (lockRefused s port) := by
  unfold lockRefused; try dsimp only
  repeat' first | with_reducible assumption | with_reducible apply kept_postEvent

theorem kept_cmdLockstepStart {z0 s : State} (hk : Kept z0 s) (p : Nat) (a : LockArgs) : Kept z0 (cmdLockstepStart s p a).st := by
  unfold cmdLockstepStart; try dsimp only
  repeat' first | with_reducible assumption | with_reducible apply kept_cmdAdmit | with_reducible apply kept_cmdCheck
                | with_reducible apply kept_cmdDone | with_reducible apply kept_lockRefused | split
                | (with_reducible refine Kept.mk0 ?_)

theorem kept_endLock {z0 s : State} (hk : Kept z0 s) : Kept z0 (endLock s) := by
  unfold endLock; try dsimp only
  repeat' first | with_reducible assumption | with_reducible apply kept_linkStep | split | (with_reducible refine Kept.mk0 ?_)

theorem kept_cmdLockstepStop {z0 s : State} (hk : Kept z0 s) : Kept z0 (cmdLockstepStop s).st := by
  unfold cmdLockstepStop; try dsimp only
  repeat' first | with_reducible assumption | with_reducible apply kept_cmdAdmit | with_reducible apply kept_cmdDone
                | with_reducible apply kept_endLock

theorem kept_diverge {z0 s : State} (hk : Kept z0 s) (a : LsWin) (n t : Nat) : Kept z0 (diverge s a n t) := by
  unfold diverge; try dsimp only
  repeat' first | with_reducible assumption | with_reducible apply kept_postEvent | split | (with_reducible refine Kept.mk0 ?_)

theorem kept_compareWin {z0 s : State} (hk : Kept z0 s) (a : LsLog) (b : LsWin × SMap DWord) : Kept z0 (compareWin s a b) := by
  unfold compareWin; try dsimp only
  repeat' first | with_reducible assumption | with_reducible apply kept_diverge | split | (with_reducible refine Kept.mk0 ?_)

theorem kept_windowDone {z0 s : State} (hk : Kept z0 s) (w : Nat) : Kept z0 (windowDone s w) := by
  unfold windowDone; try dsimp only
  repeat' first | with_reducible assumption | with_reducible apply kept_compareWin | split | (with_reducible refine Kept.mk0 ?_)

theorem kept_takeRec {z0 s : State} (hk : Kept z0 s) (b : LsWin × SMap DWord) : Kept z0 (takeRec s b) := by
  unfold takeRec; try dsimp only
  repeat' first | with_reducible assumption | with_reducible apply kept_compareWin | split | (with_reducible refine Kept.mk0 ?_)

theorem kept_loseLock {z0 s : State} (hk : Kept z0 s) : Kept z0 (loseLock s) := by
  unfold loseLock; try dsimp only
  repeat' first | with_reducible assumption | with_reducible apply kept_endLock | with_reducible apply kept_postEvent
                | (with_reducible refine Kept.mk0 ?_)

theorem kept_execComparisonWindowComplete {z0 s : State} (hk : Kept z0 s) (win : Nat) :
    KeptOut z0 (execComparisonWindowComplete win s) := by
  unfold execComparisonWindowComplete; try dsimp only
  repeat' first | with_reducible assumption | with_reducible apply kept_windowDone | with_reducible apply KeptOut.next

theorem kept_execLockstepRecord {z0 s : State} (hk : Kept z0 s) (x : LsRec) : KeptOut z0 (execLockstepRecord x s) := by
  unfold execLockstepRecord; try dsimp only
  repeat' first | with_reducible assumption | with_reducible apply kept_takeRec | with_reducible apply KeptOut.next

theorem kept_execLockstepLagExceeded {z0 s : State} (hk : Kept z0 s) : KeptOut z0 (execLockstepLagExceeded s) := by
  unfold execLockstepLagExceeded; try dsimp only
  repeat' first | with_reducible assumption | with_reducible apply kept_whileKiln | with_reducible apply kept_loseLock | split
                | with_reducible apply KeptOut.next

theorem kept_execLockstepRecordTimeout {z0 s : State} (hk : Kept z0 s) : KeptOut z0 (execLockstepRecordTimeout s) := by
  unfold execLockstepRecordTimeout; try dsimp only
  repeat' first | with_reducible assumption | with_reducible apply kept_whileKiln | with_reducible apply kept_loseLock | split
                | with_reducible apply KeptOut.next

theorem kept_execLockstepPartnerTimeout {z0 s : State} (hk : Kept z0 s) : KeptOut z0 (execLockstepPartnerTimeout s) := by
  unfold execLockstepPartnerTimeout; try dsimp only
  repeat' first | with_reducible assumption | with_reducible apply kept_whileKiln | with_reducible apply kept_lockRefused | split
                | (with_reducible refine Kept.mk0 ?_) | with_reducible apply KeptOut.next

theorem kept_setReport {z0 s : State} (hk : Kept z0 s) (n : Nat) (w : Word) : Kept z0 (setReport s n w) := by
  unfold setReport; try dsimp only
  repeat' first | with_reducible assumption | (with_reducible refine Kept.mk0 ?_)

theorem kept_postReport {z0 s : State} (hk : Kept z0 s) (n : Nat) (w : Word) : Kept z0 (postReport s n w) := by
  unfold postReport; try dsimp only
  repeat' first | with_reducible assumption | with_reducible apply kept_postAll | with_reducible apply kept_setReport

theorem kept_beginStage {z0 s : State} (hk : Kept z0 s) (n : Nat) : Kept z0 (beginStage s n) := by
  unfold beginStage; try dsimp only
  repeat' first | with_reducible assumption | with_reducible apply kept_postReport | (with_reducible refine Kept.mk0 ?_)

theorem kept_stopKindling {z0 s : State} (hk : Kept z0 s) (n code ms : Nat) : Kept z0 (stopKindling s n code ms) := by
  unfold stopKindling; try dsimp only
  repeat' first | with_reducible assumption | with_reducible apply kept_postReport | (with_reducible refine Kept.mk0 ?_)

theorem kept_passStage {z0 s : State} (hk : Kept z0 s) (n code ms : Nat) : Kept z0 (passStage s n code ms) := by
  unfold passStage; try dsimp only
  repeat' first | with_reducible assumption | with_reducible apply kept_beginStage | with_reducible apply kept_postReport

theorem kept_tripInStage {z0 s : State} (hk : Kept z0 s) : Kept z0 (tripInStage s) := by
  unfold tripInStage; try dsimp only
  repeat' first | with_reducible assumption | with_reducible apply kept_stopKindling | split

theorem kept_endTransfer {z0 s : State} (hk : Kept z0 s) : Kept z0 (endTransfer s) := by
  unfold endTransfer; try dsimp only
  repeat' first | with_reducible assumption | split | (with_reducible refine Kept.mk0 ?_)
                | (with_reducible refine Kept.mkFlash ?_ ?_) | (with_reducible refine Kept.mkBoth ?_ (fun w => ?_) ?_)
                | with_reducible apply FlashKept.refl | with_reducible apply flashKept_addDefects
                | with_reducible apply flashKept_putField | with_reducible apply flashKept_putRetired
                | with_reducible apply flashKept_putUpd | with_reducible apply flashKept_putSaved
                | with_reducible apply flashKept_chooseImage
                | exact FlashKept.mk rfl rfl rfl rfl rfl rfl (Nat.le_refl _) (fun _ x => x)
                | exact FlashKept.mk rfl rfl rfl rfl rfl rfl (by simp) (fun _ x => by simp [x])

theorem kept_rewindKindling {z0 s : State} (hk : Kept z0 s) : Kept z0 (rewindKindling s) := by
  unfold rewindKindling; try dsimp only
  repeat' first | with_reducible assumption | split | (with_reducible refine Kept.mk0 ?_)

theorem kept_watchdogFire {z0 s : State} (hk : Kept z0 s) (core cause : Nat) : Kept z0 (watchdogFire s core cause) := by
  unfold watchdogFire; try dsimp only
  repeat' first | with_reducible assumption | with_reducible apply kept_endTransfer | with_reducible apply kept_rewindKindling
                | with_reducible apply kept_updCtx | (with_reducible refine Kept.foldl _ _ ?_ ?_) | (intro _ _ _; try dsimp only)
                | (with_reducible refine Kept.mk0 ?_)

theorem kept_execWatchdogRestart {z0 s : State} (hk : Kept z0 s) (core : Fin 4) (cause : Fin 3) :
    KeptOut z0 (execWatchdogRestart core cause s) := by
  unfold execWatchdogRestart; try dsimp only
  repeat' first | with_reducible assumption | with_reducible apply kept_watchdogFire | split | with_reducible apply KeptOut.next

theorem kept_abortSteps {z0 s : State} (hk : Kept z0 s) : Kept z0 (abortSteps s) := by
  unfold abortSteps; try dsimp only
  repeat' first | with_reducible assumption | with_reducible apply kept_abortPart | (with_reducible refine Kept.foldl _ _ ?_ ?_)
                | (intro _ _ _; try dsimp only) | split

theorem kept_recoverStep {z0 s : State} (hk : Kept z0 s) (c : Nat) : Kept z0 (recoverStep s c) := by
  unfold recoverStep; try dsimp only
  repeat' first | with_reducible assumption | with_reducible apply kept_noteCause | with_reducible apply kept_arriveJob
                | with_reducible apply kept_updRun | with_reducible apply kept_failStep | split
                | (with_reducible refine Kept.mk0 ?_)

theorem kept_loseStep {z0 s : State} (hk : Kept z0 s) (c : Nat) : Kept z0 (loseStep s c) := by
  unfold loseStep; try dsimp only
  repeat' first | with_reducible assumption | with_reducible apply kept_updCtx | with_reducible apply kept_failStep
                | with_reducible apply kept_arriveJob | split | (with_reducible refine Kept.mk0 ?_)

theorem kept_pauseAll {z0 s : State} (hk : Kept z0 s) : Kept z0 (pauseAll s) := by
  unfold pauseAll; try dsimp only
  repeat' first | with_reducible assumption | with_reducible apply kept_updCtx | (with_reducible refine Kept.foldl _ _ ?_ ?_)
                | (intro _ _ _; try dsimp only) | (with_reducible refine Kept.mk0 ?_)

theorem kept_rebegin {z0 s : State} (hk : Kept z0 s) : Kept z0 (rebegin s) := by
  unfold rebegin; try dsimp only
  repeat' first | with_reducible assumption | with_reducible apply kept_beginStage | split

theorem kept_endHandshake {z0 s : State} (hk : Kept z0 s) : Kept z0 (endHandshake s) := by
  unfold endHandshake; try dsimp only
  repeat' first | with_reducible assumption | with_reducible apply kept_endCtx | (with_reducible refine Kept.foldl _ _ ?_ ?_)
                | (intro _ _ _; try dsimp only) | split

theorem kept_recoverKiln {z0 s : State} (hk : Kept z0 s) (keepOk : Bool) : Kept z0 (recoverKiln s keepOk) := by
  unfold recoverKiln; try dsimp only
  repeat' first | with_reducible assumption | with_reducible apply kept_abortSteps | with_reducible apply kept_recoverStep
                | with_reducible apply kept_loseStep | with_reducible apply kept_postAll | with_reducible apply kept_logOnly
                | with_reducible apply kept_pauseAll | (with_reducible refine Kept.foldl _ _ ?_ ?_)
                | (intro _ _ _; try dsimp only) | split | (with_reducible refine Kept.mk0 ?_)

theorem kept_execKilnRestartRecovery {z0 s : State} (hk : Kept z0 s) (keepOk : Bool) :
    KeptOut z0 (execKilnRestartRecovery keepOk s) := by
  unfold execKilnRestartRecovery; try dsimp only
  repeat' first | with_reducible assumption | with_reducible apply kept_endHandshake | with_reducible apply kept_rebegin
                | with_reducible apply kept_recoverKiln | split | with_reducible apply KeptOut.next

theorem kept_execTelemetrySample {z0 s : State} (hk : Kept z0 s) : KeptOut z0 (execTelemetrySample s) := by
  unfold execTelemetrySample; try dsimp only
  repeat' first | with_reducible assumption | split | (with_reducible refine Kept.mk0 ?_) | with_reducible apply KeptOut.next

theorem kept_execDecimationUpdate {z0 s : State} (hk : Kept z0 s) (x : LoadRead) : KeptOut z0 (execDecimationUpdate x s) := by
  unfold execDecimationUpdate; try dsimp only
  repeat' first | with_reducible assumption | split | (with_reducible refine Kept.mk0 ?_) | with_reducible apply KeptOut.next

end Sys2Proof.Machine
end

