-- ==== Sys2Proof/Laws/KeptBoot.lean ====
section
/-! SUPPORT. What is kept by the power-up stages, the fabric and link rows, updates, sessions, the side bus and the tile rows. -/

namespace Sys2Proof.Machine

set_option linter.unusedTactic false
set_option linter.unreachableTactic false

theorem kept_startImage {z0 s : State} (hk : Kept z0 s) (n : Nat) (i : FwImage) (ms : Nat) : Kept z0 (startImage s n i ms) := by
  unfold startImage; try dsimp only
  repeat' first | with_reducible assumption | with_reducible apply kept_passStage | split | (with_reducible refine Kept.mk0 ?_)

theorem kept_romStop {z0 s : State} (hk : Kept z0 s) (code ms : Nat) : Kept z0 (romStop s code ms) := by
  unfold romStop; try dsimp only
  repeat' first | with_reducible assumption | with_reducible apply kept_setReport | (with_reducible refine Kept.mk0 ?_)

theorem kept_serviceStop {z0 s : State} (hk : Kept z0 s) : Kept z0 (serviceStop s) := by
  unfold serviceStop; try dsimp only
  repeat' first | with_reducible assumption | with_reducible apply kept_powerDown | (with_reducible refine Kept.mk0 ?_)

theorem kept_execStage0 {z0 s : State} (hk : Kept z0 s) (x : StageOut) : KeptOut z0 (execStage0 x s) := by
  unfold execStage0; try dsimp only
  repeat' first | with_reducible assumption | with_reducible apply kept_romStop | with_reducible apply kept_serviceStop
                | with_reducible apply kept_startImage | split | (with_reducible refine Kept.mk0 ?_)
                | (with_reducible refine Kept.mkFlash ?_ ?_) | (with_reducible refine Kept.mkBoth ?_ (fun w => ?_) ?_)
                | with_reducible apply FlashKept.refl | with_reducible apply flashKept_addDefects
                | with_reducible apply flashKept_putField | with_reducible apply flashKept_putRetired
                | with_reducible apply flashKept_putUpd | with_reducible apply flashKept_putSaved
                | with_reducible apply flashKept_chooseImage
                | exact FlashKept.mk rfl rfl rfl rfl rfl rfl (Nat.le_refl _) (fun _ x => x)
                | exact FlashKept.mk rfl rfl rfl rfl rfl rfl (by simp) (fun _ x => by simp [x])
                | with_reducible apply KeptOut.next

theorem kept_execRomSelftestTimeout {z0 s : State} (hk : Kept z0 s) : KeptOut z0 (execRomSelftestTimeout s) := by
  unfold execRomSelftestTimeout; try dsimp only
  repeat' first | with_reducible assumption | with_reducible apply kept_romStop | split | with_reducible apply KeptOut.next

theorem kept_execServiceBankTimeout {z0 s : State} (hk : Kept z0 s) : KeptOut z0 (execServiceBankTimeout s) := by
  unfold execServiceBankTimeout; try dsimp only
  repeat' first | with_reducible assumption | with_reducible apply kept_serviceStop | split | with_reducible apply KeptOut.next

theorem kept_resetSettings {z0 s : State} (hk : Kept z0 s) : Kept z0 (resetSettings s) := by
  unfold resetSettings; try dsimp only
  repeat' first | with_reducible assumption | with_reducible apply kept_postAll | split | (with_reducible refine Kept.mk0 ?_)
                | (with_reducible refine Kept.mkFlash ?_ ?_) | (with_reducible refine Kept.mkBoth ?_ (fun w => ?_) ?_)
                | with_reducible apply FlashKept.refl | with_reducible apply flashKept_addDefects
                | with_reducible apply flashKept_putField | with_reducible apply flashKept_putRetired
                | with_reducible apply flashKept_putUpd | with_reducible apply flashKept_putSaved
                | with_reducible apply flashKept_chooseImage
                | exact FlashKept.mk rfl rfl rfl rfl rfl rfl (Nat.le_refl _) (fun _ x => x)
                | exact FlashKept.mk rfl rfl rfl rfl rfl rfl (by simp) (fun _ x => by simp [x])

theorem kept_execStage1 {z0 s : State} (hk : Kept z0 s) (x : StageOut) (puf : PufRead) (serials : List Nat) :
    KeptOut z0 (execStage1 x puf serials s) := by
  refine KeptOut.next ?_
  split
  · exact hk
  · dsimp only
    generalize hm : (List.range 12).foldl (fun m i => setMemDev m 1 i { memDevOf m 1 i with present := nth0 serials i != 0 }) s.mem = m
    have a := Kept.mkMem (mem := m) (boot := { s.boot with
      pufCorr := min puf.corr 0xFFFF, idValid := identOk s.flash puf, serials := (List.range 12).map (nth0 serials) }) hk
      (fun w => hm ▸ memWf_foldl _ (fun _ _ w => memWf_setMemDev _ _ _ w) _ w)
      (clock := s.clock) (tiles := s.tiles) (ring := s.ring) (lk := s.lk) (fab := s.fab) (pwr := s.pwr) (kiln := s.kiln) (p0 := s.p0)
      (p1 := s.p1) (upd := s.upd) (spdm0 := s.spdm0) (spdm1 := s.spdm1) (smb := s.smb)
    split
    · exact kept_stopKindling a _ _ _
    · have b := kept_resetSettings a
      generalize resetSettings _ = s2 at *
      refine kept_passStage (Kept.mkFlash b ?_) _ _ _
      split
      · exact flashKept_putUpd _ _
      · exact FlashKept.refl _

theorem kept_shedAll {z0 s : State} (hk : Kept z0 s) (bad : List (Nat × Nat × Nat)) : Kept z0 (shedAll s bad) := by
  unfold shedAll; try dsimp only
  repeat' first | with_reducible assumption | with_reducible apply kept_logOnly | with_reducible apply kept_updPwr
                | (with_reducible refine Kept.foldl _ _ ?_ ?_) | (intro _ _ _; try dsimp only) | split

theorem kept_execStage2 {z0 s : State} (hk : Kept z0 s) (x : StageOut) (bad : List (Nat × Nat × Nat)) (mtemp : Int) :
    KeptOut z0 (execStage2 x bad mtemp s) := by
  unfold execStage2; try dsimp only
  repeat' first | with_reducible assumption | with_reducible apply kept_shedAll | with_reducible apply kept_stopKindling
                | with_reducible apply kept_passStage | split | (with_reducible refine Kept.mk0 ?_)
                | with_reducible apply KeptOut.next

theorem kept_decideStart {z0 s : State} (hk : Kept z0 s) : Kept z0 (decideStart s) := by
  unfold decideStart; try dsimp only
  repeat' first | with_reducible assumption | split | (with_reducible refine Kept.mk0 ?_)

theorem kept_setLevels {z0 s : State} (hk : Kept z0 s) : Kept z0 (setLevels s) := by
  unfold setLevels; try dsimp only
  repeat' first | with_reducible assumption | with_reducible apply kept_updPwr | (with_reducible refine Kept.foldl _ _ ?_ ?_)
                | (intro _ _ _; try dsimp only) | (with_reducible refine Kept.mk0 ?_)

theorem kept_execStage3 {z0 s : State} (hk : Kept z0 s) (x : StageOut) (c : Calib) :
    KeptOut z0 (execStage3 x c s) := by
  unfold execStage3; try dsimp only
  repeat' first | with_reducible assumption | with_reducible apply kept_decideStart | with_reducible apply kept_stopKindling
                | with_reducible apply kept_updPwr | with_reducible apply kept_passStage | with_reducible apply kept_setLevels
                | (with_reducible refine Kept.foldl _ _ ?_ ?_) | (intro _ _ _; try dsimp only) | split
                | (with_reducible refine Kept.mk0 ?_) | with_reducible apply KeptOut.next

theorem kept_execStage3TimeWait {z0 s : State} (hk : Kept z0 s) : KeptOut z0 (execStage3TimeWait s) := by
  unfold execStage3TimeWait; try dsimp only
  repeat' first | with_reducible assumption | split | (with_reducible refine Kept.mk0 ?_) | with_reducible apply KeptOut.next

theorem kept_execNtpAnswer {z0 s : State} (hk : Kept z0 s) (utc : Nat) : KeptOut z0 (execNtpAnswer utc s) := by
  unfold execNtpAnswer; try dsimp only
  repeat' first | with_reducible assumption | with_reducible apply kept_learnTime | split | with_reducible apply KeptOut.next

theorem kept_powerWave {z0 s : State} (hk : Kept z0 s) (field : Nat) (found : List Defect) :
    Kept z0 (powerWave s field found).1 := by
  unfold powerWave; try dsimp only
  repeat' first | with_reducible assumption | split | (with_reducible refine Kept.mk0 ?_)
                | (with_reducible refine Kept.mkFlash ?_ ?_) | (with_reducible refine Kept.mkBoth ?_ (fun w => ?_) ?_)
                | with_reducible apply FlashKept.refl | with_reducible apply flashKept_addDefects
                | with_reducible apply flashKept_putField | with_reducible apply flashKept_putRetired
                | with_reducible apply flashKept_putUpd | with_reducible apply flashKept_putSaved
                | with_reducible apply flashKept_chooseImage
                | exact FlashKept.mk rfl rfl rfl rfl rfl rfl (Nat.le_refl _) (fun _ x => x)
                | exact FlashKept.mk rfl rfl rfl rfl rfl rfl (by simp) (fun _ x => by simp [x])

theorem kept_powerWaves {z0 s : State} (hk : Kept z0 s) (found : List (List Defect)) : Kept z0 (powerWaves s found).1 := by
  unfold powerWaves
  suffices g : ∀ (l : List Nat) (x : State × Nat), Kept z0 x.1 →
      Kept z0 (l.foldl (fun x n => if x.2 ≠ 0 then x else powerWave x.1 n (found.getD n [])) x).1 from g _ (s, 0) hk
  intro l
  induction l with
  | nil => intro x h; exact h
  | cons n l ih =>
    intro x h; refine ih _ ?_; dsimp only
    split
    · exact h
    · exact kept_powerWave h _ _

theorem kept_execStage4 {z0 s : State} (hk : Kept z0 s) (x : StageOut) (found : List (List Defect)) :
    KeptOut z0 (execStage4 x found s) := by
  unfold execStage4; try dsimp only
  repeat' first | with_reducible assumption | with_reducible apply kept_powerWaves | with_reducible apply kept_stopKindling
                | with_reducible apply kept_passStage | with_reducible apply kept_updTiles | with_reducible apply kept_applyMap
                | split | (with_reducible refine Kept.mk0 ?_) | with_reducible apply KeptOut.next

theorem kept_withhold {z0 s : State} (hk : Kept z0 s) (tier : Nat) (ws : List Nat) : Kept z0 (withhold s tier ws) := by
  unfold withhold; try dsimp only
  repeat' first | with_reducible assumption | with_reducible apply kept_retire | (with_reducible refine Kept.foldl _ _ ?_ ?_)
                | (intro _ _ _; try dsimp only) | split | (with_reducible refine Kept.mk0 ?_)
                | (with_reducible refine Kept.mkMem ?_ (fun w => ?_)) | with_reducible apply memWf_retireFrame
                | with_reducible apply memWf_mk

theorem kept_keepTraining {z0 s : State} (hk : Kept z0 s) (tier : Nat) (res : List (Fin 16 × Nat)) :
    Kept z0 (keepTraining s tier res) := by
  unfold keepTraining; try dsimp only
  repeat' first | with_reducible assumption | (with_reducible refine Kept.foldl _ _ ?_ ?_) | (intro _ _ _; try dsimp only) | split
                | (with_reducible refine Kept.mk0 ?_)

theorem kept_execStage5 {z0 s : State} (hk : Kept z0 s) (x : StageOut) (r : MemTrain) :
    KeptOut z0 (execStage5 x r s) := by
  unfold execStage5; try dsimp only
  repeat' first | with_reducible assumption | with_reducible apply kept_stopKindling | with_reducible apply kept_withhold
                | with_reducible apply kept_keepTraining | with_reducible apply kept_passStage | split
                | (with_reducible refine Kept.mk0 ?_) | (with_reducible refine Kept.mkMem ?_ (fun w => ?_))
                | with_reducible apply memWf_trainDevs | with_reducible apply memWf_mk | with_reducible apply KeptOut.next

theorem kept_trainAll {z0 s : State} (hk : Kept z0 s) : Kept z0 (trainAll s) := by
  unfold trainAll; try dsimp only
  repeat' first | with_reducible assumption | with_reducible apply kept_linksStep | (with_reducible refine Kept.foldl _ _ ?_ ?_)
                | (intro _ _ _; try dsimp only) | split | (with_reducible refine Kept.mk0 ?_)

theorem kept_execStage6 {z0 s : State} (hk : Kept z0 s) (x : StageOut) (r : MemTrain) :
    KeptOut z0 (execStage6 x r s) := by
  unfold execStage6; try dsimp only
  repeat' first | with_reducible assumption | with_reducible apply kept_trainAll | with_reducible apply kept_passStage
                | with_reducible apply kept_stopKindling | with_reducible apply kept_withhold
                | with_reducible apply kept_keepTraining | split | (with_reducible refine Kept.mk0 ?_)
                | (with_reducible refine Kept.mkMem ?_ (fun w => ?_)) | with_reducible apply memWf_trainDevs
                | with_reducible apply memWf_mk | with_reducible apply KeptOut.next

theorem kept_execStage7 {z0 s : State} (hk : Kept z0 s) (x : StageOut) : KeptOut z0 (execStage7 x s) := by
  unfold execStage7; try dsimp only
  repeat' first | with_reducible assumption | with_reducible apply kept_passStage | split | with_reducible apply KeptOut.next

theorem kept_execStage7Timeout {z0 s : State} (hk : Kept z0 s) (ms : Nat) : KeptOut z0 (execStage7Timeout ms s) := by
  unfold execStage7Timeout; try dsimp only
  repeat' first | with_reducible assumption | with_reducible apply kept_passStage | split | with_reducible apply KeptOut.next

theorem kept_saveSettings {z0 s : State} (hk : Kept z0 s) : Kept z0 (saveSettings s) := by
  unfold saveSettings; try dsimp only
  repeat' first | with_reducible assumption | with_reducible apply kept_drawFree | split | (with_reducible refine Kept.mk0 ?_)
                | (with_reducible refine Kept.mkFlash ?_ ?_) | (with_reducible refine Kept.mkBoth ?_ (fun w => ?_) ?_)
                | with_reducible apply FlashKept.refl | with_reducible apply flashKept_addDefects
                | with_reducible apply flashKept_putField | with_reducible apply flashKept_putRetired
                | with_reducible apply flashKept_putUpd | with_reducible apply flashKept_putSaved
                | with_reducible apply flashKept_chooseImage
                | exact FlashKept.mk rfl rfl rfl rfl rfl rfl (Nat.le_refl _) (fun _ x => x)
                | exact FlashKept.mk rfl rfl rfl rfl rfl rfl (by simp) (fun _ x => by simp [x])

theorem kept_endTrial {z0 s : State} (hk : Kept z0 s) : Kept z0 (endTrial s) := by
  unfold endTrial; split
  · exact hk
  · dsimp only
    refine kept_postAll (Kept.mkFlash hk ?_) _ _
    exact FlashKept.mk rfl rfl rfl rfl rfl rfl (Nat.le_max_left _ _) (fun _ h => h)

theorem kept_spareAgain {z0 s : State} (hk : Kept z0 s) : Kept z0 (spareAgain s) := by
  unfold spareAgain; try dsimp only
  repeat' first | with_reducible assumption | split | (with_reducible refine Kept.mk0 ?_)
                | (with_reducible refine Kept.mkFlash ?_ ?_) | (with_reducible refine Kept.mkBoth ?_ (fun w => ?_) ?_)
                | with_reducible apply FlashKept.refl | with_reducible apply flashKept_addDefects
                | with_reducible apply flashKept_putField | with_reducible apply flashKept_putRetired
                | with_reducible apply flashKept_putUpd | with_reducible apply flashKept_putSaved
                | with_reducible apply flashKept_chooseImage
                | exact FlashKept.mk rfl rfl rfl rfl rfl rfl (Nat.le_refl _) (fun _ x => x)
                | exact FlashKept.mk rfl rfl rfl rfl rfl rfl (by simp) (fun _ x => by simp [x])

theorem kept_execStage8 {z0 s : State} (hk : Kept z0 s) (x : StageOut) : KeptOut z0 (execStage8 x s) := by
  unfold execStage8; try dsimp only
  repeat' first | with_reducible assumption | with_reducible apply kept_spareAgain | with_reducible apply kept_saveSettings
                | with_reducible apply kept_endTrial | with_reducible apply kept_postReport | split
                | (with_reducible refine Kept.mk0 ?_) | with_reducible apply KeptOut.next

theorem kept_advanceCopy {z0 s : State} (hk : Kept z0 s) : Kept z0 (advanceCopy s) := by
  unfold advanceCopy; try dsimp only
  repeat' first | with_reducible assumption | with_reducible apply kept_postAll | split | (with_reducible refine Kept.mk0 ?_)
                | (with_reducible refine Kept.mkFlash ?_ ?_) | (with_reducible refine Kept.mkBoth ?_ (fun w => ?_) ?_)
                | with_reducible apply FlashKept.refl | with_reducible apply flashKept_addDefects
                | with_reducible apply flashKept_putField | with_reducible apply flashKept_putRetired
                | with_reducible apply flashKept_putUpd | with_reducible apply flashKept_putSaved
                | with_reducible apply flashKept_chooseImage
                | exact FlashKept.mk rfl rfl rfl rfl rfl rfl (Nat.le_refl _) (fun _ x => x)
                | exact FlashKept.mk rfl rfl rfl rfl rfl rfl (by simp) (fun _ x => by simp [x])

theorem kept_execImageCopyDone {z0 s : State} (hk : Kept z0 s) : KeptOut z0 (execImageCopyDone s) := by
  unfold execImageCopyDone; try dsimp only
  repeat' first | with_reducible assumption | with_reducible apply kept_advanceCopy | split | with_reducible apply KeptOut.next

theorem kept_execInfo {z0 s : State} (hk : Kept z0 s) (_port : Fin 2) : KeptOut z0 (execInfo _port s) := by
  unfold execInfo; try dsimp only
  repeat' first | with_reducible assumption | with_reducible apply kept_cmdRun | with_reducible apply kept_cmdInfo
                | with_reducible apply KeptOut.next

theorem kept_execTimeSet {z0 s : State} (hk : Kept z0 s) (_port : Fin 2) (utc : DWord) :
    KeptOut z0 (execTimeSet _port utc s) := by
  unfold execTimeSet; try dsimp only
  repeat' first | with_reducible assumption | with_reducible apply kept_cmdRun | with_reducible apply kept_cmdTimeSet
                | with_reducible apply KeptOut.next

theorem kept_execRestart {z0 s : State} (hk : Kept z0 s) (_port : Fin 2) : KeptOut z0 (execRestart _port s) := by
  unfold execRestart; try dsimp only
  repeat' first | with_reducible assumption | with_reducible apply kept_cmdRun | with_reducible apply kept_cmdRestart
                | with_reducible apply KeptOut.next

theorem kept_execFullStart {z0 s : State} (hk : Kept z0 s) (_port : Fin 2) : KeptOut z0 (execFullStart _port s) := by
  unfold execFullStart; try dsimp only
  repeat' first | with_reducible assumption | with_reducible apply kept_cmdRun | with_reducible apply kept_cmdFullStart
                | with_reducible apply KeptOut.next

theorem kept_execDefectRead {z0 s : State} (hk : Kept z0 s) (_port : Fin 2) (kind : Byte) (off : Word) :
    KeptOut z0 (execDefectRead _port kind off s) := by
  unfold execDefectRead; try dsimp only
  repeat' first | with_reducible assumption | with_reducible apply kept_cmdRun | with_reducible apply kept_cmdDefectRead
                | with_reducible apply KeptOut.next

theorem kept_execActivate {z0 s : State} (hk : Kept z0 s) (_port : Fin 2) (at_ : DWord) (window : BitVec 16) :
    KeptOut z0 (execActivate _port at_ window s) := by
  unfold execActivate; try dsimp only
  repeat' first | with_reducible assumption | with_reducible apply kept_cmdRun | with_reducible apply kept_cmdActivate
                | with_reducible apply KeptOut.next

theorem kept_execActivateCancel {z0 s : State} (hk : Kept z0 s) (_port : Fin 2) : KeptOut z0 (execActivateCancel _port s) := by
  unfold execActivateCancel; try dsimp only
  repeat' first | with_reducible assumption | with_reducible apply kept_cmdRun | with_reducible apply kept_cmdActivateCancel
                | with_reducible apply KeptOut.next

theorem kept_execAttach {z0 s : State} (hk : Kept z0 s) (port : Fin 2) (a : AttachArgs) : KeptOut z0 (execAttach port a s) := by
  unfold execAttach; try dsimp only
  repeat' first | with_reducible assumption | with_reducible apply kept_cmdRun | with_reducible apply kept_cmdAttach
                | with_reducible apply KeptOut.next

theorem kept_execDetach {z0 s : State} (hk : Kept z0 s) (port : Fin 2) : KeptOut z0 (execDetach port s) := by
  unfold execDetach; try dsimp only
  repeat' first | with_reducible assumption | with_reducible apply kept_cmdRun | with_reducible apply kept_cmdDetach
                | with_reducible apply KeptOut.next

theorem kept_execBar2Window {z0 s : State} (hk : Kept z0 s) (port : Fin 2) (page : Word) :
    KeptOut z0 (execBar2Window port page s) := by
  unfold execBar2Window; try dsimp only
  repeat' first | with_reducible assumption | with_reducible apply kept_cmdRun | with_reducible apply kept_cmdBar2Window
                | with_reducible apply KeptOut.next

theorem kept_execTraceConfig {z0 s : State} (hk : Kept z0 s) (_port : Fin 2) (mask : DWord) :
    KeptOut z0 (execTraceConfig _port mask s) := by
  unfold execTraceConfig; try dsimp only
  repeat' first | with_reducible assumption | with_reducible apply kept_cmdRun | with_reducible apply kept_cmdTraceConfig
                | with_reducible apply KeptOut.next

theorem kept_execPartConfig {z0 s : State} (hk : Kept z0 s) (port : Fin 2) (part : Byte) (fmask : Byte) (mode : Byte)
    (gang : Byte) :
    KeptOut z0 (execPartConfig port part fmask mode gang s) := by
  unfold execPartConfig; try dsimp only
  repeat' first | with_reducible assumption | with_reducible apply kept_cmdRun | with_reducible apply kept_cmdPartConfig
                | with_reducible apply KeptOut.next

theorem kept_execPartPowerOn {z0 s : State} (hk : Kept z0 s) (port : Fin 2) (part : Byte) :
    KeptOut z0 (execPartPowerOn port part s) := by
  unfold execPartPowerOn; try dsimp only
  repeat' first | with_reducible assumption | with_reducible apply kept_cmdRun | with_reducible apply kept_cmdPartPowerOn
                | with_reducible apply KeptOut.next

theorem kept_execPartPowerOff {z0 s : State} (hk : Kept z0 s) (port : Fin 2) (part : Byte) :
    KeptOut z0 (execPartPowerOff port part s) := by
  unfold execPartPowerOff; try dsimp only
  repeat' first | with_reducible assumption | with_reducible apply kept_cmdRun | with_reducible apply kept_cmdPartPowerOff
                | with_reducible apply KeptOut.next

theorem kept_execPowerPolicy {z0 s : State} (hk : Kept z0 s) (port : Fin 2) (cap : BitVec 16) (part : Byte) (mode : Byte)
    (stp : Byte) :
    KeptOut z0 (execPowerPolicy port cap part mode stp s) := by
  unfold execPowerPolicy; try dsimp only
  repeat' first | with_reducible assumption | with_reducible apply kept_cmdRun | with_reducible apply kept_cmdPowerPolicy
                | with_reducible apply KeptOut.next

theorem kept_execCtxCreate {z0 s : State} (hk : Kept z0 s) (port : Fin 2) (a : CtxArgs) :
    KeptOut z0 (execCtxCreate port a s) := by
  unfold execCtxCreate; try dsimp only
  repeat' first | with_reducible assumption | with_reducible apply kept_cmdRun | with_reducible apply kept_cmdCtxCreate
                | with_reducible apply KeptOut.next

theorem kept_execCtxPause {z0 s : State} (hk : Kept z0 s) (port : Fin 2) (c : Byte) : KeptOut z0 (execCtxPause port c s) := by
  unfold execCtxPause; try dsimp only
  repeat' first | with_reducible assumption | with_reducible apply kept_cmdRun | with_reducible apply kept_cmdCtxPause
                | with_reducible apply KeptOut.next

theorem kept_execCtxResume {z0 s : State} (hk : Kept z0 s) (port : Fin 2) (c : Byte) : KeptOut z0 (execCtxResume port c s) := by
  unfold execCtxResume; try dsimp only
  repeat' first | with_reducible assumption | with_reducible apply kept_cmdRun | with_reducible apply kept_cmdCtxResume
                | with_reducible apply KeptOut.next

theorem kept_execCtxDestroy {z0 s : State} (hk : Kept z0 s) (port : Fin 2) (c : Byte) : KeptOut z0 (execCtxDestroy port c s) := by
  unfold execCtxDestroy; try dsimp only
  repeat' first | with_reducible assumption | with_reducible apply kept_cmdRun | with_reducible apply kept_cmdCtxDestroy
                | with_reducible apply KeptOut.next

theorem kept_execCtxRestore {z0 s : State} (hk : Kept z0 s) (port : Fin 2) (c : Byte) (a : RestoreArgs) :
    KeptOut z0 (execCtxRestore port c a s) := by
  unfold execCtxRestore; try dsimp only
  repeat' first | with_reducible assumption | with_reducible apply kept_cmdRun | with_reducible apply kept_cmdCtxRestore
                | with_reducible apply KeptOut.next

theorem kept_execTmapMap {z0 s : State} (hk : Kept z0 s) (port : Fin 2) (first : Word) (count : Word) (part : Byte)
    (tier : Byte) (writable : Byte) :
    KeptOut z0 (execTmapMap port first count part tier writable s) := by
  unfold execTmapMap; try dsimp only
  repeat' first | with_reducible assumption | with_reducible apply kept_cmdRun | with_reducible apply kept_cmdTmapMap
                | with_reducible apply KeptOut.next

theorem kept_execTmapUnmap {z0 s : State} (hk : Kept z0 s) (port : Fin 2) (first : Word) (count : Word) :
    KeptOut z0 (execTmapUnmap port first count s) := by
  unfold execTmapUnmap; try dsimp only
  repeat' first | with_reducible assumption | with_reducible apply kept_cmdRun | with_reducible apply kept_cmdTmapUnmap
                | with_reducible apply KeptOut.next

theorem kept_execTmapRead {z0 s : State} (hk : Kept z0 s) (port : Fin 2) (first : Word) (count : Byte) :
    KeptOut z0 (execTmapRead port first count s) := by
  unfold execTmapRead; try dsimp only
  repeat' first | with_reducible assumption | with_reducible apply kept_cmdRun | with_reducible apply kept_cmdTmapRead
                | with_reducible apply KeptOut.next

theorem kept_execFabricAssign {z0 s : State} (hk : Kept z0 s) (_port : Fin 2) (a : AssignArgs) :
    KeptOut z0 (execFabricAssign _port a s) := by
  unfold execFabricAssign; try dsimp only
  repeat' first | with_reducible assumption | with_reducible apply kept_cmdRun | with_reducible apply kept_cmdFabricAssign
                | with_reducible apply KeptOut.next

theorem kept_execLinkDisable {z0 s : State} (hk : Kept z0 s) (_port : Fin 2) (link : Byte) :
    KeptOut z0 (execLinkDisable _port link s) := by
  unfold execLinkDisable; try dsimp only
  repeat' first | with_reducible assumption | with_reducible apply kept_cmdRun | with_reducible apply kept_cmdLinkDisable
                | with_reducible apply KeptOut.next

theorem kept_execLinkEnable {z0 s : State} (hk : Kept z0 s) (_port : Fin 2) (link : Byte) :
    KeptOut z0 (execLinkEnable _port link s) := by
  unfold execLinkEnable; try dsimp only
  repeat' first | with_reducible assumption | with_reducible apply kept_cmdRun | with_reducible apply kept_cmdLinkEnable
                | with_reducible apply KeptOut.next

theorem kept_execBladeRelease {z0 s : State} (hk : Kept z0 s) (_port : Fin 2) (blade : Byte) :
    KeptOut z0 (execBladeRelease _port blade s) := by
  unfold execBladeRelease; try dsimp only
  repeat' first | with_reducible assumption | with_reducible apply kept_cmdRun | with_reducible apply kept_cmdBladeRelease
                | with_reducible apply KeptOut.next

theorem kept_execFailureRate {z0 s : State} (hk : Kept z0 s) (_port : Fin 2) (c : Byte) (mtbf : Word) :
    KeptOut z0 (execFailureRate _port c mtbf s) := by
  unfold execFailureRate; try dsimp only
  repeat' first | with_reducible assumption | with_reducible apply kept_cmdRun | with_reducible apply kept_cmdFailureRate
                | with_reducible apply KeptOut.next

theorem kept_execCordSetup {z0 s : State} (hk : Kept z0 s) (port : Fin 2) (cord : BitVec 16) (ent : BitVec 256) :
    KeptOut z0 (execCordSetup port cord ent s) := by
  unfold execCordSetup; try dsimp only
  repeat' first | with_reducible assumption | with_reducible apply kept_cmdRun | with_reducible apply kept_cmdCordSetup
                | with_reducible apply KeptOut.next

theorem kept_execCordRead {z0 s : State} (hk : Kept z0 s) (port : Fin 2) (cord : BitVec 16) :
    KeptOut z0 (execCordRead port cord s) := by
  unfold execCordRead; try dsimp only
  repeat' first | with_reducible assumption | with_reducible apply kept_cmdRun | with_reducible apply kept_cmdCordRead
                | with_reducible apply KeptOut.next

theorem kept_execRankReplace {z0 s : State} (hk : Kept z0 s) (port : Fin 2) (a : ReplaceArgs) :
    KeptOut z0 (execRankReplace port a s) := by
  unfold execRankReplace; try dsimp only
  repeat' first | with_reducible assumption | with_reducible apply kept_cmdRun | with_reducible apply kept_cmdRankReplace
                | with_reducible apply KeptOut.next

theorem kept_execEmberSetup {z0 s : State} (hk : Kept z0 s) (port : Fin 2) (a : EmberArgs) :
    KeptOut z0 (execEmberSetup port a s) := by
  unfold execEmberSetup; try dsimp only
  repeat' first | with_reducible assumption | with_reducible apply kept_cmdRun | with_reducible apply kept_cmdEmberSetup
                | with_reducible apply KeptOut.next

theorem kept_execDigestSetup {z0 s : State} (hk : Kept z0 s) (port : Fin 2) (a : DigestArgs) :
    KeptOut z0 (execDigestSetup port a s) := by
  unfold execDigestSetup; try dsimp only
  repeat' first | with_reducible assumption | with_reducible apply kept_cmdRun | with_reducible apply kept_cmdDigestSetup
                | with_reducible apply KeptOut.next

theorem kept_execRefillDone {z0 s : State} (hk : Kept z0 s) (port : Fin 2) (c : Byte) (page : Word) :
    KeptOut z0 (execRefillDone port c page s) := by
  unfold execRefillDone; try dsimp only
  repeat' first | with_reducible assumption | with_reducible apply kept_cmdRun | with_reducible apply kept_cmdRefillDone
                | with_reducible apply KeptOut.next

theorem kept_execForceCopy {z0 s : State} (hk : Kept z0 s) (port : Fin 2) (c : Byte) : KeptOut z0 (execForceCopy port c s) := by
  unfold execForceCopy; try dsimp only
  repeat' first | with_reducible assumption | with_reducible apply kept_cmdRun | with_reducible apply kept_cmdForceCopy
                | with_reducible apply KeptOut.next

theorem kept_execLockstepStart {z0 s : State} (hk : Kept z0 s) (port : Fin 2) (a : LockArgs) :
    KeptOut z0 (execLockstepStart port a s) := by
  unfold execLockstepStart; try dsimp only
  repeat' first | with_reducible assumption | with_reducible apply kept_cmdRun | with_reducible apply kept_cmdLockstepStart
                | with_reducible apply KeptOut.next

theorem kept_execLockstepStop {z0 s : State} (hk : Kept z0 s) (_port : Fin 2) : KeptOut z0 (execLockstepStop _port s) := by
  unfold execLockstepStop; try dsimp only
  repeat' first | with_reducible assumption | with_reducible apply kept_cmdRun | with_reducible apply kept_cmdLockstepStop
                | with_reducible apply KeptOut.next

theorem kept_execPartitionOffDrained {z0 s : State} (hk : Kept z0 s) (part : Fin 8) :
    KeptOut z0 (execPartitionOffDrained part s) := by
  unfold execPartitionOffDrained; try dsimp only
  repeat' first | with_reducible assumption | with_reducible apply kept_whileKiln | with_reducible apply kept_partDrained
                | with_reducible apply KeptOut.next

theorem kept_bulkOn {z0 s : State} (hk : Kept z0 s) (l : Nat) (cls : PClass) (h : PktHdr) (words : List (List Byte)) :
    Kept z0 (bulkOn s l cls h words) := by
  unfold bulkOn; try dsimp only
  repeat' first | with_reducible assumption | with_reducible apply kept_takeRx | with_reducible apply kept_receiveBulk | split

theorem kept_execWrite {z0 s : State} (hk : Kept z0 s) (l : Fin 96) (h : PktHdr) (words : List (List Byte)) :
    KeptOut z0 (execWrite l h words s) := by
  unfold execWrite; try dsimp only
  repeat' first | with_reducible assumption | with_reducible apply kept_bulkOn | with_reducible apply KeptOut.next

theorem kept_execGather {z0 s : State} (hk : Kept z0 s) (l : Fin 96) (h : PktHdr) (words : List (List Byte)) :
    KeptOut z0 (execGather l h words s) := by
  unfold execGather; try dsimp only
  repeat' first | with_reducible assumption | with_reducible apply kept_bulkOn | with_reducible apply KeptOut.next

theorem kept_execContrib {z0 s : State} (hk : Kept z0 s) (l : Fin 96) (h : PktHdr) (words : List (List Byte)) :
    KeptOut z0 (execContrib l h words s) := by
  unfold execContrib; try dsimp only
  repeat' first | with_reducible assumption | with_reducible apply kept_bulkOn | with_reducible apply KeptOut.next

theorem kept_execPartialSum {z0 s : State} (hk : Kept z0 s) (l : Fin 96) (h : PktHdr) (words : List (List Byte)) :
    KeptOut z0 (execPartialSum l h words s) := by
  unfold execPartialSum; try dsimp only
  repeat' first | with_reducible assumption | with_reducible apply kept_bulkOn | with_reducible apply KeptOut.next

theorem kept_execRedSlotStall {z0 s : State} (hk : Kept z0 s) (k : Fin 24) (slot : Fin 128) :
    KeptOut z0 (execRedSlotStall k slot s) := by
  unfold execRedSlotStall; try dsimp only
  repeat' first | with_reducible assumption | with_reducible apply kept_notePart | with_reducible apply kept_updFab | split
                | (with_reducible refine Kept.mk0 ?_) | with_reducible apply KeptOut.next

theorem kept_takeRxCompl {z0 s : State} (hk : Kept z0 s) (x : Compl) : Kept z0 (takeRxCompl s x) := by
  unfold takeRxCompl; try dsimp only
  repeat' first | with_reducible assumption | with_reducible apply kept_updLink | split

theorem kept_execCompl {z0 s : State} (hk : Kept z0 s) (x : Compl) : KeptOut z0 (execCompl x s) := by
  unfold execCompl; try dsimp only
  repeat' first | with_reducible assumption | with_reducible apply kept_takeRxCompl | with_reducible apply kept_takeCompl
                | with_reducible apply kept_sendCtl | split | with_reducible apply KeptOut.next

theorem kept_execPacketRetry {z0 s : State} (hk : Kept z0 s) (i : Nat) (expired : Bool) :
    KeptOut z0 (execPacketRetry i expired s) := by
  unfold execPacketRetry; try dsimp only
  repeat' first | with_reducible assumption | with_reducible apply kept_packetDone | with_reducible apply kept_injectBulk
                | with_reducible apply kept_updFab | split | (with_reducible refine Kept.mk0 ?_)
                | with_reducible apply KeptOut.next | with_reducible apply KeptOut.refused

theorem kept_execLinkstate {z0 s : State} (hk : Kept z0 s) (l : Fin 96) (dst : BitVec 16) (src : BitVec 16) (dim : Fin 3)
    (m : LineMask) :
    KeptOut z0 (execLinkstate l dst src dim m s) := by
  unfold execLinkstate; try dsimp only
  repeat' first | with_reducible assumption | with_reducible apply kept_takeRx | with_reducible apply kept_updFab
                | with_reducible apply kept_sendCtl | split | (with_reducible refine Kept.mk0 ?_)
                | with_reducible apply KeptOut.next

theorem kept_execLinkstateTimer {z0 s : State} (hk : Kept z0 s) : KeptOut z0 (execLinkstateTimer s) := by
  unfold execLinkstateTimer; try dsimp only
  repeat' first | with_reducible assumption | with_reducible apply kept_sendLine | (with_reducible refine Kept.foldl _ _ ?_ ?_)
                | (intro _ _ _; try dsimp only) | with_reducible apply KeptOut.next

theorem kept_execTimeExchange {z0 s : State} (hk : Kept z0 s) (root : BitVec 16) : KeptOut z0 (execTimeExchange root s) := by
  unfold execTimeExchange; try dsimp only
  repeat' first | with_reducible assumption | with_reducible apply kept_sendCtl | with_reducible apply kept_updFab | split
                | (with_reducible refine Kept.mk0 ?_) | with_reducible apply KeptOut.next

theorem kept_timeAnswer {z0 s : State} (hk : Kept z0 s) (l : Nat) (x : TimeStamps) : Kept z0 (timeAnswer s l x) := by
  unfold timeAnswer; try dsimp only
  repeat' first | with_reducible assumption | with_reducible apply kept_updFab | split | (with_reducible refine Kept.mk0 ?_)

theorem kept_execTime {z0 s : State} (hk : Kept z0 s) (l : Fin 96) (dst : BitVec 16) (src : BitVec 16) (stamps : TimeStamps) :
    KeptOut z0 (execTime l dst src stamps s) := by
  unfold execTime; try dsimp only
  repeat' first | with_reducible assumption | with_reducible apply kept_takeRx | with_reducible apply kept_sendCtl
                | with_reducible apply kept_timeAnswer | split | with_reducible apply KeptOut.next

theorem kept_execFtimeSyncLost {z0 s : State} (hk : Kept z0 s) : KeptOut z0 (execFtimeSyncLost s) := by
  unfold execFtimeSyncLost; try dsimp only
  repeat' first | with_reducible assumption | with_reducible apply kept_updFab | split | (with_reducible refine Kept.mk0 ?_)
                | with_reducible apply KeptOut.next

theorem kept_logSwap {z0 s : State} (hk : Kept z0 s) (s0 : State) (b laser : Nat) (wear : Bool) :
    Kept z0 (logSwap s0 s b laser wear) := by
  unfold logSwap; try dsimp only
  repeat' first | with_reducible assumption | with_reducible apply kept_logOnly | split

theorem kept_execLaserFail {z0 s : State} (hk : Kept z0 s) (b : Fin 6) (laser : Fin 20) (wear : Bool) :
    KeptOut z0 (execLaserFail b laser wear s) := by
  unfold execLaserFail; try dsimp only
  repeat' first | with_reducible assumption | with_reducible apply kept_logSwap | with_reducible apply kept_linksStep
                | with_reducible apply KeptOut.next

theorem kept_execSpareLaserStable {z0 s : State} (hk : Kept z0 s) (b : Fin 6) (w : Fin 4) :
    KeptOut z0 (execSpareLaserStable b w s) := by
  unfold execSpareLaserStable; try dsimp only
  repeat' first | with_reducible assumption | with_reducible apply kept_updLinks | split | with_reducible apply KeptOut.next

theorem kept_execResyncDone {z0 s : State} (hk : Kept z0 s) (l : Fin 96) : KeptOut z0 (execResyncDone l s) := by
  unfold execResyncDone; try dsimp only
  repeat' first | with_reducible assumption | with_reducible apply kept_linkStep | split | (with_reducible refine Kept.mk0 ?_)
                | with_reducible apply KeptOut.next

theorem kept_execLossOfSignal {z0 s : State} (hk : Kept z0 s) (l : Fin 96) : KeptOut z0 (execLossOfSignal l s) := by
  unfold execLossOfSignal; try dsimp only
  repeat' first | with_reducible assumption | with_reducible apply kept_linkStep | with_reducible apply KeptOut.next

theorem kept_execLaneSyncRegained {z0 s : State} (hk : Kept z0 s) (l : Fin 96) : KeptOut z0 (execLaneSyncRegained l s) := by
  unfold execLaneSyncRegained; try dsimp only
  repeat' first | with_reducible assumption | with_reducible apply kept_linkStep | (with_reducible refine Kept.mk0 ?_)
                | with_reducible apply KeptOut.next

theorem kept_execPausedTimeout {z0 s : State} (hk : Kept z0 s) (l : Fin 96) : KeptOut z0 (execPausedTimeout l s) := by
  unfold execPausedTimeout; try dsimp only
  repeat' first | with_reducible assumption | with_reducible apply kept_linkStep | split | with_reducible apply KeptOut.next

theorem kept_execBladeDrawn {z0 s : State} (hk : Kept z0 s) (b : Fin 6) : KeptOut z0 (execBladeDrawn b s) := by
  unfold execBladeDrawn; try dsimp only
  repeat' first | with_reducible assumption | with_reducible apply kept_linksStep | with_reducible apply KeptOut.next

theorem kept_execBladeInserted {z0 s : State} (hk : Kept z0 s) (b : Fin 6) : KeptOut z0 (execBladeInserted b s) := by
  unfold execBladeInserted; try dsimp only
  repeat' first | with_reducible assumption | with_reducible apply kept_linksStep | with_reducible apply KeptOut.next

theorem kept_execBladeSeatTimeout {z0 s : State} (hk : Kept z0 s) (b : Fin 6) : KeptOut z0 (execBladeSeatTimeout b s) := by
  unfold execBladeSeatTimeout; try dsimp only
  repeat' first | with_reducible assumption | with_reducible apply kept_updLinks | split | (with_reducible refine Kept.mk0 ?_)
                | with_reducible apply KeptOut.next

theorem kept_execLinkFlitReceive {z0 s : State} (hk : Kept z0 s) (l : Fin 96) (x : LineRead) :
    KeptOut z0 (execLinkFlitReceive l x s) := by
  unfold execLinkFlitReceive; try dsimp only
  repeat' first | with_reducible assumption | with_reducible apply kept_linkStep | with_reducible apply kept_crossFlit | split
                | with_reducible apply KeptOut.next

theorem kept_execAckTimeout {z0 s : State} (hk : Kept z0 s) (l : Fin 96) (vc : Fin 3) : KeptOut z0 (execAckTimeout l vc s) := by
  unfold execAckTimeout; try dsimp only
  repeat' first | with_reducible assumption | with_reducible apply kept_linkStep | with_reducible apply KeptOut.next

theorem kept_execLinkErrorRate {z0 s : State} (hk : Kept z0 s) (l : Fin 96) : KeptOut z0 (execLinkErrorRate l s) := by
  unfold execLinkErrorRate; try dsimp only
  repeat' first | with_reducible assumption | with_reducible apply kept_linkStep | split | with_reducible apply KeptOut.next

theorem kept_execLaneSyncLost {z0 s : State} (hk : Kept z0 s) (l : Fin 96) : KeptOut z0 (execLaneSyncLost l s) := by
  unfold execLaneSyncLost; try dsimp only
  repeat' first | with_reducible assumption | with_reducible apply kept_linkStep | split | with_reducible apply KeptOut.next

theorem kept_execLinkTrain {z0 s : State} (hk : Kept z0 s) (l : Fin 96) : KeptOut z0 (execLinkTrain l s) := by
  unfold execLinkTrain; try dsimp only
  repeat' first | with_reducible assumption | with_reducible apply kept_linkStep | split | with_reducible apply KeptOut.next

theorem kept_execTrainingComplete {z0 s : State} (hk : Kept z0 s) (l : Fin 96) (ok : Bool) (rtt : Nat) :
    KeptOut z0 (execTrainingComplete l ok rtt s) := by
  unfold execTrainingComplete; try dsimp only
  repeat' first | with_reducible assumption | with_reducible apply kept_linkStep | split | with_reducible apply KeptOut.next

theorem kept_execFenceExpiry {z0 s : State} (hk : Kept z0 s) (l : Fin 96) : KeptOut z0 (execFenceExpiry l s) := by
  unfold execFenceExpiry; try dsimp only
  repeat' first | with_reducible assumption | with_reducible apply kept_linkStep | with_reducible apply KeptOut.next

theorem kept_execLinkLeaveUp {z0 s : State} (hk : Kept z0 s) (l : Fin 96) : KeptOut z0 (execLinkLeaveUp l s) := by
  unfold execLinkLeaveUp; try dsimp only
  repeat' first | with_reducible assumption | with_reducible apply kept_linkStep | split | with_reducible apply KeptOut.next

theorem kept_execRetryBufferExpiry {z0 s : State} (hk : Kept z0 s) (l : Fin 96) : KeptOut z0 (execRetryBufferExpiry l s) := by
  unfold execRetryBufferExpiry; try dsimp only
  repeat' first | with_reducible assumption | with_reducible apply kept_dropBuffer | split | with_reducible apply KeptOut.next

theorem kept_execIdent {z0 s : State} (hk : Kept z0 s) (l : Fin 96) (rec : IdentRec) : KeptOut z0 (execIdent l rec s) := by
  unfold execIdent; try dsimp only
  repeat' first | with_reducible assumption | with_reducible apply kept_takeRx | with_reducible apply kept_takeIdent | split
                | with_reducible apply KeptOut.next

theorem kept_execFence {z0 s : State} (hk : Kept z0 s) (l : Fin 96) (secs : Fin 601) : KeptOut z0 (execFence l secs s) := by
  unfold execFence; try dsimp only
  repeat' first | with_reducible assumption | with_reducible apply kept_linkStep | with_reducible apply kept_takeRx | split
                | with_reducible apply KeptOut.next

theorem kept_noteStamp {z0 s : State} (hk : Kept z0 s) (l : Nat) : Kept z0 (noteStamp s l) := by
  unfold noteStamp; try dsimp only
  repeat' first | with_reducible assumption | with_reducible apply kept_updFab | split | (with_reducible refine Kept.mk0 ?_)

theorem kept_execFlitBoundary {z0 s : State} (hk : Kept z0 s) (l : Fin 96) : KeptOut z0 (execFlitBoundary l s) := by
  unfold execFlitBoundary; try dsimp only
  repeat' first | with_reducible assumption | with_reducible apply kept_noteStamp | with_reducible apply kept_updLink | split
                | with_reducible apply KeptOut.next

theorem kept_execIdentRecordSend {z0 s : State} (hk : Kept z0 s) (l : Fin 96) : KeptOut z0 (execIdentRecordSend l s) := by
  unfold execIdentRecordSend; try dsimp only
  repeat' first | with_reducible assumption | with_reducible apply kept_updLink | split | with_reducible apply KeptOut.next

theorem kept_execPeerLost {z0 s : State} (hk : Kept z0 s) (l : Fin 96) : KeptOut z0 (execPeerLost l s) := by
  unfold execPeerLost; try dsimp only
  repeat' first | with_reducible assumption | with_reducible apply kept_whileKiln | with_reducible apply kept_postAll | split
                | with_reducible apply KeptOut.next

theorem kept_cmdResetPart {z0 s : State} (hk : Kept z0 s) (p level target : Nat) (selftest : Bool) :
    Kept z0 (cmdResetPart s p level target selftest).st := by
  unfold cmdResetPart; try dsimp only
  repeat' first | with_reducible assumption | with_reducible apply kept_cmdAdmit | with_reducible apply kept_cmdCheck
                | with_reducible apply kept_cmdDone | with_reducible apply kept_openReset | split

theorem kept_cmdResetAll {z0 s : State} (hk : Kept z0 s) (p level selftest : Nat) :
    Kept z0 (cmdResetAll s p level selftest).st := by
  unfold cmdResetAll; try dsimp only
  repeat' first | with_reducible assumption | with_reducible apply kept_cmdAdmit | with_reducible apply kept_cmdCheck
                | with_reducible apply kept_cmdDone | with_reducible apply kept_openReset

theorem kept_resetSteps {z0 s : State} (hk : Kept z0 s) (ps : List Nat) : Kept z0 (resetSteps s ps) := by
  unfold resetSteps; try dsimp only
  repeat' first | with_reducible assumption | with_reducible apply kept_finishStep | (with_reducible refine Kept.foldl _ _ ?_ ?_)
                | (intro _ _ _; try dsimp only) | split

theorem kept_resetSlots {z0 s : State} (hk : Kept z0 s) (ps : List Nat) : Kept z0 (resetSlots s ps) := by
  unfold resetSlots; try dsimp only
  repeat' first | with_reducible assumption | with_reducible apply kept_updFab | (with_reducible refine Kept.mk0 ?_)

theorem kept_resetCompute {z0 s : State} (hk : Kept z0 s) (ts ps : List Nat) : Kept z0 (resetCompute s ts ps) := by
  unfold resetCompute; try dsimp only
  repeat' first | with_reducible assumption | with_reducible apply kept_zeroTile | with_reducible apply kept_setPart
                | (with_reducible refine Kept.foldl _ _ ?_ ?_) | (intro _ _ _; try dsimp only)
                | (with_reducible refine Kept.mk0 ?_)

theorem kept_resetKiln {z0 s : State} (hk : Kept z0 s) : Kept z0 (resetKiln s) := by
  unfold resetKiln; try dsimp only
  repeat' first | with_reducible assumption | with_reducible apply kept_endLock | split | (with_reducible refine Kept.mk0 ?_)

theorem kept_resetDevice {z0 s : State} (hk : Kept z0 s) : Kept z0 (resetDevice s) := by
  unfold resetDevice; try dsimp only
  repeat' first | with_reducible assumption | with_reducible apply kept_tearDown | with_reducible apply kept_unmapPage
                | with_reducible apply kept_updFab | (with_reducible refine Kept.foldl _ _ ?_ ?_) | (intro _ _ _; try dsimp only)
                | (with_reducible refine Kept.mk0 ?_)

theorem kept_selfTest {z0 s : State} (hk : Kept z0 s) (j : ResetJob) (found : List Defect) : Kept z0 (selfTest s j found) := by
  unfold selfTest; try dsimp only
  repeat' first | with_reducible assumption | with_reducible apply kept_recordFindings | split

theorem kept_resetEffect {z0 s : State} (hk : Kept z0 s) (j : ResetJob) (found : List Defect) :
    Kept z0 (resetEffect s j found) := by
  unfold resetEffect; try dsimp only
  repeat' first | with_reducible assumption | with_reducible apply kept_resetSlots | with_reducible apply kept_writeDefects
                | with_reducible apply kept_resetSteps | with_reducible apply kept_resetTile | with_reducible apply kept_applyMap
                | with_reducible apply kept_selfTest | with_reducible apply kept_resetKiln
                | with_reducible apply kept_resetCompute | with_reducible apply kept_resetDevice
                | (with_reducible refine Kept.foldl _ _ ?_ ?_) | (intro _ _ _; try dsimp only) | split

theorem kept_resetEnd {z0 s : State} (hk : Kept z0 s) (j : ResetJob) : Kept z0 (resetEnd s j) := by
  unfold resetEnd; try dsimp only
  repeat' first | with_reducible assumption | with_reducible apply kept_postEvent | with_reducible apply kept_postAll | split
                | (with_reducible refine Kept.mk0 ?_) | (with_reducible refine Kept.mkFlash ?_ ?_)
                | (with_reducible refine Kept.mkBoth ?_ (fun w => ?_) ?_) | with_reducible apply FlashKept.refl
                | with_reducible apply flashKept_addDefects | with_reducible apply flashKept_putField
                | with_reducible apply flashKept_putRetired | with_reducible apply flashKept_putUpd
                | with_reducible apply flashKept_putSaved | with_reducible apply flashKept_chooseImage
                | exact FlashKept.mk rfl rfl rfl rfl rfl rfl (Nat.le_refl _) (fun _ x => x)
                | exact FlashKept.mk rfl rfl rfl rfl rfl rfl (by simp) (fun _ x => by simp [x])

theorem kept_resetApply {z0 s : State} (hk : Kept z0 s) (found : List Defect) : Kept z0 (resetApply s found) := by
  unfold resetApply; try dsimp only
  repeat' first | with_reducible assumption | with_reducible apply kept_resetEnd | with_reducible apply kept_resetEffect | split

theorem kept_resetCancel {z0 s : State} (hk : Kept z0 s) : Kept z0 (resetCancel s) := by
  unfold resetCancel; try dsimp only
  repeat' first | with_reducible assumption | with_reducible apply kept_cancelTiles | with_reducible apply kept_cancelPart
                | (with_reducible refine Kept.foldl _ _ ?_ ?_) | (intro _ _ _; try dsimp only) | split

theorem kept_execTileReset {z0 s : State} (hk : Kept z0 s) (port : Fin 2) (target : BitVec 16) :
    KeptOut z0 (execTileReset port target s) := by
  unfold execTileReset; try dsimp only
  repeat' first | with_reducible assumption | with_reducible apply kept_cmdRun | with_reducible apply kept_cmdResetPart
                | with_reducible apply KeptOut.next

theorem kept_execClusterReset {z0 s : State} (hk : Kept z0 s) (port : Fin 2) (target : BitVec 16) :
    KeptOut z0 (execClusterReset port target s) := by
  unfold execClusterReset; try dsimp only
  repeat' first | with_reducible assumption | with_reducible apply kept_cmdRun | with_reducible apply kept_cmdResetPart
                | with_reducible apply KeptOut.next

theorem kept_execPartitionReset {z0 s : State} (hk : Kept z0 s) (port : Fin 2) (target : BitVec 16) :
    KeptOut z0 (execPartitionReset port target s) := by
  unfold execPartitionReset; try dsimp only
  repeat' first | with_reducible assumption | with_reducible apply kept_cmdRun | with_reducible apply kept_cmdResetPart
                | with_reducible apply KeptOut.next

theorem kept_execComputeReset {z0 s : State} (hk : Kept z0 s) (port : Fin 2) (selftest : Byte) :
    KeptOut z0 (execComputeReset port selftest s) := by
  unfold execComputeReset; try dsimp only
  repeat' first | with_reducible assumption | with_reducible apply kept_cmdRun | with_reducible apply kept_cmdResetAll
                | with_reducible apply KeptOut.next

theorem kept_execDeviceReset {z0 s : State} (hk : Kept z0 s) (port : Fin 2) (selftest : Byte) :
    KeptOut z0 (execDeviceReset port selftest s) := by
  unfold execDeviceReset; try dsimp only
  repeat' first | with_reducible assumption | with_reducible apply kept_cmdRun | with_reducible apply kept_cmdResetAll
                | with_reducible apply KeptOut.next

theorem kept_execResetApply {z0 s : State} (hk : Kept z0 s) (found : List Defect) : KeptOut z0 (execResetApply found s) := by
  unfold execResetApply; try dsimp only
  repeat' first | with_reducible assumption | with_reducible apply kept_whileKiln | with_reducible apply kept_resetApply
                | with_reducible apply KeptOut.next

theorem kept_execResetMoverCancel {z0 s : State} (hk : Kept z0 s) : KeptOut z0 (execResetMoverCancel s) := by
  unfold execResetMoverCancel; try dsimp only
  repeat' first | with_reducible assumption | with_reducible apply kept_whileKiln | with_reducible apply kept_resetCancel
                | with_reducible apply KeptOut.next

theorem kept_cmdPartPower {z0 s : State} (hk : Kept z0 s) (p n on : Nat) : Kept z0 (cmdPartPower s p n on).st := by
  unfold cmdPartPower; try dsimp only
  repeat' first | with_reducible assumption | with_reducible apply kept_cmdPartPowerOff | with_reducible apply kept_cmdPartPowerOn
                | with_reducible apply kept_cmdAdmit | with_reducible apply kept_cmdCheck | with_reducible apply kept_cmdRefuse
                | split

theorem kept_cmdLinkCtrl {z0 s : State} (hk : Kept z0 s) (l on : Nat) : Kept z0 (cmdLinkCtrl s l on).st := by
  unfold cmdLinkCtrl; try dsimp only
  repeat' first | with_reducible assumption | with_reducible apply kept_cmdLinkDisable | with_reducible apply kept_cmdLinkEnable
                | with_reducible apply kept_cmdAdmit | with_reducible apply kept_cmdRefuse | split

theorem kept_cmdReset {z0 s : State} (hk : Kept z0 s) (p level target selftest : Nat) :
    Kept z0 (cmdReset s p level target selftest).st := by
  unfold cmdReset; try dsimp only
  repeat' first | with_reducible assumption | with_reducible apply kept_cmdAdmit | with_reducible apply kept_cmdRefuse
                | with_reducible apply kept_cmdResetAll | with_reducible apply kept_cmdResetPart | split

theorem kept_cmdExec {z0 s : State} (hk : Kept z0 s) (p : Nat) (theirs : LockSide) (b : List Byte) :
    Kept z0 (cmdExec s p theirs b).st := by
  unfold cmdExec; try dsimp only
  repeat' first | with_reducible assumption | with_reducible apply kept_cmdInfo | with_reducible apply kept_cmdTimeSet
                | with_reducible apply kept_cmdRestart | with_reducible apply kept_cmdFullStart
                | with_reducible apply kept_cmdDefectRead | with_reducible apply kept_cmdActivate
                | with_reducible apply kept_cmdActivateCancel | with_reducible apply kept_cmdAttach
                | with_reducible apply kept_cmdDetach | with_reducible apply kept_cmdBar2Window
                | with_reducible apply kept_cmdTraceConfig | with_reducible apply kept_cmdPartConfig
                | with_reducible apply kept_cmdPartPower | with_reducible apply kept_cmdPowerPolicy
                | with_reducible apply kept_cmdReset | with_reducible apply kept_cmdCtxCreate
                | with_reducible apply kept_cmdCtxPause | with_reducible apply kept_cmdCtxResume
                | with_reducible apply kept_cmdCtxDestroy | with_reducible apply kept_cmdCtxRestore
                | with_reducible apply kept_cmdTmapMap | with_reducible apply kept_cmdTmapUnmap
                | with_reducible apply kept_cmdTmapRead | with_reducible apply kept_cmdFabricAssign
                | with_reducible apply kept_cmdLinkCtrl | with_reducible apply kept_cmdBladeRelease
                | with_reducible apply kept_cmdFailureRate | with_reducible apply kept_cmdCordSetup
                | with_reducible apply kept_cmdCordRead | with_reducible apply kept_cmdRankReplace
                | with_reducible apply kept_cmdEmberSetup | with_reducible apply kept_cmdDigestSetup
                | with_reducible apply kept_cmdRefillDone | with_reducible apply kept_cmdForceCopy
                | with_reducible apply kept_cmdLockstepStart | with_reducible apply kept_cmdLockstepStop
                | with_reducible apply kept_cmdRefuse | split

theorem kept_cmdServe {z0 s : State} (hk : Kept z0 s) (p : Nat) (theirs : LockSide) (early : Bool) (b : List Byte) :
    Kept z0 (cmdServe s p theirs early b).st := by
  unfold cmdServe; try dsimp only
  repeat' first | with_reducible assumption | with_reducible apply kept_cmdRefuse | with_reducible apply kept_cmdAdmit
                | with_reducible apply kept_cmdExec | split

theorem kept_cmdRespond {z0 s : State} (hk : Kept z0 s) (p m : Nat) (b : List Byte) (k : CmdOut) (hkk : Kept z0 k.st) :
    Kept z0 (cmdRespond s p m b k) := by
  unfold cmdRespond; try dsimp only
  repeat' first | with_reducible assumption | with_reducible apply kept_drawFree | with_reducible apply kept_updHost
                | with_reducible apply kept_trace | with_reducible apply kept_raiseVec | split
                | (with_reducible refine Kept.mk0 ?_)

theorem kept_takeCmd {z0 s : State} (hk : Kept z0 s) (p m : Nat) (theirs : LockSide) : Kept z0 (takeCmd s p m theirs) := by
  unfold takeCmd; try dsimp only
  repeat' first | with_reducible assumption | with_reducible apply kept_trace | with_reducible apply kept_cmdServe
                | with_reducible apply kept_cmdRespond | split | (with_reducible refine Kept.mk0 ?_)

theorem kept_takeUpTo (n : Nat) : ∀ {z0 s : State} (hk : Kept z0 s) (theirs : LockSide) (i : Nat), Kept z0 (takeUpTo s theirs i n) := by
  induction n with
  | zero => intro z0 s hk theirs i; exact hk
  | succ n ih =>
    intro z0 s hk theirs i
    unfold takeUpTo; split
    · exact hk
    · dsimp only
      split
      · exact kept_takeCmd hk _ _ _
      · exact ih (kept_takeCmd hk _ _ _) _ _

theorem kept_execCommandTake {z0 s : State} (hk : Kept z0 s) (port : Fin 2) (m : Fin 16) (theirs : LockSide) :
    KeptOut z0 (execCommandTake port m theirs s) := by
  unfold execCommandTake; try dsimp only
  repeat' first | with_reducible assumption | with_reducible apply kept_takeUpTo | split | with_reducible apply KeptOut.next

theorem kept_execDroop {z0 s : State} (hk : Kept z0 s) (t : Fin 2048) (low : Bool) : KeptOut z0 (execDroop t low s) := by
  unfold execDroop; try dsimp only
  repeat' first | with_reducible assumption | with_reducible apply kept_updTile | (with_reducible refine Kept.mk0 ?_)
                | with_reducible apply KeptOut.next

theorem kept_execRegionMonitorTick {z0 s : State} (hk : Kept z0 s) (n : Fin 128) (warn : Bool) :
    KeptOut z0 (execRegionMonitorTick n warn s) := by
  unfold execRegionMonitorTick; try dsimp only
  repeat' first | with_reducible assumption | with_reducible apply kept_updPwr | split | with_reducible apply KeptOut.next

theorem kept_execOscRecalibration {z0 s : State} (hk : Kept z0 s) (n : Fin 128) : KeptOut z0 (execOscRecalibration n s) := by
  unfold execOscRecalibration; try dsimp only
  repeat' first | with_reducible assumption | with_reducible apply kept_updPwr | split | (with_reducible refine Kept.mk0 ?_)
                | with_reducible apply KeptOut.next

theorem kept_execStandbyQualifierStart {z0 s : State} (hk : Kept z0 s) (mv : Nat) :
    KeptOut z0 (execStandbyQualifierStart mv s) := by
  unfold execStandbyQualifierStart; try dsimp only
  repeat' first | with_reducible assumption | split | (with_reducible refine Kept.mk0 ?_) | with_reducible apply KeptOut.next

theorem kept_execPwrEnAssert {z0 s : State} (hk : Kept z0 s) : KeptOut z0 (execPwrEnAssert s) := by
  unfold execPwrEnAssert; try dsimp only
  repeat' first | with_reducible assumption | with_reducible apply kept_updPwr | with_reducible apply kept_logFree | split
                | (with_reducible refine Kept.mk0 ?_) | with_reducible apply KeptOut.next

theorem kept_execPowerUp {z0 s : State} (hk : Kept z0 s) (straps : Fin 4) : KeptOut z0 (execPowerUp straps s) := by
  unfold execPowerUp; try dsimp only
  repeat' first | with_reducible assumption | with_reducible apply kept_updPwr | with_reducible apply kept_setReport
                | (with_reducible refine Kept.foldl _ _ ?_ ?_) | (intro _ _ _; try dsimp only) | split
                | (with_reducible refine Kept.mk0 ?_) | with_reducible apply KeptOut.next

theorem kept_ledOff {z0 s : State} (hk : Kept z0 s) : Kept z0 (ledOff s) := by
  unfold ledOff; try dsimp only
  repeat' first | with_reducible assumption | (with_reducible refine Kept.mk0 ?_)

theorem kept_execPwrEnDeassert {z0 s : State} (hk : Kept z0 s) : KeptOut z0 (execPwrEnDeassert s) := by
  unfold execPwrEnDeassert; try dsimp only
  repeat' first | with_reducible assumption | with_reducible apply kept_updPwr | with_reducible apply kept_ledOff
                | with_reducible apply kept_endCtx | (with_reducible refine Kept.foldl _ _ ?_ ?_) | (intro _ _ _; try dsimp only)
                | split | (with_reducible refine Kept.mk0 ?_) | with_reducible apply KeptOut.next

theorem kept_execPowerDown {z0 s : State} (hk : Kept z0 s) : KeptOut z0 (execPowerDown s) := by
  unfold execPowerDown; try dsimp only
  repeat' first | with_reducible assumption | with_reducible apply kept_powerDownIf | with_reducible apply KeptOut.next

theorem kept_execForceOff {z0 s : State} (hk : Kept z0 s) : KeptOut z0 (execForceOff s) := by
  unfold execForceOff; try dsimp only
  repeat' first | with_reducible assumption | with_reducible apply kept_powerDownIf | with_reducible apply kept_updPwr | split
                | (with_reducible refine Kept.mk0 ?_) | with_reducible apply KeptOut.next

theorem kept_execForceOffDeassert {z0 s : State} (hk : Kept z0 s) : KeptOut z0 (execForceOffDeassert s) := by
  unfold execForceOffDeassert; try dsimp only
  repeat' first | with_reducible assumption | with_reducible apply kept_updPwr | (with_reducible refine Kept.mk0 ?_)
                | with_reducible apply KeptOut.next

theorem kept_execVinFault {z0 s : State} (hk : Kept z0 s) (mv : Nat) : KeptOut z0 (execVinFault mv s) := by
  unfold execVinFault; try dsimp only
  repeat' first | with_reducible assumption | with_reducible apply kept_powerDownIf | with_reducible apply kept_updPwr
                | with_reducible apply kept_ledOff | split | (with_reducible refine Kept.mk0 ?_)
                | with_reducible apply KeptOut.next

theorem kept_execVinOutOfRange {z0 s : State} (hk : Kept z0 s) (mv : Nat) : KeptOut z0 (execVinOutOfRange mv s) := by
  unfold execVinOutOfRange; try dsimp only
  repeat' first | with_reducible assumption | with_reducible apply kept_updPwr | split | (with_reducible refine Kept.mk0 ?_)
                | with_reducible apply KeptOut.next

theorem kept_execVinInRange {z0 s : State} (hk : Kept z0 s) (mv : Nat) : KeptOut z0 (execVinInRange mv s) := by
  unfold execVinInRange; try dsimp only
  repeat' first | with_reducible assumption | with_reducible apply kept_updPwr | split | (with_reducible refine Kept.mk0 ?_)
                | with_reducible apply KeptOut.next

theorem kept_execCurrentLimitAssert {z0 s : State} (hk : Kept z0 s) (w : LimSrc) : KeptOut z0 (execCurrentLimitAssert w s) := by
  unfold execCurrentLimitAssert; try dsimp only
  repeat' first | with_reducible assumption | with_reducible apply kept_updPwr | with_reducible apply kept_checkField | split
                | (with_reducible refine Kept.mk0 ?_) | with_reducible apply KeptOut.next

theorem kept_execCurrentLimitRelease {z0 s : State} (hk : Kept z0 s) (w : LimSrc) : KeptOut z0 (execCurrentLimitRelease w s) := by
  unfold execCurrentLimitRelease; try dsimp only
  repeat' first | with_reducible assumption | with_reducible apply kept_updPwr | split | (with_reducible refine Kept.mk0 ?_)
                | with_reducible apply KeptOut.next

theorem kept_execFieldLimitPersist {z0 s : State} (hk : Kept z0 s) (n : Fin 8) : KeptOut z0 (execFieldLimitPersist n s) := by
  unfold execFieldLimitPersist; try dsimp only
  repeat' first | with_reducible assumption | with_reducible apply kept_updPwr | split | (with_reducible refine Kept.mk0 ?_)
                | with_reducible apply KeptOut.next

theorem kept_execConverterFail {z0 s : State} (hk : Kept z0 s) : KeptOut z0 (execConverterFail s) := by
  unfold execConverterFail; try dsimp only
  repeat' first | with_reducible assumption | with_reducible apply kept_loseConverter | split | with_reducible apply KeptOut.next

theorem kept_execPhaseFault {z0 s : State} (hk : Kept z0 s) (n : Fin 8) (bank : Fin 4) :
    KeptOut z0 (execPhaseFault n bank s) := by
  unfold execPhaseFault; try dsimp only
  repeat' first | with_reducible assumption | with_reducible apply kept_checkField | with_reducible apply kept_logOnly
                | with_reducible apply kept_updPwr | with_reducible apply KeptOut.next

theorem kept_execChargeInjectorConnect {z0 s : State} (hk : Kept z0 s) (n : Fin 128) :
    KeptOut z0 (execChargeInjectorConnect n s) := by
  unfold execChargeInjectorConnect; try dsimp only
  repeat' first | with_reducible assumption | with_reducible apply kept_updPwr | split | (with_reducible refine Kept.mk0 ?_)
                | with_reducible apply KeptOut.next

theorem kept_execChargeInjectorDisconnect {z0 s : State} (hk : Kept z0 s) (n : Fin 128) :
    KeptOut z0 (execChargeInjectorDisconnect n s) := by
  unfold execChargeInjectorDisconnect; try dsimp only
  repeat' first | with_reducible assumption | with_reducible apply kept_updPwr | split | (with_reducible refine Kept.mk0 ?_)
                | with_reducible apply KeptOut.next

theorem kept_execShuntClampEngage {z0 s : State} (hk : Kept z0 s) (n : Fin 128) : KeptOut z0 (execShuntClampEngage n s) := by
  unfold execShuntClampEngage; try dsimp only
  repeat' first | with_reducible assumption | with_reducible apply kept_updPwr | split | (with_reducible refine Kept.mk0 ?_)
                | with_reducible apply KeptOut.next

theorem kept_execShuntClampRelease {z0 s : State} (hk : Kept z0 s) (n : Fin 128) : KeptOut z0 (execShuntClampRelease n s) := by
  unfold execShuntClampRelease; try dsimp only
  repeat' first | with_reducible assumption | with_reducible apply kept_updPwr | (with_reducible refine Kept.mk0 ?_)
                | with_reducible apply KeptOut.next

theorem kept_execCapLoopTick {z0 s : State} (hk : Kept z0 s) (watts : Nat) : KeptOut z0 (execCapLoopTick watts s) := by
  unfold execCapLoopTick; try dsimp only
  repeat' first | with_reducible assumption | with_reducible apply kept_capActs | with_reducible apply kept_updPwr
                | with_reducible apply kept_trace | with_reducible apply kept_postAll | split | with_reducible apply KeptOut.next

theorem kept_execEnergyMeterTick {z0 s : State} (hk : Kept z0 s) (x : MeterRead) : KeptOut z0 (execEnergyMeterTick x s) := by
  unfold execEnergyMeterTick; try dsimp only
  repeat' first | with_reducible assumption | with_reducible apply kept_updPwr | (with_reducible refine Kept.foldl _ _ ?_ ?_)
                | (intro _ _ _; try dsimp only) | (with_reducible refine Kept.mk0 ?_) | with_reducible apply KeptOut.next

theorem kept_execThermalStageEnter {z0 s : State} (hk : Kept z0 s) (kind : Fin 5) (idx : Fin 128) (temp : Int) :
    KeptOut z0 (execThermalStageEnter kind idx temp s) := by
  unfold execThermalStageEnter; try dsimp only
  repeat' first | with_reducible assumption | with_reducible apply kept_updPwr | with_reducible apply kept_stageAction
                | with_reducible apply kept_markRuns | split | (with_reducible refine Kept.mk0 ?_)
                | with_reducible apply KeptOut.next

theorem kept_execThermalStageLeave {z0 s : State} (hk : Kept z0 s) (kind : Fin 5) (idx : Fin 128) (temp : Int) :
    KeptOut z0 (execThermalStageLeave kind idx temp s) := by
  unfold execThermalStageLeave; try dsimp only
  repeat' first | with_reducible assumption | with_reducible apply kept_stageLeft | with_reducible apply kept_updPwr | split
                | with_reducible apply KeptOut.next

theorem kept_execThermalCeilingTick {z0 s : State} (hk : Kept z0 s) (n : Fin 128) : KeptOut z0 (execThermalCeilingTick n s) := by
  unfold execThermalCeilingTick; try dsimp only
  repeat' first | with_reducible assumption | with_reducible apply kept_ceilingTick | with_reducible apply KeptOut.next

theorem kept_execThermalTrip {z0 s : State} (hk : Kept z0 s) (kind : Fin 5) (idx : Fin 128) :
    KeptOut z0 (execThermalTrip kind idx s) := by
  unfold execThermalTrip; try dsimp only
  repeat' first | with_reducible assumption | with_reducible apply kept_tripInStage | with_reducible apply kept_tripSensor | split
                | with_reducible apply KeptOut.next

theorem kept_execHeadroomTest {z0 s : State} (hk : Kept z0 s) (mean : Nat) : KeptOut z0 (execHeadroomTest mean s) := by
  unfold execHeadroomTest; try dsimp only
  repeat' first | with_reducible assumption | with_reducible apply kept_updPwr | split | with_reducible apply KeptOut.next

theorem kept_execQuarterRateStart {z0 s : State} (hk : Kept z0 s) : KeptOut z0 (execQuarterRateStart s) := by
  unfold execQuarterRateStart; try dsimp only
  repeat' first | with_reducible assumption | with_reducible apply kept_updPwr | with_reducible apply KeptOut.next

theorem kept_execSoftStartDone {z0 s : State} (hk : Kept z0 s) (n : Fin 8) : KeptOut z0 (execSoftStartDone n s) := by
  unfold execSoftStartDone; try dsimp only
  repeat' first | with_reducible assumption | with_reducible apply kept_setOsc | with_reducible apply kept_updPwr
                | with_reducible apply kept_partReady | split | with_reducible apply KeptOut.next

theorem kept_execThrottleAssert {z0 s : State} (hk : Kept z0 s) : KeptOut z0 (execThrottleAssert s) := by
  unfold execThrottleAssert; try dsimp only
  repeat' first | with_reducible assumption | with_reducible apply kept_markRuns | with_reducible apply kept_updPwr
                | (with_reducible refine Kept.foldl _ _ ?_ ?_) | (intro _ _ _; try dsimp only)
                | (with_reducible refine Kept.mk0 ?_) | with_reducible apply KeptOut.next

theorem kept_execThrottleDeassert {z0 s : State} (hk : Kept z0 s) : KeptOut z0 (execThrottleDeassert s) := by
  unfold execThrottleDeassert; try dsimp only
  repeat' first | with_reducible assumption | with_reducible apply kept_updPwr | (with_reducible refine Kept.mk0 ?_)
                | with_reducible apply KeptOut.next

theorem kept_execThrottleHeld {z0 s : State} (hk : Kept z0 s) : KeptOut z0 (execThrottleHeld s) := by
  unfold execThrottleHeld; try dsimp only
  repeat' first | with_reducible assumption | with_reducible apply kept_whileKiln | with_reducible apply kept_postAll
                | with_reducible apply kept_updPwr | split | (with_reducible refine Kept.mk0 ?_)
                | with_reducible apply KeptOut.next

theorem kept_sendMsg {z0 s : State} (hk : Kept z0 s) (type status : Nat) (payload : List Byte) :
    Kept z0 (sendMsg s type status payload) := by
  unfold sendMsg; try dsimp only
  repeat' first | with_reducible assumption | (with_reducible refine Kept.mk0 ?_)

theorem kept_execTransferConnect {z0 s : State} (hk : Kept z0 s) : KeptOut z0 (execTransferConnect s) := by
  unfold execTransferConnect; try dsimp only
  repeat' first | with_reducible assumption | with_reducible apply kept_sendMsg | split | (with_reducible refine Kept.mk0 ?_)
                | with_reducible apply KeptOut.next

theorem kept_execHello {z0 s : State} (hk : Kept z0 s) (version : Word) : KeptOut z0 (execHello version s) := by
  unfold execHello; try dsimp only
  repeat' first | with_reducible assumption | with_reducible apply kept_sendMsg | split | with_reducible apply KeptOut.next

theorem kept_takeHeader {z0 s : State} (hk : Kept z0 s) (h : List Byte) (sigOk : Bool) : Kept z0 (takeHeader s h sigOk) := by
  unfold takeHeader; try dsimp only
  repeat' first | with_reducible assumption | with_reducible apply kept_sendMsg | split | (with_reducible refine Kept.mk0 ?_)
                | (with_reducible refine Kept.mkFlash ?_ ?_) | (with_reducible refine Kept.mkBoth ?_ (fun w => ?_) ?_)
                | with_reducible apply FlashKept.refl | with_reducible apply flashKept_addDefects
                | with_reducible apply flashKept_putField | with_reducible apply flashKept_putRetired
                | with_reducible apply flashKept_putUpd | with_reducible apply flashKept_putSaved
                | with_reducible apply flashKept_chooseImage
                | exact FlashKept.mk rfl rfl rfl rfl rfl rfl (Nat.le_refl _) (fun _ x => x)
                | exact FlashKept.mk rfl rfl rfl rfl rfl rfl (by simp) (fun _ x => by simp [x])

theorem kept_execHeader {z0 s : State} (hk : Kept z0 s) (bytes : List Byte) (sigOk : Bool) :
    KeptOut z0 (execHeader bytes sigOk s) := by
  unfold execHeader; try dsimp only
  repeat' first | with_reducible assumption | with_reducible apply kept_takeHeader | split | with_reducible apply KeptOut.next

theorem kept_abortTransfer {z0 s : State} (hk : Kept z0 s) (status : Nat) : Kept z0 (abortTransfer s status) := by
  unfold abortTransfer; try dsimp only
  repeat' first | with_reducible assumption | with_reducible apply kept_sendMsg | with_reducible apply kept_endTransfer

theorem kept_takeChunk {z0 s : State} (hk : Kept z0 s) (h : List Byte) (off : Nat) (bytes : List Byte) :
    Kept z0 (takeChunk s h off bytes) := by
  unfold takeChunk; try dsimp only
  repeat' first | with_reducible assumption | with_reducible apply kept_abortTransfer | with_reducible apply kept_sendMsg | split
                | (with_reducible refine Kept.mk0 ?_)

theorem kept_execChunk {z0 s : State} (hk : Kept z0 s) (off : DWord) (bytes : List Byte) :
    KeptOut z0 (execChunk off bytes s) := by
  unfold execChunk; try dsimp only
  repeat' first | with_reducible assumption | with_reducible apply kept_takeChunk | split | with_reducible apply KeptOut.next

theorem kept_recoverImage {z0 s : State} (hk : Kept z0 s) : Kept z0 (recoverImage s) := by
  unfold recoverImage; try dsimp only
  repeat' first | with_reducible assumption | with_reducible apply kept_setReport | split | (with_reducible refine Kept.mk0 ?_)
                | (with_reducible refine Kept.mkFlash ?_ ?_) | (with_reducible refine Kept.mkBoth ?_ (fun w => ?_) ?_)
                | with_reducible apply FlashKept.refl | with_reducible apply flashKept_addDefects
                | with_reducible apply flashKept_putField | with_reducible apply flashKept_putRetired
                | with_reducible apply flashKept_putUpd | with_reducible apply flashKept_putSaved
                | with_reducible apply flashKept_chooseImage
                | exact FlashKept.mk rfl rfl rfl rfl rfl rfl (Nat.le_refl _) (fun _ x => x)
                | exact FlashKept.mk rfl rfl rfl rfl rfl rfl (by simp) (fun _ x => by simp [x])

theorem kept_finishBody {z0 s : State} (hk : Kept z0 s) (h : List Byte) (sigOk : Bool) : Kept z0 (finishBody s h sigOk) := by
  unfold finishBody; try dsimp only
  repeat' first | with_reducible assumption | with_reducible apply kept_recoverImage | with_reducible apply kept_sendMsg | split
                | (with_reducible refine Kept.mk0 ?_) | (with_reducible refine Kept.mkFlash ?_ ?_)
                | (with_reducible refine Kept.mkBoth ?_ (fun w => ?_) ?_) | with_reducible apply FlashKept.refl
                | with_reducible apply flashKept_addDefects | with_reducible apply flashKept_putField
                | with_reducible apply flashKept_putRetired | with_reducible apply flashKept_putUpd
                | with_reducible apply flashKept_putSaved | with_reducible apply flashKept_chooseImage
                | exact FlashKept.mk rfl rfl rfl rfl rfl rfl (Nat.le_refl _) (fun _ x => x)
                | exact FlashKept.mk rfl rfl rfl rfl rfl rfl (by simp) (fun _ x => by simp [x])

theorem kept_execFinish {z0 s : State} (hk : Kept z0 s) : KeptOut z0 (execFinish s) := by
  unfold execFinish; try dsimp only
  repeat' first | with_reducible assumption | with_reducible apply kept_finishBody | split | with_reducible apply KeptOut.next

theorem kept_execTransferAbort {z0 s : State} (hk : Kept z0 s) : KeptOut z0 (execTransferAbort s) := by
  unfold execTransferAbort; try dsimp only
  repeat' first | with_reducible assumption | with_reducible apply kept_endTransfer | split | with_reducible apply KeptOut.next

theorem kept_execTransferTimeout {z0 s : State} (hk : Kept z0 s) : KeptOut z0 (execTransferTimeout s) := by
  unfold execTransferTimeout; try dsimp only
  repeat' first | with_reducible assumption | with_reducible apply kept_abortTransfer | split | with_reducible apply KeptOut.next

theorem kept_execActivationTime {z0 s : State} (hk : Kept z0 s) : KeptOut z0 (execActivationTime s) := by
  unfold execActivationTime; try dsimp only
  repeat' first | with_reducible assumption | with_reducible apply kept_pauseAct | split | (with_reducible refine Kept.mk0 ?_)
                | with_reducible apply KeptOut.next

theorem kept_execActivationStarted {z0 s : State} (hk : Kept z0 s) : KeptOut z0 (execActivationStarted s) := by
  refine KeptOut.next ?_
  split
  · have a := kept_postAll hk 0x19 [imgVersion s.flash.staged]
    dsimp only
    generalize postAll s 0x19 [imgVersion s.flash.staged] = s1 at *
    exact kept_restartModule (Kept.mkFlash a (flashKept_putUpd _ _))
  · exact hk

theorem kept_execActivationCancelled {z0 s : State} (hk : Kept z0 s) : KeptOut z0 (execActivationCancelled s) := by
  unfold execActivationCancelled; try dsimp only
  repeat' first | with_reducible assumption | with_reducible apply kept_resumeAct | with_reducible apply kept_postAll | split
                | (with_reducible refine Kept.mk0 ?_) | with_reducible apply KeptOut.next

theorem kept_setSpdm {z0 s : State} (hk : Kept z0 s) (p : Nat) (x : SpdmConn) : Kept z0 (setSpdm s p x) := by
  unfold setSpdm; try dsimp only
  repeat' first | with_reducible assumption | split | (with_reducible refine Kept.mk0 ?_)

theorem kept_spdmServe {z0 s : State} (hk : Kept z0 s) (p : Nat) (f : SpdmConn → SpdmConn) : Kept z0 (spdmServe s p f) := by
  unfold spdmServe; try dsimp only
  repeat' first | with_reducible assumption | with_reducible apply kept_raiseVec | with_reducible apply kept_setSpdm | split
                | (with_reducible refine Kept.mk0 ?_)

theorem kept_execGetVersion {z0 s : State} (hk : Kept z0 s) (port : Fin 2) : KeptOut z0 (execGetVersion port s) := by
  unfold execGetVersion; try dsimp only
  repeat' first | with_reducible assumption | with_reducible apply kept_spdmServe | with_reducible apply KeptOut.next

theorem kept_execGetCapabilities {z0 s : State} (hk : Kept z0 s) (port : Fin 2) : KeptOut z0 (execGetCapabilities port s) := by
  unfold execGetCapabilities; try dsimp only
  repeat' first | with_reducible assumption | with_reducible apply kept_spdmServe | split | (with_reducible refine Kept.mk0 ?_)
                | with_reducible apply KeptOut.next

theorem kept_execNegotiateAlgorithms {z0 s : State} (hk : Kept z0 s) (port : Fin 2) (p384 : Bool) (sha384 : Bool) :
    KeptOut z0 (execNegotiateAlgorithms port p384 sha384 s) := by
  unfold execNegotiateAlgorithms; try dsimp only
  repeat' first | with_reducible assumption | with_reducible apply kept_spdmServe | split | (with_reducible refine Kept.mk0 ?_)
                | with_reducible apply KeptOut.next

theorem kept_execGetDigests {z0 s : State} (hk : Kept z0 s) (port : Fin 2) : KeptOut z0 (execGetDigests port s) := by
  unfold execGetDigests; try dsimp only
  repeat' first | with_reducible assumption | with_reducible apply kept_spdmServe | split | with_reducible apply KeptOut.next

theorem kept_execGetCertificate {z0 s : State} (hk : Kept z0 s) (port : Fin 2) (slot off len : Nat) :
    KeptOut z0 (execGetCertificate port slot off len s) := by
  unfold execGetCertificate; try dsimp only
  repeat' first | with_reducible assumption | with_reducible apply kept_spdmServe | split | with_reducible apply KeptOut.next

theorem kept_execChallenge {z0 s : State} (hk : Kept z0 s) (port : Fin 2) (slot : Nat) (nonce : List Byte) :
    KeptOut z0 (execChallenge port slot nonce s) := by
  unfold execChallenge; try dsimp only
  repeat' first | with_reducible assumption | with_reducible apply kept_spdmServe | split | with_reducible apply KeptOut.next

theorem kept_execGetMeasurements {z0 s : State} (hk : Kept z0 s) (port : Fin 2) (idx : Nat) (sign : Bool) (nonce : List Byte) :
    KeptOut z0 (execGetMeasurements port idx sign nonce s) := by
  unfold execGetMeasurements; try dsimp only
  repeat' first | with_reducible assumption | with_reducible apply kept_spdmServe | with_reducible apply KeptOut.next

theorem kept_execSpdmUnsupported {z0 s : State} (hk : Kept z0 s) (port : Fin 2) (code : Byte) :
    KeptOut z0 (execSpdmUnsupported port code s) := by
  unfold execSpdmUnsupported; try dsimp only
  repeat' first | with_reducible assumption | with_reducible apply kept_spdmServe | split | with_reducible apply KeptOut.next

theorem kept_smbDo {z0 s : State} (hk : Kept z0 s) (pec : Bool) (data : List Byte) (f : State → State) (ht : Kept z0 (f s)) :
    Kept z0 (smbDo s pec data f) := by
  unfold smbDo
  split
  · with_reducible exact Kept.mk0 ht
  · with_reducible exact Kept.mk0 hk

theorem kept_execFruRead {z0 s : State} (hk : Kept z0 s) (off : BitVec 16) (pec : Bool) : KeptOut z0 (execFruRead off pec s) := by
  unfold execFruRead; try dsimp only
  repeat' first | with_reducible assumption | with_reducible apply kept_smbDo | split | with_reducible apply KeptOut.next
                | (with_reducible refine kept_smbDo ?_ _ _ _ ?_) | (show Kept z0 s; exact hk)

theorem kept_execTelemetry {z0 s : State} (hk : Kept z0 s) (pec : Bool) : KeptOut z0 (execTelemetry pec s) := by
  unfold execTelemetry; try dsimp only
  repeat' first | with_reducible assumption | with_reducible apply kept_smbDo | with_reducible apply KeptOut.next
                | (with_reducible refine kept_smbDo ?_ _ _ _ ?_) | (show Kept z0 s; exact hk)

theorem kept_setBmcCap {z0 s : State} (hk : Kept z0 s) (w : Nat) : Kept z0 (setBmcCap s w) := by
  unfold setBmcCap; try dsimp only
  repeat' first | with_reducible assumption | with_reducible apply kept_updPwr | split | (with_reducible refine Kept.mk0 ?_)

theorem kept_execCapSet {z0 s : State} (hk : Kept z0 s) (w : BitVec 16) (pec : Bool) : KeptOut z0 (execCapSet w pec s) := by
  unfold execCapSet; try dsimp only
  repeat' first | with_reducible assumption | with_reducible apply kept_smbDo | with_reducible apply kept_setBmcCap
                | with_reducible apply KeptOut.next | (with_reducible refine kept_smbDo ?_ _ _ _ ?_) | (show Kept z0 s; exact hk)

theorem kept_execCapStatus {z0 s : State} (hk : Kept z0 s) (pec : Bool) : KeptOut z0 (execCapStatus pec s) := by
  unfold execCapStatus; try dsimp only
  repeat' first | with_reducible assumption | with_reducible apply kept_smbDo | with_reducible apply KeptOut.next
                | (with_reducible refine kept_smbDo ?_ _ _ _ ?_) | (show Kept z0 s; exact hk)

theorem kept_slotOp {z0 s : State} (hk : Kept z0 s) (t slot : Nat) (f : Tile → Except TFault Tile) :
    Kept z0 (slotOp s t slot f) := by
  unfold slotOp; try dsimp only
  repeat' first | with_reducible assumption | with_reducible apply kept_updTile

theorem kept_moveOp {z0 s : State} (hk : Kept z0 s) (t : Nat) (o : MovOp) : Kept z0 (moveOp s t o) := by
  unfold moveOp; try dsimp only
  repeat' first | with_reducible assumption | with_reducible apply kept_updTile

theorem kept_sendFlit {z0 s : State} (hk : Kept z0 s) (t : Nat) (x : Dir × Flit) : Kept z0 (sendFlit s t x) := by
  unfold sendFlit; try dsimp only
  repeat' first | with_reducible assumption | with_reducible apply kept_updTile | split | (with_reducible refine Kept.mk0 ?_)

theorem kept_sendToken {z0 s : State} (hk : Kept z0 s) (t : Nat) (x : Dir × BeatTok) : Kept z0 (sendToken s t x) := by
  unfold sendToken; try dsimp only
  repeat' first | with_reducible assumption | with_reducible apply kept_updTile | split | (with_reducible refine Kept.mk0 ?_)

theorem kept_sendReqs {z0 s : State} (hk : Kept z0 s) (t : Nat) (rs : List MDesc) : Kept z0 (sendReqs s t rs) := by
  unfold sendReqs; try dsimp only
  repeat' first | with_reducible assumption | split | (with_reducible refine Kept.mk0 ?_)

theorem kept_deviceCycle {z0 s : State} (hk : Kept z0 s) (t : Nat) (up : CycleEnv) : Kept z0 (deviceCycle s t up) := by
  unfold deviceCycle; try dsimp only
  repeat' first | with_reducible assumption | with_reducible apply kept_setTile | with_reducible apply kept_sendFlit
                | with_reducible apply kept_sendToken | with_reducible apply kept_sendReqs
                | (with_reducible refine Kept.foldl _ _ ?_ ?_) | (intro _ _ _; try dsimp only)

theorem kept_execLogicalCycle {z0 s : State} (hk : Kept z0 s) (t : Fin 2048) (up : CycleEnv) :
    KeptOut z0 (execLogicalCycle t up s) := by
  unfold execLogicalCycle; try dsimp only
  repeat' first | with_reducible assumption | with_reducible apply kept_deviceCycle | with_reducible apply KeptOut.next

theorem kept_execBeatToken {z0 s : State} (hk : Kept z0 s) (t : Fin 2048) (d : Dir) : KeptOut z0 (execBeatToken t d s) := by
  unfold execBeatToken; try dsimp only
  repeat' first | with_reducible assumption | with_reducible apply kept_updTile | with_reducible apply KeptOut.next

theorem kept_execCycleLimit {z0 s : State} (hk : Kept z0 s) (t : Fin 2048) : KeptOut z0 (execCycleLimit t s) := by
  unfold execCycleLimit; try dsimp only
  repeat' first | with_reducible assumption | with_reducible apply kept_updTile | with_reducible apply KeptOut.next

theorem kept_execNop {z0 s : State} (hk : Kept z0 s) (_t : Fin 2048) (_slot : Fin 4) : KeptOut z0 (execNop _t _slot s) := by
  unfold execNop; try dsimp only
  repeat' first | with_reducible assumption | with_reducible apply KeptOut.next

theorem kept_execLdi {z0 s : State} (hk : Kept z0 s) (t : Fin 2048) (d : Fin 16) (mode : Fin 4) (imm : BitVec 16) :
    KeptOut z0 (execLdi t d mode imm s) := by
  unfold execLdi; try dsimp only
  repeat' first | with_reducible assumption | with_reducible apply kept_slotOp | with_reducible apply KeptOut.next

theorem kept_execSalu {z0 s : State} (hk : Kept z0 s) (t : Fin 2048) (d a b fn : Fin 16) :
    KeptOut z0 (execSalu t d a b fn s) := by
  unfold execSalu; try dsimp only
  repeat' first | with_reducible assumption | with_reducible apply kept_slotOp | with_reducible apply KeptOut.next

theorem kept_execSaddi {z0 s : State} (hk : Kept z0 s) (t : Fin 2048) (d a : Fin 16) (imm : BitVec 16) :
    KeptOut z0 (execSaddi t d a imm s) := by
  unfold execSaddi; try dsimp only
  repeat' first | with_reducible assumption | with_reducible apply kept_slotOp | with_reducible apply KeptOut.next

theorem kept_execAdset {z0 s : State} (hk : Kept z0 s) (t : Fin 2048) (n : Fin 32) (a b : Fin 16) :
    KeptOut z0 (execAdset t n a b s) := by
  unfold execAdset; try dsimp only
  repeat' first | with_reducible assumption | with_reducible apply kept_slotOp | with_reducible apply KeptOut.next

theorem kept_execLoop {z0 s : State} (hk : Kept z0 s) (t : Fin 2048) (csrc : Bool) (cnt : BitVec 12) (stop : BitVec 13) :
    KeptOut z0 (execLoop t csrc cnt stop s) := by
  unfold execLoop; try dsimp only
  repeat' first | with_reducible assumption | with_reducible apply kept_slotOp | with_reducible apply KeptOut.next

theorem kept_execJmp {z0 s : State} (hk : Kept z0 s) (t : Fin 2048) (target : BitVec 13) : KeptOut z0 (execJmp t target s) := by
  unfold execJmp; try dsimp only
  repeat' first | with_reducible assumption | with_reducible apply kept_slotOp | with_reducible apply KeptOut.next

theorem kept_execBnz {z0 s : State} (hk : Kept z0 s) (t : Fin 2048) (a : Fin 16) (target : BitVec 13) :
    KeptOut z0 (execBnz t a target s) := by
  unfold execBnz; try dsimp only
  repeat' first | with_reducible assumption | with_reducible apply kept_slotOp | with_reducible apply KeptOut.next

theorem kept_execBown {z0 s : State} (hk : Kept z0 s) (t : Fin 2048) (mask : BitVec 16) (port : Fin 4) :
    KeptOut z0 (execBown t mask port s) := by
  unfold execBown; try dsimp only
  repeat' first | with_reducible assumption | with_reducible apply kept_slotOp | with_reducible apply KeptOut.next

theorem kept_execCclr {z0 s : State} (hk : Kept z0 s) (t : Fin 2048) (mask : BitVec 3) : KeptOut z0 (execCclr t mask s) := by
  unfold execCclr; try dsimp only
  repeat' first | with_reducible assumption | with_reducible apply kept_slotOp | with_reducible apply KeptOut.next

theorem kept_execRdsr {z0 s : State} (hk : Kept z0 s) (t : Fin 2048) (d sel : Fin 16) : KeptOut z0 (execRdsr t d sel s) := by
  unfold execRdsr; try dsimp only
  repeat' first | with_reducible assumption | with_reducible apply kept_slotOp | with_reducible apply KeptOut.next

theorem kept_execDigclr {z0 s : State} (hk : Kept z0 s) (t : Fin 2048) : KeptOut z0 (execDigclr t s) := by
  unfold execDigclr; try dsimp only
  repeat' first | with_reducible assumption | with_reducible apply kept_slotOp | with_reducible apply KeptOut.next

theorem kept_execEvent {z0 s : State} (hk : Kept z0 s) (t : Fin 2048) (code : BitVec 16) : KeptOut z0 (execEvent t code s) := by
  unfold execEvent; try dsimp only
  repeat' first | with_reducible assumption | with_reducible apply kept_slotOp | with_reducible apply KeptOut.next

theorem kept_execDone {z0 s : State} (hk : Kept z0 s) (t : Fin 2048) : KeptOut z0 (execDone t s) := by
  unfold execDone; try dsimp only
  repeat' first | with_reducible assumption | with_reducible apply kept_slotOp | with_reducible apply KeptOut.next

theorem kept_execWload {z0 s : State} (hk : Kept z0 s) (t : Fin 2048) (didx : BitVec 13) : KeptOut z0 (execWload t didx s) := by
  unfold execWload; try dsimp only
  repeat' first | with_reducible assumption | with_reducible apply kept_slotOp | with_reducible apply KeptOut.next

theorem kept_execStream {z0 s : State} (hk : Kept z0 s) (t : Fin 2048) (didx : BitVec 13) (prob : Fin 8) (swap asrc : Bool)
    (asc : Fin 16) :
    KeptOut z0 (execStream t didx prob swap asrc asc s) := by
  unfold execStream; try dsimp only
  repeat' first | with_reducible assumption | with_reducible apply kept_slotOp | with_reducible apply KeptOut.next

theorem kept_execDrain {z0 s : State} (hk : Kept z0 s) (t : Fin 2048) (didx : BitVec 13) : KeptOut z0 (execDrain t didx s) := by
  unfold execDrain; try dsimp only
  repeat' first | with_reducible assumption | with_reducible apply kept_slotOp | with_reducible apply KeptOut.next

theorem kept_execAclr {z0 s : State} (hk : Kept z0 s) (t : Fin 2048) (first last : Fin 128) :
    KeptOut z0 (execAclr t first last s) := by
  unfold execAclr; try dsimp only
  repeat' first | with_reducible assumption | with_reducible apply kept_slotOp | with_reducible apply KeptOut.next

theorem kept_execMode {z0 s : State} (hk : Kept z0 s) (t : Fin 2048) (hsplit : Bool) (pjoin : Fin 4) :
    KeptOut z0 (execMode t hsplit pjoin s) := by
  unfold execMode; try dsimp only
  repeat' first | with_reducible assumption | with_reducible apply kept_slotOp | with_reducible apply KeptOut.next

theorem kept_execVmov {z0 s : State} (hk : Kept z0 s) (t : Fin 2048) (f : VReg) : KeptOut z0 (execVmov t f s) := by
  unfold execVmov; try dsimp only
  repeat' first | with_reducible assumption | with_reducible apply kept_slotOp | with_reducible apply KeptOut.next

theorem kept_execVbcast {z0 s : State} (hk : Kept z0 s) (t : Fin 2048) (f : VReg) : KeptOut z0 (execVbcast t f s) := by
  unfold execVbcast; try dsimp only
  repeat' first | with_reducible assumption | with_reducible apply kept_slotOp | with_reducible apply KeptOut.next

theorem kept_execVadd {z0 s : State} (hk : Kept z0 s) (t : Fin 2048) (f : VReg) : KeptOut z0 (execVadd t f s) := by
  unfold execVadd; try dsimp only
  repeat' first | with_reducible assumption | with_reducible apply kept_slotOp | with_reducible apply KeptOut.next

theorem kept_execVsub {z0 s : State} (hk : Kept z0 s) (t : Fin 2048) (f : VReg) : KeptOut z0 (execVsub t f s) := by
  unfold execVsub; try dsimp only
  repeat' first | with_reducible assumption | with_reducible apply kept_slotOp | with_reducible apply KeptOut.next

theorem kept_execVmul {z0 s : State} (hk : Kept z0 s) (t : Fin 2048) (f : VReg) : KeptOut z0 (execVmul t f s) := by
  unfold execVmul; try dsimp only
  repeat' first | with_reducible assumption | with_reducible apply kept_slotOp | with_reducible apply KeptOut.next

theorem kept_execVfma {z0 s : State} (hk : Kept z0 s) (t : Fin 2048) (f : VReg) : KeptOut z0 (execVfma t f s) := by
  unfold execVfma; try dsimp only
  repeat' first | with_reducible assumption | with_reducible apply kept_slotOp | with_reducible apply KeptOut.next

theorem kept_execVmax {z0 s : State} (hk : Kept z0 s) (t : Fin 2048) (f : VReg) : KeptOut z0 (execVmax t f s) := by
  unfold execVmax; try dsimp only
  repeat' first | with_reducible assumption | with_reducible apply kept_slotOp | with_reducible apply KeptOut.next

theorem kept_execVmin {z0 s : State} (hk : Kept z0 s) (t : Fin 2048) (f : VReg) : KeptOut z0 (execVmin t f s) := by
  unfold execVmin; try dsimp only
  repeat' first | with_reducible assumption | with_reducible apply kept_slotOp | with_reducible apply KeptOut.next

theorem kept_execVrsum {z0 s : State} (hk : Kept z0 s) (t : Fin 2048) (f : VReg) : KeptOut z0 (execVrsum t f s) := by
  unfold execVrsum; try dsimp only
  repeat' first | with_reducible assumption | with_reducible apply kept_slotOp | with_reducible apply KeptOut.next

theorem kept_execVrmax {z0 s : State} (hk : Kept z0 s) (t : Fin 2048) (f : VReg) : KeptOut z0 (execVrmax t f s) := by
  unfold execVrmax; try dsimp only
  repeat' first | with_reducible assumption | with_reducible apply kept_slotOp | with_reducible apply KeptOut.next

theorem kept_execVexp2 {z0 s : State} (hk : Kept z0 s) (t : Fin 2048) (f : VReg) : KeptOut z0 (execVexp2 t f s) := by
  unfold execVexp2; try dsimp only
  repeat' first | with_reducible assumption | with_reducible apply kept_slotOp | with_reducible apply KeptOut.next

theorem kept_execVlog2 {z0 s : State} (hk : Kept z0 s) (t : Fin 2048) (f : VReg) : KeptOut z0 (execVlog2 t f s) := by
  unfold execVlog2; try dsimp only
  repeat' first | with_reducible assumption | with_reducible apply kept_slotOp | with_reducible apply KeptOut.next

theorem kept_execVrcp {z0 s : State} (hk : Kept z0 s) (t : Fin 2048) (f : VReg) : KeptOut z0 (execVrcp t f s) := by
  unfold execVrcp; try dsimp only
  repeat' first | with_reducible assumption | with_reducible apply kept_slotOp | with_reducible apply KeptOut.next

theorem kept_execVrsq {z0 s : State} (hk : Kept z0 s) (t : Fin 2048) (f : VReg) : KeptOut z0 (execVrsq t f s) := by
  unfold execVrsq; try dsimp only
  repeat' first | with_reducible assumption | with_reducible apply kept_slotOp | with_reducible apply KeptOut.next

theorem kept_execVld {z0 s : State} (hk : Kept z0 s) (t : Fin 2048) (f : VMem) : KeptOut z0 (execVld t f s) := by
  unfold execVld; try dsimp only
  repeat' first | with_reducible assumption | with_reducible apply kept_slotOp | with_reducible apply KeptOut.next

theorem kept_execVst {z0 s : State} (hk : Kept z0 s) (t : Fin 2048) (f : VMem) : KeptOut z0 (execVst t f s) := by
  unfold execVst; try dsimp only
  repeat' first | with_reducible assumption | with_reducible apply kept_slotOp | with_reducible apply KeptOut.next

theorem kept_execVqnt {z0 s : State} (hk : Kept z0 s) (t : Fin 2048) (f : VMem) : KeptOut z0 (execVqnt t f s) := by
  unfold execVqnt; try dsimp only
  repeat' first | with_reducible assumption | with_reducible apply kept_slotOp | with_reducible apply KeptOut.next

theorem kept_execVdqt {z0 s : State} (hk : Kept z0 s) (t : Fin 2048) (f : VMem) : KeptOut z0 (execVdqt t f s) := by
  unfold execVdqt; try dsimp only
  repeat' first | with_reducible assumption | with_reducible apply kept_slotOp | with_reducible apply KeptOut.next

theorem kept_execVscan {z0 s : State} (hk : Kept z0 s) (t : Fin 2048) (f : VMem) : KeptOut z0 (execVscan t f s) := by
  unfold execVscan; try dsimp only
  repeat' first | with_reducible assumption | with_reducible apply kept_slotOp | with_reducible apply KeptOut.next

theorem kept_execVdig {z0 s : State} (hk : Kept z0 s) (t : Fin 2048) (f : VMem) : KeptOut z0 (execVdig t f s) := by
  unfold execVdig; try dsimp only
  repeat' first | with_reducible assumption | with_reducible apply kept_slotOp | with_reducible apply KeptOut.next

theorem kept_execPut {z0 s : State} (hk : Kept z0 s) (t : Fin 2048) (ad : Fin 32) (didx : BitVec 13) (pinc : Bool) :
    KeptOut z0 (execPut t ad didx pinc s) := by
  unfold execPut; try dsimp only
  repeat' first | with_reducible assumption | with_reducible apply kept_moveOp | with_reducible apply KeptOut.next

theorem kept_execMreq {z0 s : State} (hk : Kept z0 s) (t : Fin 2048) (ad : Fin 32) (didx : BitVec 13) (pinc : Bool) :
    KeptOut z0 (execMreq t ad didx pinc s) := by
  unfold execMreq; try dsimp only
  repeat' first | with_reducible assumption | with_reducible apply kept_moveOp | with_reducible apply KeptOut.next

theorem kept_execWopen {z0 s : State} (hk : Kept z0 s) (t : Fin 2048) (win : Fin 16) (didx : BitVec 13) :
    KeptOut z0 (execWopen t win didx s) := by
  unfold execWopen; try dsimp only
  repeat' first | with_reducible assumption | with_reducible apply kept_moveOp | with_reducible apply KeptOut.next

theorem kept_execWclose {z0 s : State} (hk : Kept z0 s) (t : Fin 2048) (win : Fin 16) : KeptOut z0 (execWclose t win s) := by
  unfold execWclose; try dsimp only
  repeat' first | with_reducible assumption | with_reducible apply kept_moveOp | with_reducible apply KeptOut.next

theorem kept_execTfull {z0 s : State} (hk : Kept z0 s) (t : Fin 2048) (slot : Fin 1024) : KeptOut z0 (execTfull t slot s) := by
  unfold execTfull; try dsimp only
  repeat' first | with_reducible assumption | with_reducible apply kept_moveOp | with_reducible apply KeptOut.next

theorem kept_execTempty {z0 s : State} (hk : Kept z0 s) (t : Fin 2048) (slot : Fin 1024) : KeptOut z0 (execTempty t slot s) := by
  unfold execTempty; try dsimp only
  repeat' first | with_reducible assumption | with_reducible apply kept_moveOp | with_reducible apply KeptOut.next

theorem kept_execPld {z0 s : State} (hk : Kept z0 s) (t : Fin 2048) (ad : Fin 32) (idx : BitVec 12) (kind pinc : Bool) :
    KeptOut z0 (execPld t ad idx kind pinc s) := by
  unfold execPld; try dsimp only
  repeat' first | with_reducible assumption | with_reducible apply kept_moveOp | with_reducible apply KeptOut.next

theorem kept_execTagStall {z0 s : State} (hk : Kept z0 s) (t : Fin 2048) : KeptOut z0 (execTagStall t s) := by
  unfold execTagStall; try dsimp only
  repeat' first | with_reducible assumption | with_reducible apply kept_updTile | with_reducible apply KeptOut.next

theorem kept_execFlitReceive {z0 s : State} (hk : Kept z0 s) (t : Fin 2048) (d : Dir) (e : FlitErr) :
    KeptOut z0 (execFlitReceive t d e s) := by
  unfold execFlitReceive; try dsimp only
  repeat' first | with_reducible assumption | with_reducible apply kept_updTile | with_reducible apply KeptOut.next

end Sys2Proof.Machine
end

