-- ==== Sys2Proof/Laws/State.lean ====
section
/-! SUPPORT. The state's small laws: what each update leaves as it was, and what a read after it gives. -/

namespace Sys2Proof.Machine

/-! Each update of the state leaves every other field as it was. -/

@[simp] theorem setTile_clock (s : State) (t : Nat) (x : Tile) : (setTile s t x).clock = s.clock := rfl
@[simp] theorem setTile_freeCtr (s : State) (t : Nat) (x : Tile) : (setTile s t x).freeCtr = s.freeCtr := rfl
@[simp] theorem setTile_ring (s : State) (t : Nat) (x : Tile) : (setTile s t x).ring = s.ring := rfl
@[simp] theorem setTile_mem (s : State) (t : Nat) (x : Tile) : (setTile s t x).mem = s.mem := rfl
@[simp] theorem setTile_lk (s : State) (t : Nat) (x : Tile) : (setTile s t x).lk = s.lk := rfl
@[simp] theorem setTile_fab (s : State) (t : Nat) (x : Tile) : (setTile s t x).fab = s.fab := rfl
@[simp] theorem setTile_pwr (s : State) (t : Nat) (x : Tile) : (setTile s t x).pwr = s.pwr := rfl
@[simp] theorem setTile_kiln (s : State) (t : Nat) (x : Tile) : (setTile s t x).kiln = s.kiln := rfl
@[simp] theorem setTile_p0 (s : State) (t : Nat) (x : Tile) : (setTile s t x).p0 = s.p0 := rfl
@[simp] theorem setTile_p1 (s : State) (t : Nat) (x : Tile) : (setTile s t x).p1 = s.p1 := rfl
@[simp] theorem setTile_boot (s : State) (t : Nat) (x : Tile) : (setTile s t x).boot = s.boot := rfl
@[simp] theorem setTile_flash (s : State) (t : Nat) (x : Tile) : (setTile s t x).flash = s.flash := rfl
@[simp] theorem setTile_upd (s : State) (t : Nat) (x : Tile) : (setTile s t x).upd = s.upd := rfl
@[simp] theorem setTile_spdm0 (s : State) (t : Nat) (x : Tile) : (setTile s t x).spdm0 = s.spdm0 := rfl
@[simp] theorem setTile_spdm1 (s : State) (t : Nat) (x : Tile) : (setTile s t x).spdm1 = s.spdm1 := rfl
@[simp] theorem setTile_smb (s : State) (t : Nat) (x : Tile) : (setTile s t x).smb = s.smb := rfl
@[simp] theorem setTile_pending (s : State) (t : Nat) (x : Tile) : (setTile s t x).pending = s.pending := rfl

@[simp] theorem updTile_clock (s : State) (t : Nat) (f : Tile → Tile) : (updTile s t f).clock = s.clock := rfl
@[simp] theorem updTile_freeCtr (s : State) (t : Nat) (f : Tile → Tile) : (updTile s t f).freeCtr = s.freeCtr := rfl
@[simp] theorem updTile_ring (s : State) (t : Nat) (f : Tile → Tile) : (updTile s t f).ring = s.ring := rfl
@[simp] theorem updTile_mem (s : State) (t : Nat) (f : Tile → Tile) : (updTile s t f).mem = s.mem := rfl
@[simp] theorem updTile_lk (s : State) (t : Nat) (f : Tile → Tile) : (updTile s t f).lk = s.lk := rfl
@[simp] theorem updTile_fab (s : State) (t : Nat) (f : Tile → Tile) : (updTile s t f).fab = s.fab := rfl
@[simp] theorem updTile_pwr (s : State) (t : Nat) (f : Tile → Tile) : (updTile s t f).pwr = s.pwr := rfl
@[simp] theorem updTile_kiln (s : State) (t : Nat) (f : Tile → Tile) : (updTile s t f).kiln = s.kiln := rfl
@[simp] theorem updTile_p0 (s : State) (t : Nat) (f : Tile → Tile) : (updTile s t f).p0 = s.p0 := rfl
@[simp] theorem updTile_p1 (s : State) (t : Nat) (f : Tile → Tile) : (updTile s t f).p1 = s.p1 := rfl
@[simp] theorem updTile_boot (s : State) (t : Nat) (f : Tile → Tile) : (updTile s t f).boot = s.boot := rfl
@[simp] theorem updTile_flash (s : State) (t : Nat) (f : Tile → Tile) : (updTile s t f).flash = s.flash := rfl
@[simp] theorem updTile_upd (s : State) (t : Nat) (f : Tile → Tile) : (updTile s t f).upd = s.upd := rfl
@[simp] theorem updTile_spdm0 (s : State) (t : Nat) (f : Tile → Tile) : (updTile s t f).spdm0 = s.spdm0 := rfl
@[simp] theorem updTile_spdm1 (s : State) (t : Nat) (f : Tile → Tile) : (updTile s t f).spdm1 = s.spdm1 := rfl
@[simp] theorem updTile_smb (s : State) (t : Nat) (f : Tile → Tile) : (updTile s t f).smb = s.smb := rfl
@[simp] theorem updTile_pending (s : State) (t : Nat) (f : Tile → Tile) : (updTile s t f).pending = s.pending := rfl

@[simp] theorem setPart_clock (s : State) (p : Nat) (x : PartSt) : (setPart s p x).clock = s.clock := rfl
@[simp] theorem setPart_freeCtr (s : State) (p : Nat) (x : PartSt) : (setPart s p x).freeCtr = s.freeCtr := rfl
@[simp] theorem setPart_tiles (s : State) (p : Nat) (x : PartSt) : (setPart s p x).tiles = s.tiles := rfl
@[simp] theorem setPart_ring (s : State) (p : Nat) (x : PartSt) : (setPart s p x).ring = s.ring := rfl
@[simp] theorem setPart_mem (s : State) (p : Nat) (x : PartSt) : (setPart s p x).mem = s.mem := rfl
@[simp] theorem setPart_lk (s : State) (p : Nat) (x : PartSt) : (setPart s p x).lk = s.lk := rfl
@[simp] theorem setPart_fab (s : State) (p : Nat) (x : PartSt) : (setPart s p x).fab = s.fab := rfl
@[simp] theorem setPart_pwr (s : State) (p : Nat) (x : PartSt) : (setPart s p x).pwr = s.pwr := rfl
@[simp] theorem setPart_p0 (s : State) (p : Nat) (x : PartSt) : (setPart s p x).p0 = s.p0 := rfl
@[simp] theorem setPart_p1 (s : State) (p : Nat) (x : PartSt) : (setPart s p x).p1 = s.p1 := rfl
@[simp] theorem setPart_boot (s : State) (p : Nat) (x : PartSt) : (setPart s p x).boot = s.boot := rfl
@[simp] theorem setPart_flash (s : State) (p : Nat) (x : PartSt) : (setPart s p x).flash = s.flash := rfl
@[simp] theorem setPart_upd (s : State) (p : Nat) (x : PartSt) : (setPart s p x).upd = s.upd := rfl
@[simp] theorem setPart_spdm0 (s : State) (p : Nat) (x : PartSt) : (setPart s p x).spdm0 = s.spdm0 := rfl
@[simp] theorem setPart_spdm1 (s : State) (p : Nat) (x : PartSt) : (setPart s p x).spdm1 = s.spdm1 := rfl
@[simp] theorem setPart_smb (s : State) (p : Nat) (x : PartSt) : (setPart s p x).smb = s.smb := rfl
@[simp] theorem setPart_pending (s : State) (p : Nat) (x : PartSt) : (setPart s p x).pending = s.pending := rfl

@[simp] theorem setCtx_clock (s : State) (c : Nat) (x : Ctx) : (setCtx s c x).clock = s.clock := rfl
@[simp] theorem setCtx_freeCtr (s : State) (c : Nat) (x : Ctx) : (setCtx s c x).freeCtr = s.freeCtr := rfl
@[simp] theorem setCtx_tiles (s : State) (c : Nat) (x : Ctx) : (setCtx s c x).tiles = s.tiles := rfl
@[simp] theorem setCtx_ring (s : State) (c : Nat) (x : Ctx) : (setCtx s c x).ring = s.ring := rfl
@[simp] theorem setCtx_mem (s : State) (c : Nat) (x : Ctx) : (setCtx s c x).mem = s.mem := rfl
@[simp] theorem setCtx_lk (s : State) (c : Nat) (x : Ctx) : (setCtx s c x).lk = s.lk := rfl
@[simp] theorem setCtx_fab (s : State) (c : Nat) (x : Ctx) : (setCtx s c x).fab = s.fab := rfl
@[simp] theorem setCtx_pwr (s : State) (c : Nat) (x : Ctx) : (setCtx s c x).pwr = s.pwr := rfl
@[simp] theorem setCtx_p0 (s : State) (c : Nat) (x : Ctx) : (setCtx s c x).p0 = s.p0 := rfl
@[simp] theorem setCtx_p1 (s : State) (c : Nat) (x : Ctx) : (setCtx s c x).p1 = s.p1 := rfl
@[simp] theorem setCtx_boot (s : State) (c : Nat) (x : Ctx) : (setCtx s c x).boot = s.boot := rfl
@[simp] theorem setCtx_flash (s : State) (c : Nat) (x : Ctx) : (setCtx s c x).flash = s.flash := rfl
@[simp] theorem setCtx_upd (s : State) (c : Nat) (x : Ctx) : (setCtx s c x).upd = s.upd := rfl
@[simp] theorem setCtx_spdm0 (s : State) (c : Nat) (x : Ctx) : (setCtx s c x).spdm0 = s.spdm0 := rfl
@[simp] theorem setCtx_spdm1 (s : State) (c : Nat) (x : Ctx) : (setCtx s c x).spdm1 = s.spdm1 := rfl
@[simp] theorem setCtx_smb (s : State) (c : Nat) (x : Ctx) : (setCtx s c x).smb = s.smb := rfl
@[simp] theorem setCtx_pending (s : State) (c : Nat) (x : Ctx) : (setCtx s c x).pending = s.pending := rfl

@[simp] theorem updCtx_clock (s : State) (c : Nat) (f : Ctx → Ctx) : (updCtx s c f).clock = s.clock := rfl
@[simp] theorem updCtx_freeCtr (s : State) (c : Nat) (f : Ctx → Ctx) : (updCtx s c f).freeCtr = s.freeCtr := rfl
@[simp] theorem updCtx_tiles (s : State) (c : Nat) (f : Ctx → Ctx) : (updCtx s c f).tiles = s.tiles := rfl
@[simp] theorem updCtx_ring (s : State) (c : Nat) (f : Ctx → Ctx) : (updCtx s c f).ring = s.ring := rfl
@[simp] theorem updCtx_mem (s : State) (c : Nat) (f : Ctx → Ctx) : (updCtx s c f).mem = s.mem := rfl
@[simp] theorem updCtx_lk (s : State) (c : Nat) (f : Ctx → Ctx) : (updCtx s c f).lk = s.lk := rfl
@[simp] theorem updCtx_fab (s : State) (c : Nat) (f : Ctx → Ctx) : (updCtx s c f).fab = s.fab := rfl
@[simp] theorem updCtx_pwr (s : State) (c : Nat) (f : Ctx → Ctx) : (updCtx s c f).pwr = s.pwr := rfl
@[simp] theorem updCtx_p0 (s : State) (c : Nat) (f : Ctx → Ctx) : (updCtx s c f).p0 = s.p0 := rfl
@[simp] theorem updCtx_p1 (s : State) (c : Nat) (f : Ctx → Ctx) : (updCtx s c f).p1 = s.p1 := rfl
@[simp] theorem updCtx_boot (s : State) (c : Nat) (f : Ctx → Ctx) : (updCtx s c f).boot = s.boot := rfl
@[simp] theorem updCtx_flash (s : State) (c : Nat) (f : Ctx → Ctx) : (updCtx s c f).flash = s.flash := rfl
@[simp] theorem updCtx_upd (s : State) (c : Nat) (f : Ctx → Ctx) : (updCtx s c f).upd = s.upd := rfl
@[simp] theorem updCtx_spdm0 (s : State) (c : Nat) (f : Ctx → Ctx) : (updCtx s c f).spdm0 = s.spdm0 := rfl
@[simp] theorem updCtx_spdm1 (s : State) (c : Nat) (f : Ctx → Ctx) : (updCtx s c f).spdm1 = s.spdm1 := rfl
@[simp] theorem updCtx_smb (s : State) (c : Nat) (f : Ctx → Ctx) : (updCtx s c f).smb = s.smb := rfl
@[simp] theorem updCtx_pending (s : State) (c : Nat) (f : Ctx → Ctx) : (updCtx s c f).pending = s.pending := rfl

@[simp] theorem setEmber_clock (s : State) (i : Nat) (x : EmberSt) : (setEmber s i x).clock = s.clock := rfl
@[simp] theorem setEmber_freeCtr (s : State) (i : Nat) (x : EmberSt) : (setEmber s i x).freeCtr = s.freeCtr := rfl
@[simp] theorem setEmber_tiles (s : State) (i : Nat) (x : EmberSt) : (setEmber s i x).tiles = s.tiles := rfl
@[simp] theorem setEmber_ring (s : State) (i : Nat) (x : EmberSt) : (setEmber s i x).ring = s.ring := rfl
@[simp] theorem setEmber_mem (s : State) (i : Nat) (x : EmberSt) : (setEmber s i x).mem = s.mem := rfl
@[simp] theorem setEmber_lk (s : State) (i : Nat) (x : EmberSt) : (setEmber s i x).lk = s.lk := rfl
@[simp] theorem setEmber_fab (s : State) (i : Nat) (x : EmberSt) : (setEmber s i x).fab = s.fab := rfl
@[simp] theorem setEmber_pwr (s : State) (i : Nat) (x : EmberSt) : (setEmber s i x).pwr = s.pwr := rfl
@[simp] theorem setEmber_p0 (s : State) (i : Nat) (x : EmberSt) : (setEmber s i x).p0 = s.p0 := rfl
@[simp] theorem setEmber_p1 (s : State) (i : Nat) (x : EmberSt) : (setEmber s i x).p1 = s.p1 := rfl
@[simp] theorem setEmber_boot (s : State) (i : Nat) (x : EmberSt) : (setEmber s i x).boot = s.boot := rfl
@[simp] theorem setEmber_flash (s : State) (i : Nat) (x : EmberSt) : (setEmber s i x).flash = s.flash := rfl
@[simp] theorem setEmber_upd (s : State) (i : Nat) (x : EmberSt) : (setEmber s i x).upd = s.upd := rfl
@[simp] theorem setEmber_spdm0 (s : State) (i : Nat) (x : EmberSt) : (setEmber s i x).spdm0 = s.spdm0 := rfl
@[simp] theorem setEmber_spdm1 (s : State) (i : Nat) (x : EmberSt) : (setEmber s i x).spdm1 = s.spdm1 := rfl
@[simp] theorem setEmber_smb (s : State) (i : Nat) (x : EmberSt) : (setEmber s i x).smb = s.smb := rfl
@[simp] theorem setEmber_pending (s : State) (i : Nat) (x : EmberSt) : (setEmber s i x).pending = s.pending := rfl

@[simp] theorem setMover_clock (s : State) (m : Nat) (x : Mover) : (setMover s m x).clock = s.clock := rfl
@[simp] theorem setMover_freeCtr (s : State) (m : Nat) (x : Mover) : (setMover s m x).freeCtr = s.freeCtr := rfl
@[simp] theorem setMover_tiles (s : State) (m : Nat) (x : Mover) : (setMover s m x).tiles = s.tiles := rfl
@[simp] theorem setMover_mem (s : State) (m : Nat) (x : Mover) : (setMover s m x).mem = s.mem := rfl
@[simp] theorem setMover_lk (s : State) (m : Nat) (x : Mover) : (setMover s m x).lk = s.lk := rfl
@[simp] theorem setMover_fab (s : State) (m : Nat) (x : Mover) : (setMover s m x).fab = s.fab := rfl
@[simp] theorem setMover_pwr (s : State) (m : Nat) (x : Mover) : (setMover s m x).pwr = s.pwr := rfl
@[simp] theorem setMover_kiln (s : State) (m : Nat) (x : Mover) : (setMover s m x).kiln = s.kiln := rfl
@[simp] theorem setMover_p0 (s : State) (m : Nat) (x : Mover) : (setMover s m x).p0 = s.p0 := rfl
@[simp] theorem setMover_p1 (s : State) (m : Nat) (x : Mover) : (setMover s m x).p1 = s.p1 := rfl
@[simp] theorem setMover_boot (s : State) (m : Nat) (x : Mover) : (setMover s m x).boot = s.boot := rfl
@[simp] theorem setMover_flash (s : State) (m : Nat) (x : Mover) : (setMover s m x).flash = s.flash := rfl
@[simp] theorem setMover_upd (s : State) (m : Nat) (x : Mover) : (setMover s m x).upd = s.upd := rfl
@[simp] theorem setMover_spdm0 (s : State) (m : Nat) (x : Mover) : (setMover s m x).spdm0 = s.spdm0 := rfl
@[simp] theorem setMover_spdm1 (s : State) (m : Nat) (x : Mover) : (setMover s m x).spdm1 = s.spdm1 := rfl
@[simp] theorem setMover_smb (s : State) (m : Nat) (x : Mover) : (setMover s m x).smb = s.smb := rfl
@[simp] theorem setMover_pending (s : State) (m : Nat) (x : Mover) : (setMover s m x).pending = s.pending := rfl

@[simp] theorem updRing_clock (s : State) (f : RingState → RingState) : (updRing s f).clock = s.clock := rfl
@[simp] theorem updRing_freeCtr (s : State) (f : RingState → RingState) : (updRing s f).freeCtr = s.freeCtr := rfl
@[simp] theorem updRing_tiles (s : State) (f : RingState → RingState) : (updRing s f).tiles = s.tiles := rfl
@[simp] theorem updRing_mem (s : State) (f : RingState → RingState) : (updRing s f).mem = s.mem := rfl
@[simp] theorem updRing_lk (s : State) (f : RingState → RingState) : (updRing s f).lk = s.lk := rfl
@[simp] theorem updRing_fab (s : State) (f : RingState → RingState) : (updRing s f).fab = s.fab := rfl
@[simp] theorem updRing_pwr (s : State) (f : RingState → RingState) : (updRing s f).pwr = s.pwr := rfl
@[simp] theorem updRing_kiln (s : State) (f : RingState → RingState) : (updRing s f).kiln = s.kiln := rfl
@[simp] theorem updRing_p0 (s : State) (f : RingState → RingState) : (updRing s f).p0 = s.p0 := rfl
@[simp] theorem updRing_p1 (s : State) (f : RingState → RingState) : (updRing s f).p1 = s.p1 := rfl
@[simp] theorem updRing_boot (s : State) (f : RingState → RingState) : (updRing s f).boot = s.boot := rfl
@[simp] theorem updRing_flash (s : State) (f : RingState → RingState) : (updRing s f).flash = s.flash := rfl
@[simp] theorem updRing_upd (s : State) (f : RingState → RingState) : (updRing s f).upd = s.upd := rfl
@[simp] theorem updRing_spdm0 (s : State) (f : RingState → RingState) : (updRing s f).spdm0 = s.spdm0 := rfl
@[simp] theorem updRing_spdm1 (s : State) (f : RingState → RingState) : (updRing s f).spdm1 = s.spdm1 := rfl
@[simp] theorem updRing_smb (s : State) (f : RingState → RingState) : (updRing s f).smb = s.smb := rfl
@[simp] theorem updRing_pending (s : State) (f : RingState → RingState) : (updRing s f).pending = s.pending := rfl

@[simp] theorem updFab_clock (s : State) (f : FabState → FabState) : (updFab s f).clock = s.clock := rfl
@[simp] theorem updFab_freeCtr (s : State) (f : FabState → FabState) : (updFab s f).freeCtr = s.freeCtr := rfl
@[simp] theorem updFab_tiles (s : State) (f : FabState → FabState) : (updFab s f).tiles = s.tiles := rfl
@[simp] theorem updFab_ring (s : State) (f : FabState → FabState) : (updFab s f).ring = s.ring := rfl
@[simp] theorem updFab_mem (s : State) (f : FabState → FabState) : (updFab s f).mem = s.mem := rfl
@[simp] theorem updFab_lk (s : State) (f : FabState → FabState) : (updFab s f).lk = s.lk := rfl
@[simp] theorem updFab_pwr (s : State) (f : FabState → FabState) : (updFab s f).pwr = s.pwr := rfl
@[simp] theorem updFab_kiln (s : State) (f : FabState → FabState) : (updFab s f).kiln = s.kiln := rfl
@[simp] theorem updFab_p0 (s : State) (f : FabState → FabState) : (updFab s f).p0 = s.p0 := rfl
@[simp] theorem updFab_p1 (s : State) (f : FabState → FabState) : (updFab s f).p1 = s.p1 := rfl
@[simp] theorem updFab_boot (s : State) (f : FabState → FabState) : (updFab s f).boot = s.boot := rfl
@[simp] theorem updFab_flash (s : State) (f : FabState → FabState) : (updFab s f).flash = s.flash := rfl
@[simp] theorem updFab_upd (s : State) (f : FabState → FabState) : (updFab s f).upd = s.upd := rfl
@[simp] theorem updFab_spdm0 (s : State) (f : FabState → FabState) : (updFab s f).spdm0 = s.spdm0 := rfl
@[simp] theorem updFab_spdm1 (s : State) (f : FabState → FabState) : (updFab s f).spdm1 = s.spdm1 := rfl
@[simp] theorem updFab_smb (s : State) (f : FabState → FabState) : (updFab s f).smb = s.smb := rfl
@[simp] theorem updFab_pending (s : State) (f : FabState → FabState) : (updFab s f).pending = s.pending := rfl

@[simp] theorem updLinks_clock (s : State) (f : LinkState → LinkState) : (updLinks s f).clock = s.clock := rfl
@[simp] theorem updLinks_freeCtr (s : State) (f : LinkState → LinkState) : (updLinks s f).freeCtr = s.freeCtr := rfl
@[simp] theorem updLinks_tiles (s : State) (f : LinkState → LinkState) : (updLinks s f).tiles = s.tiles := rfl
@[simp] theorem updLinks_ring (s : State) (f : LinkState → LinkState) : (updLinks s f).ring = s.ring := rfl
@[simp] theorem updLinks_mem (s : State) (f : LinkState → LinkState) : (updLinks s f).mem = s.mem := rfl
@[simp] theorem updLinks_fab (s : State) (f : LinkState → LinkState) : (updLinks s f).fab = s.fab := rfl
@[simp] theorem updLinks_pwr (s : State) (f : LinkState → LinkState) : (updLinks s f).pwr = s.pwr := rfl
@[simp] theorem updLinks_kiln (s : State) (f : LinkState → LinkState) : (updLinks s f).kiln = s.kiln := rfl
@[simp] theorem updLinks_p0 (s : State) (f : LinkState → LinkState) : (updLinks s f).p0 = s.p0 := rfl
@[simp] theorem updLinks_p1 (s : State) (f : LinkState → LinkState) : (updLinks s f).p1 = s.p1 := rfl
@[simp] theorem updLinks_boot (s : State) (f : LinkState → LinkState) : (updLinks s f).boot = s.boot := rfl
@[simp] theorem updLinks_flash (s : State) (f : LinkState → LinkState) : (updLinks s f).flash = s.flash := rfl
@[simp] theorem updLinks_upd (s : State) (f : LinkState → LinkState) : (updLinks s f).upd = s.upd := rfl
@[simp] theorem updLinks_spdm0 (s : State) (f : LinkState → LinkState) : (updLinks s f).spdm0 = s.spdm0 := rfl
@[simp] theorem updLinks_spdm1 (s : State) (f : LinkState → LinkState) : (updLinks s f).spdm1 = s.spdm1 := rfl
@[simp] theorem updLinks_smb (s : State) (f : LinkState → LinkState) : (updLinks s f).smb = s.smb := rfl
@[simp] theorem updLinks_pending (s : State) (f : LinkState → LinkState) : (updLinks s f).pending = s.pending := rfl

@[simp] theorem updLink_clock (s : State) (l : Nat) (f : LinkPort → LinkPort) : (updLink s l f).clock = s.clock := rfl
@[simp] theorem updLink_freeCtr (s : State) (l : Nat) (f : LinkPort → LinkPort) : (updLink s l f).freeCtr = s.freeCtr := rfl
@[simp] theorem updLink_tiles (s : State) (l : Nat) (f : LinkPort → LinkPort) : (updLink s l f).tiles = s.tiles := rfl
@[simp] theorem updLink_ring (s : State) (l : Nat) (f : LinkPort → LinkPort) : (updLink s l f).ring = s.ring := rfl
@[simp] theorem updLink_mem (s : State) (l : Nat) (f : LinkPort → LinkPort) : (updLink s l f).mem = s.mem := rfl
@[simp] theorem updLink_fab (s : State) (l : Nat) (f : LinkPort → LinkPort) : (updLink s l f).fab = s.fab := rfl
@[simp] theorem updLink_pwr (s : State) (l : Nat) (f : LinkPort → LinkPort) : (updLink s l f).pwr = s.pwr := rfl
@[simp] theorem updLink_kiln (s : State) (l : Nat) (f : LinkPort → LinkPort) : (updLink s l f).kiln = s.kiln := rfl
@[simp] theorem updLink_p0 (s : State) (l : Nat) (f : LinkPort → LinkPort) : (updLink s l f).p0 = s.p0 := rfl
@[simp] theorem updLink_p1 (s : State) (l : Nat) (f : LinkPort → LinkPort) : (updLink s l f).p1 = s.p1 := rfl
@[simp] theorem updLink_boot (s : State) (l : Nat) (f : LinkPort → LinkPort) : (updLink s l f).boot = s.boot := rfl
@[simp] theorem updLink_flash (s : State) (l : Nat) (f : LinkPort → LinkPort) : (updLink s l f).flash = s.flash := rfl
@[simp] theorem updLink_upd (s : State) (l : Nat) (f : LinkPort → LinkPort) : (updLink s l f).upd = s.upd := rfl
@[simp] theorem updLink_spdm0 (s : State) (l : Nat) (f : LinkPort → LinkPort) : (updLink s l f).spdm0 = s.spdm0 := rfl
@[simp] theorem updLink_spdm1 (s : State) (l : Nat) (f : LinkPort → LinkPort) : (updLink s l f).spdm1 = s.spdm1 := rfl
@[simp] theorem updLink_smb (s : State) (l : Nat) (f : LinkPort → LinkPort) : (updLink s l f).smb = s.smb := rfl
@[simp] theorem updLink_pending (s : State) (l : Nat) (f : LinkPort → LinkPort) : (updLink s l f).pending = s.pending := rfl

@[simp] theorem updPwr_clock (s : State) (f : PwrState → PwrState) : (updPwr s f).clock = s.clock := rfl
@[simp] theorem updPwr_freeCtr (s : State) (f : PwrState → PwrState) : (updPwr s f).freeCtr = s.freeCtr := rfl
@[simp] theorem updPwr_tiles (s : State) (f : PwrState → PwrState) : (updPwr s f).tiles = s.tiles := rfl
@[simp] theorem updPwr_ring (s : State) (f : PwrState → PwrState) : (updPwr s f).ring = s.ring := rfl
@[simp] theorem updPwr_mem (s : State) (f : PwrState → PwrState) : (updPwr s f).mem = s.mem := rfl
@[simp] theorem updPwr_lk (s : State) (f : PwrState → PwrState) : (updPwr s f).lk = s.lk := rfl
@[simp] theorem updPwr_fab (s : State) (f : PwrState → PwrState) : (updPwr s f).fab = s.fab := rfl
@[simp] theorem updPwr_kiln (s : State) (f : PwrState → PwrState) : (updPwr s f).kiln = s.kiln := rfl
@[simp] theorem updPwr_p0 (s : State) (f : PwrState → PwrState) : (updPwr s f).p0 = s.p0 := rfl
@[simp] theorem updPwr_p1 (s : State) (f : PwrState → PwrState) : (updPwr s f).p1 = s.p1 := rfl
@[simp] theorem updPwr_boot (s : State) (f : PwrState → PwrState) : (updPwr s f).boot = s.boot := rfl
@[simp] theorem updPwr_flash (s : State) (f : PwrState → PwrState) : (updPwr s f).flash = s.flash := rfl
@[simp] theorem updPwr_upd (s : State) (f : PwrState → PwrState) : (updPwr s f).upd = s.upd := rfl
@[simp] theorem updPwr_spdm0 (s : State) (f : PwrState → PwrState) : (updPwr s f).spdm0 = s.spdm0 := rfl
@[simp] theorem updPwr_spdm1 (s : State) (f : PwrState → PwrState) : (updPwr s f).spdm1 = s.spdm1 := rfl
@[simp] theorem updPwr_smb (s : State) (f : PwrState → PwrState) : (updPwr s f).smb = s.smb := rfl
@[simp] theorem updPwr_pending (s : State) (f : PwrState → PwrState) : (updPwr s f).pending = s.pending := rfl

@[simp] theorem setReport_clock (s : State) (n : Nat) (w : Word) : (setReport s n w).clock = s.clock := rfl
@[simp] theorem setReport_freeCtr (s : State) (n : Nat) (w : Word) : (setReport s n w).freeCtr = s.freeCtr := rfl
@[simp] theorem setReport_tiles (s : State) (n : Nat) (w : Word) : (setReport s n w).tiles = s.tiles := rfl
@[simp] theorem setReport_ring (s : State) (n : Nat) (w : Word) : (setReport s n w).ring = s.ring := rfl
@[simp] theorem setReport_mem (s : State) (n : Nat) (w : Word) : (setReport s n w).mem = s.mem := rfl
@[simp] theorem setReport_lk (s : State) (n : Nat) (w : Word) : (setReport s n w).lk = s.lk := rfl
@[simp] theorem setReport_fab (s : State) (n : Nat) (w : Word) : (setReport s n w).fab = s.fab := rfl
@[simp] theorem setReport_pwr (s : State) (n : Nat) (w : Word) : (setReport s n w).pwr = s.pwr := rfl
@[simp] theorem setReport_kiln (s : State) (n : Nat) (w : Word) : (setReport s n w).kiln = s.kiln := rfl
@[simp] theorem setReport_p0 (s : State) (n : Nat) (w : Word) : (setReport s n w).p0 = s.p0 := rfl
@[simp] theorem setReport_p1 (s : State) (n : Nat) (w : Word) : (setReport s n w).p1 = s.p1 := rfl
@[simp] theorem setReport_flash (s : State) (n : Nat) (w : Word) : (setReport s n w).flash = s.flash := rfl
@[simp] theorem setReport_upd (s : State) (n : Nat) (w : Word) : (setReport s n w).upd = s.upd := rfl
@[simp] theorem setReport_spdm0 (s : State) (n : Nat) (w : Word) : (setReport s n w).spdm0 = s.spdm0 := rfl
@[simp] theorem setReport_spdm1 (s : State) (n : Nat) (w : Word) : (setReport s n w).spdm1 = s.spdm1 := rfl
@[simp] theorem setReport_smb (s : State) (n : Nat) (w : Word) : (setReport s n w).smb = s.smb := rfl
@[simp] theorem setReport_pending (s : State) (n : Nat) (w : Word) : (setReport s n w).pending = s.pending := rfl

/-! A host port: port 0 or 1 changes, nothing else. -/

@[simp] theorem setHost_clock (s : State) (p : Nat) (x : HostPort) : (setHost s p x).clock = s.clock := by unfold setHost; split <;> rfl
@[simp] theorem updHost_clock (s : State) (p : Nat) (f : HostPort → HostPort) : (updHost s p f).clock = s.clock := setHost_clock _ _ _
@[simp] theorem setHost_freeCtr (s : State) (p : Nat) (x : HostPort) : (setHost s p x).freeCtr = s.freeCtr := by unfold setHost; split <;> rfl
@[simp] theorem updHost_freeCtr (s : State) (p : Nat) (f : HostPort → HostPort) : (updHost s p f).freeCtr = s.freeCtr := setHost_freeCtr _ _ _
@[simp] theorem setHost_tiles (s : State) (p : Nat) (x : HostPort) : (setHost s p x).tiles = s.tiles := by unfold setHost; split <;> rfl
@[simp] theorem updHost_tiles (s : State) (p : Nat) (f : HostPort → HostPort) : (updHost s p f).tiles = s.tiles := setHost_tiles _ _ _
@[simp] theorem setHost_ring (s : State) (p : Nat) (x : HostPort) : (setHost s p x).ring = s.ring := by unfold setHost; split <;> rfl
@[simp] theorem updHost_ring (s : State) (p : Nat) (f : HostPort → HostPort) : (updHost s p f).ring = s.ring := setHost_ring _ _ _
@[simp] theorem setHost_mem (s : State) (p : Nat) (x : HostPort) : (setHost s p x).mem = s.mem := by unfold setHost; split <;> rfl
@[simp] theorem updHost_mem (s : State) (p : Nat) (f : HostPort → HostPort) : (updHost s p f).mem = s.mem := setHost_mem _ _ _
@[simp] theorem setHost_lk (s : State) (p : Nat) (x : HostPort) : (setHost s p x).lk = s.lk := by unfold setHost; split <;> rfl
@[simp] theorem updHost_lk (s : State) (p : Nat) (f : HostPort → HostPort) : (updHost s p f).lk = s.lk := setHost_lk _ _ _
@[simp] theorem setHost_fab (s : State) (p : Nat) (x : HostPort) : (setHost s p x).fab = s.fab := by unfold setHost; split <;> rfl
@[simp] theorem updHost_fab (s : State) (p : Nat) (f : HostPort → HostPort) : (updHost s p f).fab = s.fab := setHost_fab _ _ _
@[simp] theorem setHost_pwr (s : State) (p : Nat) (x : HostPort) : (setHost s p x).pwr = s.pwr := by unfold setHost; split <;> rfl
@[simp] theorem updHost_pwr (s : State) (p : Nat) (f : HostPort → HostPort) : (updHost s p f).pwr = s.pwr := setHost_pwr _ _ _
@[simp] theorem setHost_kiln (s : State) (p : Nat) (x : HostPort) : (setHost s p x).kiln = s.kiln := by unfold setHost; split <;> rfl
@[simp] theorem updHost_kiln (s : State) (p : Nat) (f : HostPort → HostPort) : (updHost s p f).kiln = s.kiln := setHost_kiln _ _ _
@[simp] theorem setHost_boot (s : State) (p : Nat) (x : HostPort) : (setHost s p x).boot = s.boot := by unfold setHost; split <;> rfl
@[simp] theorem updHost_boot (s : State) (p : Nat) (f : HostPort → HostPort) : (updHost s p f).boot = s.boot := setHost_boot _ _ _
@[simp] theorem setHost_flash (s : State) (p : Nat) (x : HostPort) : (setHost s p x).flash = s.flash := by unfold setHost; split <;> rfl
@[simp] theorem updHost_flash (s : State) (p : Nat) (f : HostPort → HostPort) : (updHost s p f).flash = s.flash := setHost_flash _ _ _
@[simp] theorem setHost_upd (s : State) (p : Nat) (x : HostPort) : (setHost s p x).upd = s.upd := by unfold setHost; split <;> rfl
@[simp] theorem updHost_upd (s : State) (p : Nat) (f : HostPort → HostPort) : (updHost s p f).upd = s.upd := setHost_upd _ _ _
@[simp] theorem setHost_spdm0 (s : State) (p : Nat) (x : HostPort) : (setHost s p x).spdm0 = s.spdm0 := by unfold setHost; split <;> rfl
@[simp] theorem updHost_spdm0 (s : State) (p : Nat) (f : HostPort → HostPort) : (updHost s p f).spdm0 = s.spdm0 := setHost_spdm0 _ _ _
@[simp] theorem setHost_spdm1 (s : State) (p : Nat) (x : HostPort) : (setHost s p x).spdm1 = s.spdm1 := by unfold setHost; split <;> rfl
@[simp] theorem updHost_spdm1 (s : State) (p : Nat) (f : HostPort → HostPort) : (updHost s p f).spdm1 = s.spdm1 := setHost_spdm1 _ _ _
@[simp] theorem setHost_smb (s : State) (p : Nat) (x : HostPort) : (setHost s p x).smb = s.smb := by unfold setHost; split <;> rfl
@[simp] theorem updHost_smb (s : State) (p : Nat) (f : HostPort → HostPort) : (updHost s p f).smb = s.smb := setHost_smb _ _ _
@[simp] theorem setHost_pending (s : State) (p : Nat) (x : HostPort) : (setHost s p x).pending = s.pending := by unfold setHost; split <;> rfl
@[simp] theorem updHost_pending (s : State) (p : Nat) (f : HostPort → HostPort) : (updHost s p f).pending = s.pending := setHost_pending _ _ _

/-! Reading after an update. -/

@[simp] theorem tileOf_setTile (s : State) (t u : Nat) (x : Tile) : tileOf (setTile s t x) u = if t = u then x else tileOf s u :=
  smGet_smSet tileInit s.tiles t u x
@[simp] theorem partOf_setPart (s : State) (t u : Nat) (x : PartSt) : partOf (setPart s t x) u = if t = u then x else partOf s u :=
  smGet_smSet part0 s.kiln.parts t u x
@[simp] theorem ctxOf_setCtx (s : State) (t u : Nat) (x : Ctx) : ctxOf (setCtx s t x) u = if t = u then x else ctxOf s u :=
  smGet_smSet ctx0 s.kiln.ctxs t u x
@[simp] theorem emberOf_setEmber (s : State) (t u : Nat) (x : EmberSt) : emberOf (setEmber s t x) u = if t = u then x else emberOf s u :=
  smGet_smSet ember0 s.kiln.embers t u x
@[simp] theorem moverOf_setMover (s : State) (t u : Nat) (x : Mover) : moverOf (setMover s t x) u = if t = u then x else moverOf s u :=
  smGet_smSet mover0 s.ring.movers t u x
@[simp] theorem portOf_setPort (s : LinkState) (t u : Nat) (x : LinkPort) : portOf (setPort s t x) u = if t = u then x else portOf s u :=
  smGet_smSet portInit s.ports t u x
@[simp] theorem bladeOf_setBlade (s : LinkState) (t u : Nat) (x : Blade) : bladeOf (setBlade s t x) u = if t = u then x else bladeOf s u :=
  smGet_smSet blade0 s.blades t u x
@[simp] theorem fieldOf_setField (s : PwrState) (t u : Nat) (x : FieldSt) : fieldOf (setField s t x) u = if t = u then x else fieldOf s u :=
  smGet_smSet field0 s.fields t u x
@[simp] theorem regionOf_setRegion (s : PwrState) (t u : Nat) (x : RegionSt) : regionOf (setRegion s t x) u = if t = u then x else regionOf s u :=
  smGet_smSet region0 s.regions t u x
@[simp] theorem policyOf_setPolicy (s : PwrState) (t u : Nat) (x : PolicySt) : policyOf (setPolicy s t x) u = if t = u then x else policyOf s u :=
  smGet_smSet policy0 s.policies t u x
@[simp] theorem mbxOf_setMbx (s : HostPort) (t u : Nat) (x : Mbx) : mbxOf (setMbx s t x) u = if t = u then x else mbxOf s u :=
  smGet_smSet mbx0 s.mbx t u x
@[simp] theorem tagOf_setTag (s : Tile) (t u : Nat) (x : SlotTag) : tagOf (setTag s t x) u = if t = u then x else tagOf s u :=
  smGet_smSet tag0 s.tags t u x
@[simp] theorem tileOf_updTile (s : State) (t u : Nat) (f : Tile → Tile) : tileOf (updTile s t f) u = if t = u then f (tileOf s t) else tileOf s u :=
  tileOf_setTile s t u _
@[simp] theorem ctxOf_updCtx (s : State) (c d : Nat) (f : Ctx → Ctx) : ctxOf (updCtx s c f) d = if c = d then f (ctxOf s c) else ctxOf s d :=
  ctxOf_setCtx s c d _
@[simp] theorem hostOf_setHost (s : State) (p q : Nat) (x : HostPort) :
    hostOf (setHost s p x) q = if (p = 0 ↔ q = 0) then x else hostOf s q := by
  unfold hostOf setHost
  by_cases hp : p = 0 <;> by_cases hq : q = 0 <;> simp [hp, hq]
@[simp] theorem hostOf_updHost (s : State) (p q : Nat) (f : HostPort → HostPort) :
    hostOf (updHost s p f) q = if (p = 0 ↔ q = 0) then f (hostOf s p) else hostOf s q := hostOf_setHost s p q _

end Sys2Proof.Machine
end

