-- ==== Sys2Proof/WellFormed.lean ====
section
/-! DEFINITION. Which commands are well formed: the operand values that the spec reserves or that name nothing that exists. -/

namespace Sys2Proof

/-- Why a command is not well formed. -/
inductive IllFormed where
  /-- LDI MODE 3 is reserved (R109). -/
  | ldiMode
  /-- SALU FN above 10 is reserved (R109). -/
  | saluFn
  /-- RDSR SEL above 5 is reserved (R109). -/
  | rdsrSel
  /-- RMODE 3 is reserved (R57), and a function operation takes RMODE 0 only (R121, R132). -/
  | rmode
  /-- PJOIN 3 is reserved (R80, R132). -/
  | pjoin
  /-- ACLR with FIRST above LAST (R132). -/
  | aclrRange
  /-- An FMT that the operation does not take (R132). -/
  | fmt
  /-- A PLD whose entries would pass entry 8,191 (R132). -/
  | pldIdx
  /-- A frame that the tier does not have (R206). -/
  | frame
  /-- A page outside the device virtual space (R208). -/
  | page
  deriving DecidableEq, Repr

/-- The long formats' codes (R41). -/
def fmtCodeLong (c : Fin 16) : Bool := c.val == 8 || c.val == 9 || c.val == 10

/-- The MX formats' codes (R41). -/
def fmtCodeMx (c : Fin 16) : Bool := decide (c.val ≤ 5)

/-- A check that fails under a name. -/
def failIf (b : Bool) (e : IllFormed) : Option IllFormed := if b then some e else none

/-- A frame operand lies in its tier (R206, R207). -/
def frameOk (tier : Fin 2) (frame : Nat) : Bool := decide (frame < (if tier.val = 0 then 4194304 else 6291456))

/-- The first check that a command fails, if any. -/
def illFormed (i : Instr) : Option IllFormed :=
  match i with
  | .ldi _ _ m _ => failIf (m.val == 3) .ldiMode
  | .salu _ _ _ _ fn => failIf (decide (10 < fn.val)) .saluFn
  | .rdsr _ _ sel => failIf (decide (5 < sel.val)) .rdsrSel
  | .aclr _ a b => failIf (decide (b.val < a.val)) .aclrRange
  | .mode _ _ p => failIf (p.val == 3) .pjoin
  | .vmov _ f => failIf (f.rmode.val == 3) .rmode
  | .vbcast _ f => failIf (f.rmode.val == 3) .rmode
  | .vadd _ f => failIf (f.rmode.val == 3) .rmode
  | .vsub _ f => failIf (f.rmode.val == 3) .rmode
  | .vmul _ f => failIf (f.rmode.val == 3) .rmode
  | .vfma _ f => failIf (f.rmode.val == 3) .rmode
  | .vmax _ f => failIf (f.rmode.val == 3) .rmode
  | .vmin _ f => failIf (f.rmode.val == 3) .rmode
  | .vrsum _ f => failIf (f.rmode.val == 3) .rmode
  | .vrmax _ f => failIf (f.rmode.val == 3) .rmode
  | .vexp2 _ f => failIf (f.rmode.val != 0) .rmode
  | .vlog2 _ f => failIf (f.rmode.val != 0) .rmode
  | .vrcp _ f => failIf (f.rmode.val != 0) .rmode
  | .vrsq _ f => failIf (f.rmode.val != 0) .rmode
  | .vld _ f => (failIf (f.rmode.val == 3) .rmode).or (failIf (!fmtCodeLong f.fmt) .fmt)
  | .vst _ f => (failIf (f.rmode.val == 3) .rmode).or (failIf (!fmtCodeLong f.fmt) .fmt)
  | .vqnt _ f => (failIf (f.rmode.val == 3) .rmode).or (failIf (!fmtCodeMx f.fmt) .fmt)
  | .vdqt _ f => (failIf (f.rmode.val == 3) .rmode).or (failIf (!fmtCodeMx f.fmt) .fmt)
  | .vscan _ f => (failIf (f.rmode.val == 3) .rmode).or (failIf (!(fmtCodeLong f.fmt || fmtCodeMx f.fmt)) .fmt)
  | .vdig _ f => (failIf (f.rmode.val == 3) .rmode).or (failIf (!(fmtCodeLong f.fmt || fmtCodeMx f.fmt)) .fmt)
  | .pld _ _ idx _ _ => failIf (decide (2047 < idx.toNat)) .pldIdx
  | .memUncorrectable _ tier f => failIf (!frameOk tier f) .frame
  | .correctedErrorLimit tier e => failIf (!frameOk tier e.frame) .frame
  | .scrubError tier f => failIf (!frameOk tier f) .frame
  | .migrateCopyDone p _ => failIf (decide (2 ^ 24 ≤ p)) .page
  | .oldFrameRelease p => failIf (decide (2 ^ 24 ≤ p)) .page
  | .retirementCopy p _ => failIf (decide (2 ^ 24 ≤ p)) .page
  | .tmapEccError p => failIf (decide (2 ^ 24 ≤ p)) .page
  | _ => none

/-- A command is well formed. -/
def wellFormed (i : Instr) : Bool := (illFormed i).isNone

end Sys2Proof
end

