-- ==== Sys2Proof/Tests/Slice0.lean ====
section
/-! SUPPORT. The author's own tests: each check of WellFormed refuses an ill-formed command, the hypotheses of each statement are met by a
concrete state, and small results that the spec's tables and examples give. -/

namespace Sys2Proof.Tests

set_option Elab.async false

open Sys2Proof Sys2Proof.Machine

/-! The checks of WellFormed. -/

def vreg : VReg := ⟨1, 2, 3, 4, 0, 0, false⟩
def vmem (fmt : Fin 16) : VMem := ⟨1, 1, 2, fmt, 0, 0, false, false, false⟩

theorem test_ill_ldi_mode : illFormed (.ldi 0 1 3 0) = some .ldiMode := by decide
theorem test_ill_salu_fn : illFormed (.salu 0 1 2 3 11) = some .saluFn := by decide
theorem test_ill_rdsr_sel : illFormed (.rdsr 0 1 6) = some .rdsrSel := by decide
theorem test_ill_rmode : illFormed (.vadd 0 { vreg with rmode := 3 }) = some .rmode := by decide
theorem test_ill_rmode_fn : illFormed (.vexp2 0 { vreg with rmode := 1 }) = some .rmode := by decide
theorem test_ill_pjoin : illFormed (.mode 0 false 3) = some .pjoin := by decide
theorem test_ill_aclr : illFormed (.aclr 0 5 4) = some .aclrRange := by decide
theorem test_ill_fmt_long : illFormed (.vld 0 (vmem 0)) = some .fmt := by decide
theorem test_ill_fmt_mx : illFormed (.vqnt 0 (vmem 10)) = some .fmt := by decide
theorem test_ill_pld : illFormed (.pld 0 0 2048 false false) = some .pldIdx := by decide
theorem test_ill_frame_hbm : illFormed (.scrubError 0 4194304) = some .frame := by decide
theorem test_ill_frame_ddr : illFormed (.memUncorrectable .kiln 1 6291456) = some .frame := by decide
theorem test_ill_page : illFormed (.oldFrameRelease (2 ^ 24)) = some .page := by decide
theorem test_well_formed : wellFormed (.scrubError 1 6291455) = true ∧ wellFormed (.salu 0 1 2 3 10) = true ∧ wellFormed (.pwrEnAssert) = true := by
  decide

/-! Small states. -/

/-- Tile 0 is x in a module just reset. -/
def withTile0 (x : Tile) : State := setTile State.reset 0 x

/-- A tile that issues. -/
def runTile : Tile := { tileInit with st := .run, clkOn := true, oscOn := true }

/-- A tile that issues, with the descriptor w at entry 0 of its program store. -/
def descTile (w : Nat) : Tile := { runTile with store := [(0, ⟨true, BitVec.ofNat 128 w⟩)] }

/-- A write of one word to window 0 at an offset. -/
def aWrite (src : SrcKind) (offset : Nat) : InHdr := ⟨0, 0, 0, offset, 1, src, 5⟩

/-- A window of one word, the first of bank 12. -/
def aWindow : Window := ⟨true, 49152, 49152, false, 0, true, false, false, 0, 0⟩

/-- Partition 0 over field 0, owned by port 0 and powered, and Kiln at Stage 8. -/
def ready : State :=
  let s := setPart State.reset 0 { part0 with on := true, powered := true, fmask := 1 }
  { s with
    boot := { s.boot with running := true, stage := 8, state := 2 }
    kiln := { s.kiln with stat := 1 }
    pwr := (List.range 8).foldl (fun w n => setField w n { fieldOf w n with lact := 64, mact := 4, oact := 8, pact := 8 })
      { s.pwr with isOn := true, qualifier := true, pwrEn := true } }

/-- Its tile 0 is x. -/
def readyTile (x : Tile) : State := setTile ready 0 x

/-- Its page 0 is mapped to frame 0 of HBM4 for partition 0, writable. -/
def readyPage : State := { ready with mem := { tmapSet ready.mem 0 (teMake true 0 0 false 0) with stale := [], tmapBy := 0 } }

/-- Its context 0 belongs to port 0 and partition 0. -/
def readyCtx (f : Ctx → Ctx) : State := setCtx readyPage 0 (f { ctx0 with port := 0 })

/-- A step that runs. -/
def aRun : StepRun := newRun ready 0 7 1 0 0

/-- A transfer of two words that PUTM pulls from tile 0. -/
def aPull : PullXfer := ⟨1, 0, 1, ⟨0, 0, 0, 0⟩, 0, 0, 2, [], 0, 0, 0, false⟩

/-- Link 0's port is p. -/
def linkState (p : LinkPort) : State := { ready with lk := setPort ready.lk 0 p }

/-- A port in UP. -/
def upPort : LinkPort := { portInit with st := 3, fullTrain := false }

/-- A packet header of cord 0 from rank 1 to rank 0, of one group of 16 elements. -/
def aHdr (dst : BitVec 16) : PktHdr :=
  { dst := dst, src := 1, cord := 0, srank := 1, drank := 0, trow := 0, tcol := 0, win := 0, offset := 0, nwords := 1, dtr := false
    edge := 0, phase := 0, tag := 0, kelem := 16, elem := 0 }

/-- A cord of two ranks of which this module is rank 0. -/
def aCord : CordEntry := { cord0 with valid := true, rx := 2, btiles := 1 }

/-- Cord 0 is that cord, edge port 0 serves tile 0, and link 0 is UP towards the module at X xor 1. -/
def fabState : State :=
  let s := linkState upPort
  { s with
    ring := { s.ring with tables := [(0, 1)] }
    fab := { s.fab with addrOn := true, map := [(0, BitVec.ofNat 32 (2 ^ 29 + 2 ^ 22))], cords := [(0, aCord)] } }

/-! Steps and the control slot. -/

theorem wit_step_front : { State.reset with pending := [.pwrEnAssert, .forceOff] }.pending = .pwrEnAssert :: [.forceOff] := rfl

theorem wit_step_idle : State.reset.pending = [] := rfl

theorem wit_queue_kept : exec (.nop 0 0) State.reset = .next State.reset := rfl

theorem wit_absent_frame : exec (.scrubError 0 4194304) State.reset = .fault .noSuchFrame ∧
    exec (.scrubError 1 6291456) State.reset = .fault .noSuchFrame ∧ (∃ t, exec (.scrubError 0 4194303) State.reset = .next t) :=
  ⟨rfl, rfl, _, rfl⟩

theorem wit_control_results :
    let x := tileNow (tileOf (withTile0 runTile) 0)
    issuesAt (withTile0 runTile) 0 = true ∧ claimed x (x.cyc + 1) (.sc 15) = false ∧ claimed x (x.cyc + 1) (.ad 31) = false := by
  decide +kernel

theorem wit_write_conflict :
    let x := tileNow (tileOf (withTile0 { runTile with rclaim := [(1, .sc 15)] }) 0)
    issuesAt (withTile0 { runTile with rclaim := [(1, .sc 15)] }) 0 = true ∧ claimed x (x.cyc + 1) (.sc 15) = true := by
  decide +kernel

theorem wit_flow :
    let x := tileNow (tileOf (withTile0 { runTile with pc := 8191, sc := tileInit.sc.set 1 1 }) 0)
    issuesAt (withTile0 { runTile with pc := 8191 }) 0 = true ∧ x.pc < 8192 ∧ x.loops = [] ∧ scGet x 1 ≠ 0 ∧ scGet x 2 = 0 ∧
      (scGet x 2).toNat = 0 ∧ x.loops.length ≠ 4 := by decide +kernel

theorem wit_flow_full :
    let y : Tile := { runTile with loops := List.replicate 4 ⟨1, 2, 3⟩ }
    let x := tileNow (tileOf (withTile0 y) 0)
    issuesAt (withTile0 y) 0 = true ∧ x.pc < 8192 ∧ (0#12).toNat + 1 ≠ 0 ∧ x.loops.length = 4 := by decide +kernel

/-- R109: LDI of mode 1 sign-extends its immediate. -/
theorem test_ldi_signed :
    (match exec (.ldi 0 3 1 0x8000) (withTile0 runTile) with | .next n => (tileOf n 0).due | _ => []) = [(1, .sc 3 0xFFFF8000)] := by
  decide +kernel

/-- R109: SALU 8 and 9 compare as signed. -/
theorem test_salu_min :
    (match exec (.salu 0 1 2 3 8) (withTile0 { runTile with sc := tileInit.sc.set 3 0xFFFFFFFF }) with | .next n => (tileOf n 0).due | _ => []) =
      [(1, .sc 1 0xFFFFFFFF)] := by decide +kernel

theorem wit_array_wload :
    let s := withTile0 (descTile (1 * 2 ^ 124 + 128 * 2 ^ 105))
    let x := tileNow (tileOf s 0)
    let w := 1 * 2 ^ 124 + 128 * 2 ^ 105
    let l : LoadOp := ⟨x.cyc, .e2m1, bits w 113 7, bits w 105 8, bits w 83 22, bits w 61 22, [], []⟩
    issuesAt s 0 = true ∧ descOf x 0 1 = .ok w ∧ fmtOfCode (bits w 120 4) = some .e2m1 ∧
      (∀ o ∈ x.arr.loads, o.t + loadLen o ≤ x.cyc) ∧
      (∀ o ∈ x.arr.streams, o.swap = true → colsMeet l.col0 l.ncol o.prob.col0 o.prob.cols = true →
        o.t + 2 ≤ x.cyc ∨ x.cyc + loadLen l ≤ o.t + 2) := by
  refine ⟨by decide +kernel, rfl, by decide +kernel, by decide +kernel, by decide +kernel⟩

/-- A STREAM descriptor of one vector of FP4 elements. -/
def streamWord : Nat := 2 * 2 ^ 124

/-- The STREAM it issues. -/
def streamOp0 : StreamOp :=
  ⟨0, ⟨0, 128, 0, 128, false, 255⟩, .e2m1, 0, 0, 1, 1, 0, 0, true, [], [], none⟩

theorem wit_array_stream :
    let s := withTile0 (descTile streamWord)
    let x := tileNow (tileOf s 0)
    issuesAt s 0 = true ∧ descOf x 0 2 = .ok streamWord ∧ fmtOfCode (bits streamWord 120 4) = some .e2m1 ∧
      (problemOf x.arr.hsplit x.arr.pjoin 0 (arrayWidth x)).isSome = true ∧ bitAt streamWord 51 = x.arr.hsplit ∧
      x.arr.streams = [] ∧ x.arr.modeAt = none ∧ x.arr.loads = [] := by
  refine ⟨by decide +kernel, rfl, by decide +kernel, by decide +kernel, by decide +kernel, by decide +kernel, by decide +kernel, by decide +kernel⟩

theorem wit_array_stream_runs :
    let s := withTile0 (descTile streamWord)
    let x := tileNow (tileOf s 0)
    ((problemOf x.arr.hsplit x.arr.pjoin 0 (arrayWidth x)).map (fun p => (streamTest x { streamOp0 with prob := p, passes := 1 }).isNone)) = some true := by
  decide +kernel

/-- A DRAIN descriptor of one accumulator of 128 columns to FP32. -/
def drainWord : Nat := 3 * 2 ^ 124 + 10 * 2 ^ 120 + 1 * 2 ^ 105 + 128 * 2 ^ 90

theorem wit_array_drain :
    let s := withTile0 (descTile drainWord)
    let x := tileNow (tileOf s 0)
    issuesAt s 0 = true ∧ descOf x 0 3 = .ok drainWord ∧ fmtOfCode (bits drainWord 120 4) = some .fp32 ∧
      rmodeOf (bits drainWord 88 2) = some .rne ∧ fmtIsMx .fp32 = false ∧ x.arr.drains = [] ∧ x.vclaim = [] ∧ x.arr.streams = [] := by
  refine ⟨by decide +kernel, rfl, by decide +kernel, by decide +kernel, by decide +kernel, by decide +kernel, by decide +kernel, by decide +kernel⟩

/-! The vector slot. -/

theorem wit_vector_regs :
    let s := withTile0 runTile
    let x := tileNow (tileOf s 0)
    issuesAt s 0 = true ∧ rmodeOf vreg.rmode.val = some .rne ∧ vreg.rmode = 0 ∧
      lanesFree x vreg 1 = true ∧ lanesFree x vreg 4 = true ∧ lanesFree x vreg 6 = true ∧ lanesFree x vreg 8 = true ∧ lanesFree x vreg 10 = true := by
  decide +kernel

theorem wit_vector_memory :
    let s := withTile0 runTile
    let x := tileNow (tileOf s 0)
    issuesAt s 0 = true ∧ fmtOfCode (vmem 10).fmt.val = some .fp32 ∧ fmtOfCode (vmem 0).fmt.val = some .e2m1 ∧
      rmodeOf (vmem 10).rmode.val = some .rne ∧ fmtIsMx .fp32 = false ∧ fmtIsMx .e2m1 = true ∧ (adGet x 1).addr.toNat % 64 = 0 ∧
      x.vclaim = [] := by decide +kernel

theorem wit_vector_claims :
    let x := tileNow (tileOf (withTile0 runTile) 0)
    let ok (l : List (Nat × RegName)) := claimAll x (l ++ memClaims x (vmem 10)) = .ok (addClaims x (l ++ memClaims x (vmem 10)))
    ok [(x.cyc + 3, .v 1)] ∧ ok [(x.cyc + 4, .v 1)] ∧ ok [(x.cyc + 4, .sc 1)] ∧ ok [] := ⟨rfl, rfl, rfl, rfl⟩

/-- Address register 1 of the tile holds a. -/
def adTile (a : BitVec 22) : Tile := { runTile with ad := tileInit.ad.set 1 ⟨a, 0⟩ }

theorem wit_misaligned_long :
    let s := withTile0 (adTile 63)
    issuesAt s 0 = true ∧ fmtIsMx .fp32 = false ∧ (adGet (tileNow (tileOf s 0)) 1).addr.toNat % 64 ≠ 0 := by decide +kernel

theorem wit_misaligned_mx :
    let s := withTile0 (adTile 15)
    issuesAt s 0 = true ∧ fmtIsMx .e2m1 = true ∧ (adGet (tileNow (tileOf s 0)) 1).addr.toNat % 16 ≠ 0 := by decide +kernel

/-- R125: a VLD at 16, aligned for VQNT and not for VLD, is fault 0x09. -/
theorem test_vld_16_faults :
    (match exec (.vld 0 (vmem 10)) (withTile0 (adTile 16)) with | .next n => (tileOf n 0).fCode | _ => 0) = 0x09 := by decide +kernel

/-- R120: FP32 1 + 1 in lane 0 is 2 after 4 cycles. -/
theorem test_vadd_one :
    let one : Vector Word 64 := Vector.replicate 64 0x3F800000#32
    (match exec (.vadd 0 { vreg with vb := 2 }) (withTile0 { runTile with v := tileInit.v.set 2 one }) with
      | .next n => (tileOf n 0).due.map (fun d => (d.1, match d.2 with | .v k w => (k, w[0]) | _ => (0, 0)))
      | _ => []) = [(4, (1, 0x40000000#32))] := by decide +kernel

/-! The move slot. -/

theorem wit_move_put :
    let w := 4 * 2 ^ 124
    let s := withTile0 (descTile w)
    let x := tileNow (tileOf s 0)
    issuesAt s 0 = true ∧ descOf x 0 4 = .ok w ∧ claimed x (x.cyc + 1) (.ad 1) = false ∧ x.oclaim = [] := by
  refine ⟨by decide +kernel, rfl, by decide +kernel, by decide +kernel⟩

theorem wit_move_mreq :
    let w := 5 * 2 ^ 124 + 63 * 2 ^ 115
    let s := withTile0 { descTile w with mreqOut := 31 }
    let x := tileNow (tileOf s 0)
    issuesAt s 0 = true ∧ descOf x 0 5 = .ok w ∧ x.oclaim = [] ∧ (adGet x 1).addr.toNat % 64 = 0 ∧
      (adGet x 1).addr.toNat % 4096 + 64 * (bits w 115 6 + 1) ≤ 4096 ∧ x.mreqOut < 32 ∧ (movBlocked x (.mreq 1 0 false)).isNone = true := by
  refine ⟨by decide +kernel, rfl, by decide +kernel, by decide +kernel, by decide +kernel, by decide +kernel, by decide +kernel⟩

theorem wit_move_windows :
    let w := 6 * 2 ^ 124
    let s := withTile0 (descTile w)
    let x := tileNow (tileOf s 0)
    issuesAt s 0 = true ∧ descOf x 0 6 = .ok w ∧ (movBlocked x (.wopen 15 0)).isNone = true ∧ (tagOf x 1023).st ≠ .lent ∧
      (2047#12).toNat ≤ 2047 ∧ (∀ p ∈ soonEntries x, p < 4 * 2047 ∨ 4 * 2047 + 4 ≤ p) := by
  refine ⟨by decide +kernel, rfl, by decide +kernel, by decide +kernel, by decide +kernel, by decide +kernel⟩

/-- Slot 1023 of the tile is LENT. -/
def lentTile : Tile := { runTile with tags := [(1023, ⟨.lent, 0⟩)] }

theorem wit_lent :
    issuesAt (withTile0 lentTile) 0 = true ∧ (tagOf (tileNow (tileOf (withTile0 lentTile) 0)) 1023).st = .lent := by decide +kernel

/-! Physical cycles. -/

theorem wit_cycle_completes :
    let s := withTile0 { runTile with cyc := 1 }
    let y := tileAt (tileOf s 0) ⟨none, none, none⟩
    let ps := (envOf s 0 ⟨none, none, none⟩).partners
    let i := tileIssue 0 y
    (tileOf s 0).st = .run ∧ (tileOf s 0).oscOn = true ∧ (tileOf s 0).confQ = [] ∧ (tileOf s 0).cyc ≠ 2 ^ 31 ∧ beatHeld y ps = false ∧ wordLate y ps = false ∧
      (accessBlocked y (cycleTransfers i.tile).flatten).isNone = true ∧ (movBlocked y i.mov).isNone = true ∧ isMreq i.mov = false ∧
      localBlocked 0 y = false := by decide +kernel

/-- Partition 0 over field 0, whose tile 0 runs. -/
def partTile0 (x : Tile) : State := setPart (withTile0 x) 0 { part0 with on := true, powered := true, fmask := 1 }

theorem wit_cycle_beat_held :
    let s := partTile0 runTile
    (tileOf s 0).st = .run ∧ (tileOf s 0).oscOn = true ∧ (tileOf s 0).confQ = [] ∧ beatHeld (tileAt (tileOf s 0) ⟨none, none, none⟩) (envOf s 0 ⟨none, none, none⟩).partners = true := by decide +kernel

theorem wit_cycle_word_late :
    let s := withTile0 { runTile with meshMode := 1, cyc := 5 }
    let y := tileAt (tileOf s 0) ⟨none, none, none⟩
    let ps := (envOf s 0 ⟨none, none, none⟩).partners
    (tileOf s 0).st = .run ∧ (tileOf s 0).oscOn = true ∧ (tileOf s 0).confQ = [] ∧ beatHeld y ps = false ∧ wordLate y ps = true := by decide +kernel

/-- The tile serves a bank conflict. -/
theorem wit_cycle_conflict :
    let x := tileOf (withTile0 { runTile with confQ := [1] }) 0
    x.st = .run ∧ x.oscOn = true ∧ x.confQ ≠ [] ∧ x.cyc ≠ 2 ^ 31 := by decide +kernel

theorem wit_balance :
    let s := withTile0 runTile
    ((∃ n, exec (.logicalCycle 0 ⟨none, none, none⟩) s = .next n) ∧ (∃ n, exec (.saddi 0 1 0 1) s = .next n) ∧
      (∃ n, exec (.vst 0 (vmem 10)) s = .next n) ∧ (∃ n, exec (.tempty 0 0) s = .next n) ∧ (∃ n, exec (.mreq 0 0 0 false) s = .next n)) ∧
    ((tileOf s 0).st = .run → (tileOf s 0).clkOn = true) ∧ (tileOf s 0).phys = (tileOf s 0).logical + (tileOf s 0).hold := by
  refine ⟨⟨⟨_, rfl⟩, ⟨_, rfl⟩, ⟨_, rfl⟩, ⟨_, rfl⟩, _, rfl⟩, by decide +kernel, by decide +kernel⟩

theorem wit_token :
    smGet [] (tileOf (withTile0 { runTile with tokWire := [(0, [⟨0, false⟩])] }) 0).tokWire (dirNum .n) = ⟨0, false⟩ :: [] := by decide +kernel

theorem wit_cycle_limit :
    let x := tileOf (withTile0 { runTile with cyc := 2 ^ 31 }) 0
    x.st = .run ∧ x.cyc = 2 ^ 31 ∧ x.doneIss = false := by decide +kernel

theorem wit_tag_stall :
    let x := tileOf (withTile0 { runTile with tagHold := 2 ^ 24 }) 0
    let y := tileOf (withTile0 { runTile with inHold := 2 ^ 24 }) 0
    (2 ^ 24 ≤ x.tagHold ∧ x.holdStall = false) ∧ 2 ^ 24 ≤ y.inHold ∧ y.holdStall = false := by decide +kernel

theorem wit_flit :
    smGet [] (tileOf (withTile0 { runTile with wire := [(4, [⟨3, none, none, none, none⟩])] }) 0).wire (dirNum .x) =
      ⟨3, none, none, none, none⟩ :: [] := by decide +kernel

theorem wit_bown : issuesAt (withTile0 runTile) 0 = true := by decide +kernel

/-- R138: BOWN of bank 15 gives it to port 0 one cycle later, and bank 14 stays with its port. -/
theorem test_bown_next_cycle :
    (match exec (.bown 0 0x8000 0) (withTile0 runTile) with
      | .next n => let y := tileOf n 0; (bankOwner y 15, bankOwner (settleDue { y with cyc := y.cyc + 1 }) 15, bankOwner (settleDue { y with cyc := y.cyc + 1 }) 14)
      | _ => (0, 0, 0)) = (3, 0, 3) := by decide +kernel

/-- R481: a TFULL on a slot that still awaits its GET makes it loose; the end of the GET ends that; the tag change of the GET itself does not. -/
theorem test_loose_slot :
    let t := { tileInit with mreqIn := [3], tags := smSet tag0 [] 3 ⟨.empty, 0⟩ }
    (applyDue t (.tag 3 .full)).loose.slots = [3] ∧ (applyDue t (.tag 3 .empty)).loose.slots = [] ∧
      (applyDue tileInit (.mtag 3 .empty)).loose.slots = [] ∧ (finishDelivery (applyDue t (.tag 3 .full)) 3).loose.slots = [] := by decide

/-- The test vectors of R329. -/
theorem test_rng_vectors : rng 0 0 0 0 0 = 0x96B552D0D1F4397E ∧ rng 0 0 0 0 1 = 0x5207BD1507276D6A := by decide +kernel

/-- R329: the state after round 0 of the first vector. -/
theorem test_rng_round0 :
    rngRound (rngKey 0) 0 ⟨0, 0, 0, 0⟩ = ⟨0xCF9031A4, 0x00BD6125, 0x9F9BE7B6, 0x854EEEB3⟩ := by decide +kernel
/-! Tile control, windows and the inbound path. -/

theorem wit_start :
    (tileOf (readyTile runTile) 0).st ≠ .idle ∧ tilePowered State.reset 0 = false ∧ (tileOf ready 0).st = .idle ∧ tilePowered ready 0 = true ∧
      partnerOf ready 0 .e = some 1 ∧ 1 ≠ (0 : Fin 2048).val ∧ 2 ≠ (0 : Fin 2048).val ∧
      (∀ d ∈ [Dir.n, .e, .s, .w, .x], partnerOf ready 0 d ≠ some 2) := by decide +kernel

theorem wit_abort_halt :
    let s (x : Tile) := readyTile x
    (tileOf (s runTile) 0).st = .run ∧ tilePowered (s runTile) 0 = true ∧ tilePowered State.reset 0 = false ∧
      beatHeld (tileOf (s { runTile with cyc := 31 }) 0) (partnerDirs (s { runTile with cyc := 31 }) 0) = false ∧
      (tileOf (s { runTile with confQ := [1] }) 0).confQ ≠ [] ∧
      beatHeld (tileOf (s { runTile with cyc := 32 }) 0) (partnerDirs (s { runTile with cyc := 32 }) 0) = true ∧
      (tileOf (s { runTile with cyc := 32 }) 0).confQ = [] ∧ partnerOf (s { runTile with cyc := 32 }) 0 .s = some 64 := by
  decide +kernel

theorem wit_control_messages :
    tilePowered ready 0 = true ∧ tilePowered State.reset 0 = false ∧ (0x80000000 : Word).msb = true ∧
      ctlMsg .regWrite true 1 false 5 = ctlMsg .regWrite true 1 false 5 ∧
      (let x := tileOf (readyTile { runTile with regReads := [(4, 0)] }) 0; x.notices = [] ∧ x.regReads = (4, 0) :: []) ∧
      (tileOf (readyTile { runTile with notices := [.done] }) 0).notices = .done :: [] ∧ ready.kiln.stat ≠ 2 ∧
      ({ ready with kiln := { ready.kiln with stat := 2 } }).kiln.stat = 2 := by decide +kernel

/-- R170: a REG_WRITE to tile (20, 3) crosses port ES 3 with TYPE 0x04, DIR 1, TROW 20 and TCOL 3. -/
theorem test_ctl_fields :
    let m := ctlMsg .regWrite true (20 * 64 + 3) false 0
    m = BitVec.ofNat 128 (0x04 * 2 ^ 120 + 2 ^ 119 + 20 * 2 ^ 114 + 3 * 2 ^ 108) ∧
      smGet 0 (crossCtl ready (20 * 64 + 3) m).ring.ctl 67 = m := by decide +kernel

/-- A tile with that window, which a write has reached from the north. -/
def inTile (w : Window) (h : InHdr) : Tile := { tileInit with wins := [(0, w)], dq := [(0, [.first h []])] }

theorem wit_inbound_head :
    (tileOf (readyTile (inTile aWindow (aWrite .tile 0))) 0).inw.isNone = true ∧
      (firstQueue (tileOf (readyTile (inTile aWindow (aWrite .tile 0))) 0) isFirst) = some (0, .first (aWrite .tile 0) [], []) ∧
      tileResetting (readyTile (inTile aWindow (aWrite .tile 0))) 0 = false ∧ (aWrite .tile 0).src = .tile := by
  refine ⟨by decide +kernel, rfl, by decide +kernel, rfl⟩

theorem wit_inbound_reset :
    tileResetting { ready with kiln := { ready.kiln with resets := [⟨1, 0, false, 0, [0]⟩] } } 0 = true := by decide +kernel

theorem wit_inbound_checks :
    windowCheck (inTile aWindow (aWrite .tile 0)) (aWrite .tile 0) = .ok ∧
      windowCheck (inTile { aWindow with isOpen := false } (aWrite .tile 0)) (aWrite .tile 0) = .closed ∧
      windowCheck (inTile aWindow (aWrite .mover 0)) (aWrite .mover 0) = .denied ∧
      windowCheck (inTile aWindow (aWrite .tile 64)) (aWrite .tile 64) = .range := ⟨rfl, rfl, rfl, rfl⟩

theorem wit_window_denied_cord :
    let w := winOf (inTile { aWindow with cord := true, cordNo := 4, cmask := 1 } (aWrite (.cord 5) 0)) 0
    w.isOpen = true ∧ (w.cord = false ∨ (5 ^^^ w.cordNo) &&& w.cmask ≠ 0) := by decide +kernel

theorem wit_window_owned :
    let x := inTile aWindow (aWrite .tile 0)
    (∀ b ∈ banksOf (64 * 49152) 64, bankOwner x b = 3) ∧ ¬ (∀ b ∈ banksOf 0 64, bankOwner x b = 3) := by decide +kernel

/-- A tile with a write under way at byte address 0 and its next word from the north. -/
def wordTile (w : InWrite) : Tile := { tileInit with inw := some w, dq := [(0, [.later []])] }

theorem wit_inbound_word :
    let w : InWrite := ⟨1, 0, false, 0, 0, false, .tile, 5⟩
    let s := readyTile (wordTile w)
    let x := tileOf s 0
    x.inw = some w ∧ x.inTried = false ∧ x.inUsed = false ∧ w.src = .tile ∧ smGet [] x.dq w.port = .later [] :: [] ∧ tileAbsorbs s 0 = false ∧
      inboundOk x w.tagged 0 = true ∧ inboundConflict x w.addr = false ∧
      inboundOk x true 0 = false ∧ inboundOk { x with tags := [(0, ⟨.empty, 0⟩)] } true 0 = true ∧ inboundConflict { x with banks := 1 } w.addr = true ∧
      w.refused = false := by
  refine ⟨rfl, rfl, rfl, rfl, rfl, ?_⟩
  decide +kernel

theorem wit_inbound_word_used :
    let w : InWrite := ⟨1, 0, false, 0, 0, true, .tile, 5⟩
    let x := tileOf (readyTile { wordTile w with inUsed := true }) 0
    x.inw = some w ∧ w.refused = true ∧ x.inTried = false ∧ x.inUsed = true ∧ smGet [] x.dq w.port = .later [] :: [] := by
  refine ⟨rfl, rfl, rfl, rfl, rfl⟩

theorem wit_negative_completion :
    (tileOf (readyTile { tileInit with nackIn := [(0x23, 4)] }) 0).nackIn = (0x23, 4) :: [] := by decide +kernel

theorem wit_pull :
    let s := { ready with ring := { ready.ring with pulls := [aPull] } }
    let x := tileOf s 0
    s.ring.pulls.find? (fun q => (pullAt q).1 == 0 && decide (q.got.length < q.need) && !q.gone) = some aPull ∧ x.inUsed = false ∧
      wordReady x = false ∧ inboundConflict x (pullAt aPull).2 = false ∧ smGet 0 x.badPar ((pullAt aPull).2 / 64 % 65536) = 0 ∧
      aPull.got.length + 1 < aPull.need := by
  refine ⟨rfl, ?_⟩
  decide +kernel

theorem wit_delivery :
    let x := tileOf (readyTile { tileInit with dq := [(4, [.delivery 4096 63 true 0 []])] }) 0
    firstQueue x isDelivery = some (4, .delivery 4096 63 true 0 [], []) ∧ x.inUsed = false ∧ inboundConflict x (4096 + 64 * 63) = false := by
  refine ⟨rfl, ?_⟩
  decide +kernel

/-- R153: a write from a tile to a window that takes none is denied before its range is looked at. -/
theorem test_window_denied_first :
    windowCheck (inTile { aWindow with tile := false } (aWrite .tile 64)) (aWrite .tile 64) = .denied := rfl

/-! Movers and memory. -/

/-- A mover descriptor of an operation and one word at virtual address 0, from tile 0. -/
def aDesc (op : Nat) : MDesc := ⟨BitVec.ofNat 128 (op * 2 ^ 121), 0, 0, 0⟩

/-- Its cluster's mover holds it, and edge port 0 serves tile 0. -/
def moverState (s : State) (d : MDesc) : State :=
  setMover { s with ring := { s.ring with tables := [(0, 1)] } } 0 { mover0 with queue := [(d, 9)] }

theorem wit_movers_pick :
    ∀ op ∈ [0, 1, 2, 3, 4, 5, 6], moverPick (moverState readyPage (aDesc op)) 0 0 op = some (aDesc op, 9) := by decide +kernel

theorem wit_movers_translate :
    let s := moverState readyPage (aDesc 0)
    translateRange (seenMem s.mem) (dVa (aDesc 0)) (64 * dWords (aDesc 0)) (tileParts s 0) false = .ok 0 0 ∧
      translateRange (seenMem s.mem) (dVa (aDesc 1)) (64 * dWords (aDesc 1)) (tileParts s 0) true = .ok 0 0 ∧ edgeNames s 0 = true := by
  refine ⟨rfl, rfl, ?_⟩
  decide +kernel

theorem wit_movers_targets :
    (targetRefusal (moverState readyPage (aDesc 2)) (64 * (getwHdr (aDesc 2)).trow + (getwHdr (aDesc 2)).tcol)).isNone = true ∧
      (cputRefusal (setTile (moverState readyPage (aDesc 4)) 0 { tileInit with wins := [(15, { aWindow with basew := 0, mover := true })], own := 2 ^ 32 - 1 }) (aDesc 4)).isNone = true := by
  decide +kernel

theorem wit_movers_cord :
    let s := { readyPage with fab := { readyPage.fab with cords := [(0, { cord0 with valid := true })] } }
    cordUsable (moverState s (aDesc 6)) (aDesc 6) = true ∧ dCop (aDesc 6) = 0 ∧
      dCop ⟨BitVec.ofNat 128 (6 * 2 ^ 121 + 2 ^ 112), 0, 0, 0⟩ = 1 ∧ dCop ⟨BitVec.ofNat 128 (6 * 2 ^ 121 + 2 * 2 ^ 112), 0, 0, 0⟩ = 2 := by
  decide +kernel

theorem wit_movers_migrate :
    let d : MDesc := ⟨BitVec.ofNat 128 (5 * 2 ^ 121 + 2 ^ 72), 0, 0, 0⟩
    let s := moverState { readyPage with mem := { readyPage.mem with ddrQ := [7] } } d
    moverPick s 0 0 5 = some (d, 9) ∧ translate (seenMem s.mem) (dVa d) (tileParts s 0) true = .ok 0 0 ∧ dTdst d = 1 ∧ ddrFitted s = true ∧
      teMoving (tmapGet s.mem (dVa d / 2 ^ 18)) = false ∧ dTdst d ≠ teTier (tmapGet s.mem (dVa d / 2 ^ 18)) ∧ freeQueue s.mem (dTdst d) = 7 :: [] := by
  refine ⟨rfl, rfl, ?_⟩
  decide +kernel

theorem wit_untranslated :
    let d := aDesc 0
    let parts := tileParts ready 0
    translateRange (seenMem ready.mem) (dVa d) (64 * dWords d) parts false = .bad 0x30 ∧
      translateRange (seenMem { tmapSet ready.mem 0 (teMake true 1 0 false 0) with stale := [] }) (dVa d) (64 * dWords d) parts false = .bad 0x31 ∧
      translateRange (seenMem { tmapSet ready.mem 0 (teMake false 0 0 false 0) with stale := [] }) (dVa d) (64 * dWords d) parts true = .bad 0x32 ∧
      moverPick (moverState ready (aDesc 0)) 0 0 0 = some (aDesc 0, 9) ∧ moverPick (moverState ready (aDesc 1)) 0 0 1 = some (aDesc 1, 9) ∧
      moverPick (moverState ready (aDesc 2)) 0 0 2 = some (aDesc 2, 9) := ⟨rfl, rfl, rfl, rfl, rfl, rfl⟩

theorem wit_ring_slot_fill :
    let x := tileOf (readyTile { runTile with wire := [(4, [⟨2, none, none, none, none⟩])] }) (tileOfEdge 0)
    x.st = .run ∧ x.cyc ≤ 3 ∧ (∀ f ∈ smGet [] x.wire (dirNum .x) ++ smGet [] x.inbuf (dirNum .x), f.cyc < 3) := by decide +kernel

theorem wit_ring_turn : ∀ at_ p, ready.ring.fillAt = some (at_, p) → at_ = ready.clock → p ≤ 0 := by
  intro at_ p h
  cases h

/-- The ring holds a transfer of these words for tile 0, which edge port 0 names at slot 0, quarter 0. -/
def slotState (words : List MWord) (port : Option Nat) : State :=
  { readyPage with ring := { readyPage.ring with tables := [(0, 1)], ready := [⟨1, 0, words, port, none⟩] } }

theorem wit_ring_quarters :
    let s := slotState [.later [1], .later [2]] none
    smGet 0 s.ring.tables ((512 * 0 + 0) * 4 + 0) = 0 + 1 ∧ smGet 0 s.ring.tables ((512 * 0 + 0) * 4 + 1) = 0 ∧ 11 % 16 = 11 ∧ (0 : Nat) < 128 ∧
      s.ring.ready.find? (fun x => x.tile == 0 && (x.port == none || x.port == some 0)) = some ⟨1, 0, [.later [1], .later [2]], none, none⟩ ∧
      (∀ x ∈ (slotState [.later [1]] (some 3)).ring.ready, x.tile = 0 → x.port ≠ none ∧ x.port ≠ some 0) := by
  refine ⟨by decide +kernel, by decide +kernel, rfl, by decide, rfl, by decide +kernel⟩

theorem wit_ring_request :
    smGet [] (RingState.outQ { ready.ring with outQ := [(187, [aDesc 0])] }) 187 = aDesc 0 :: [] := rfl

theorem wit_ring_visibility :
    let x : PullXfer := { aPull with need := 1, got := [[]] }
    let s := { readyPage with ring := { readyPage.ring with pulls := [x] } }
    s.ring.pulls.find? (fun y => y.id == 1 && y.op == 1 && decide (y.need ≤ y.got.length)) = some x ∧ x.gone = false ∧
      translateRange s.mem (dVa x.d) (64 * x.need) (tileParts s x.d.tile) true = .ok 0 0 := ⟨rfl, rfl, rfl⟩

theorem wit_migration :
    let g : Migr := ⟨0, 0, 0, 1, 7, .mover 0 (aDesc 5) 9⟩
    let s := { readyPage with mem := { readyPage.mem with migr := [g], release := [(0, 3, 0)] } }
    s.mem.migr.find? (fun g => g.page == 0 && g.who != .retire) = some g ∧ pageQuiet s 0 = true ∧
      s.mem.release.find? (fun r => r.2.2 == 0) = some (0, 3, 0) ∧ (freeQueue s.mem 0).length < 256 ∧ (freeQueue s.mem 1).length < 256 ∧
      s.mem.tmapBy ≤ 0 + 1 ∧ s.kiln.stat ≠ 2 := ⟨rfl, by decide +kernel, rfl, by decide +kernel, by decide +kernel, by decide +kernel, by decide +kernel⟩

theorem wit_unmap_waits :
    let m := tmapSet readyPage.mem 0 (teMake true 0 0 true 0)
    let w := { m with unmapWait := [(0, true)] }
    teValid (tmapGet m 0) = true ∧ teMoving (tmapGet m 0) = true ∧ w.unmapWait.find? (fun u => u.1 == 0) = some (0, true) :=
  ⟨by decide +kernel, by decide +kernel, rfl⟩

theorem wit_corrected_errors :
    let day := ready.mem.ceLog.filter (fun e => decide (ready.clock < e.2.2.1 + 138240000000000))
    let total (n : Nat) := ((day.filter (fun e => e.1 == 0 && e.2.1 == 0)).map (·.2.2.2)).sum + n
    total 7 < 8 ∧ 8 ≤ total 8 ∧ isRetired ready.mem 0 0 = false := by decide +kernel

theorem wit_memory_errors :
    0 < tierFrames 0 (ddrFitted ready) ∧ 6291455 < tierFrames 1 (ddrFitted ready) ∧ pagesOf ready.mem 0 0 = [] ∧ pagesOf readyPage.mem 0 0 = 0 :: [] ∧
      runningCtx readyPage 0 = none ∧ runningCtx (readyCtx (fun c => { c with run := some aRun })) 0 = some 0 ∧ liveCtxs ready = [] ∧
      liveCtxs (readyCtx id) = [0] ∧ (ctxOf (readyCtx id) 0).run = none ∧
      (ctxOf (readyCtx (fun c => { c with run := some aRun })) 0).run = some aRun ∧ (ctxOf (readyCtx (fun c => { c with run := some aRun })) 0).cord = none ∧
      (ctxOf (readyCtx (fun c => { c with run := some aRun, cord := some 3 })) 0).cord = some 3 := by
  decide +kernel

theorem wit_retirement_copy :
    let g : Migr := ⟨0, 0, 0, 0, 7, .retire⟩
    let s := { readyPage with mem := { readyPage.mem with migr := [g] } }
    s.mem.migr.find? (fun g => g.page == 0 && g.who == .retire) = some g ∧ pageQuiet s 0 = true ∧ s.kiln.stat ≠ 2 := ⟨rfl, by decide +kernel, by decide +kernel⟩

theorem wit_frame_write : (0 : Nat) < 2 ∧ (1 : Nat) < 2 := by decide

theorem wit_scratchpad_write : 4194240 + (List.replicate 64 (0 : Byte)).length ≤ 2 ^ 22 ∧ 4194303 < 2 ^ 22 ∧ 4194303 / 4096 ∉ tileInit.loose.slots ∧ 4194240 ≤ 4194303 ∧
    4194303 < 4194240 + (List.replicate 64 (0 : Byte)).length := by decide +kernel

/-- R206, R207: HBM4 has 4,194,304 frames and DDR5 6,291,456. -/
theorem test_tier_frames : tierFrames 0 true = 4194304 ∧ tierFrames 1 true = 6291456 ∧ tierFrames 1 false = 0 := by decide

/-- R211: a page of another partition is status 0x31. -/
theorem test_translate_partition : translate (tmapSet memInit 5 (teMake true 3 0 false 9)) (5 * 2 ^ 18) [0] false = .bad 0x31 := rfl

/-! Links. -/

theorem wit_retrain :
    let p := portOf (linkState { upPort with retrains := [0, 0, 0, 0, 0] }).lk 0
    let q := portOf (linkState { upPort with retrains := [0, 0, 0, 0, 0, 0] }).lk 0
    let d := portOf (linkState { upPort with st := 4, noSignal := true }).lk 0
    p.st = 3 ∧ q.st = 3 ∧ (p.retrains.filter (fun t => decide (ready.clock < t + 96000000000))).length = 5 ∧
      (q.retrains.filter (fun t => decide (ready.clock < t + 96000000000))).length = 6 ∧ d.st = 4 ∧ d.noSignal = true := by decide +kernel

theorem wit_signal :
    let p := portOf (linkState { upPort with st := 4, noSignal := true }).lk 0
    let q := portOf (linkState { upPort with st := 4, resync := true }).lk 0
    (portOf (linkState upPort).lk 0).st = 3 ∧ p.st = 4 ∧ p.resync = false ∧ (portOf ready.lk 0).st ≠ 3 ∧ (portOf ready.lk 0).st ≠ 4 ∧ q.st = 4 ∧
      q.resync = true := by decide +kernel

/-- Blade 0 is b. -/
def bladeState (b : Blade) : State := { ready with lk := setBlade ready.lk 0 b }

theorem wit_lasers :
    let x := bladeOf (bladeState { blade0 with present := true }).lk 0
    let y := bladeOf (bladeState { blade0 with present := true, spareUsed := 8, spareFor := [(3, 15)] }).lk 0
    (x.present = true ∧ x.lfail.testBit 15 = false ∧ x.spareUsed.testBit (15 % 4) = false ∧ x.spareBad.testBit (15 % 4) = false) ∧
      (y.present = true ∧ y.lfail.testBit 11 = false ∧ y.spareUsed.testBit (11 % 4) = true ∧ y.spareBad.testBit 3 = false) ∧
      x.spareUsed.testBit 3 = false := by decide +kernel

theorem wit_blades :
    let x := bladeOf (bladeState { blade0 with stuck := true }).lk 0
    let y := bladeOf (bladeState { blade0 with present := true }).lk 0
    ((bladeOf ready.lk 0).present = false ∧ (bladeOf ready.lk 0).stuck = false ∧ kilnUp ready = true ∧ 7 ≤ ready.boot.stage) ∧
      kilnUp State.reset = false ∧ State.reset.boot.stage < 7 ∧ (bladeOf State.reset.lk 0).present = false ∧ x.present = false ∧ x.stuck = true ∧
      y.present = true := by decide +kernel

/-- R239, R240: laser 5, the second of half 1, feeds links 4 to 7 of its engine; its failure pauses the one in UP and the spare of wavelength 1 is named. -/
theorem test_laser_pause :
    let s := { ready with lk := setPort (setBlade ready.lk 0 { blade0 with present := true }) 4 upPort }
    (match exec (.laserFail 0 5 false) s with
      | .next n => ((portOf n.lk 4).st, (portOf n.lk 4).dark, (bladeOf n.lk 0).spareUsed)
      | _ => (0, 0, 0)) = (4, 2, 2) := by decide +kernel

/-- A frame with a control flit of a sequence number, and no acknowledgement. -/
def aFrame (seq : Nat) (pkt : Option Packet) (idx cls : Nat) : LFrame := ⟨⟨0, seq, pkt, idx⟩, 3, 0, false, 3, 0, cls⟩

theorem wit_clean_frame : (⟨[], true⟩ : LineErr).flips = [] := rfl

theorem wit_received_flit :
    let k : Packet := .lineState 0 0 0 0 false
    let f := aFrame 0 (some k) 0 5
    let p := portOf (linkState upPort).lk 0
    let q := takeCredits (takeAck { p with fec := satAdd32 p.fec 0 } f.ackVc f.ackSeq) f.crVc f.credits
    p.st = 3 ∧ readLine f ⟨[], true⟩ = (f, .good 0) ∧ f.cls < 11 ∧ f.nak = false ∧ f.flit.vc < 3 ∧
      f.flit.seq = ((vcOf q f.flit.vc).rxSeq + 1) % 4096 := by
  refine ⟨by decide +kernel, readLine_clean _ _, by decide, rfl, by decide, by decide +kernel⟩

theorem wit_reserved_class :
    let f := aFrame 0 none 0 11
    readLine f ⟨[], true⟩ = (f, .good 0) ∧ 11 ≤ f.cls := ⟨readLine_clean _ _, by decide⟩

/-- A gap, then a flit seen before, each on the fresh control VC, whose last flit counts as 4095. -/
theorem wit_received_gap :
    let q := portOf (linkState upPort).lk 0
    let v := vcOf (takeCredits (takeAck { q with fec := satAdd32 q.fec 0 } 3 0) 3 0) 0
    ((5 : Nat) ≠ (v.rxSeq + 1) % 4096 ∧ v.discard = false ∧ seqDist v.rxSeq 5 < 2048 ∧ 5 ≠ v.rxSeq) ∧
      4095 ≠ (v.rxSeq + 1) % 4096 ∧ 4095 = v.rxSeq ∧
      (∀ r, (aFrame 5 none 0 5).flit.pkt ≠ some (.ident r)) ∧ (∀ t, (aFrame 5 none 0 5).flit.pkt ≠ some (.fence t)) := by
  refine ⟨by decide +kernel, by decide +kernel, by decide +kernel, (fun _ h => by cases h), (fun _ h => by cases h)⟩

theorem wit_bad_frame :
    let f := aFrame 0 none 0 5
    let e (ok : Bool) : LineErr := ⟨[(213, 1), (214, 3), (215, 2)], ok⟩
    readLine f (e true) = (f, .bad true) ∧ readLine f (e false) = (f, .bad false) ∧ f.flit.vc < 3 :=
  ⟨readLine_three _ _, readLine_three _ _, by decide⟩

theorem wit_training :
    let s := bladeState { blade0 with present := true }
    let p := portOf s.lk 0
    kilnUp s = true ∧ kilnUp State.reset = false ∧ (p.st = 0 ∧ p.cause ≠ 4 ∧ (∀ w < 4, laserLit s.lk 0 w = true)) ∧ linkLit ready.lk 0 = false ∧
      (portOf (linkState { upPort with st := 1 }).lk 0).st = 1 ∧ (portOf (linkState { upPort with st := 1 }).lk 0).fullTrain = false ∧
      (portOf (linkState { portInit with st := 1 }).lk 0).fullTrain = true ∧ (portOf (linkState { upPort with st := 5 }).lk 0).st = 5 := by
  decide +kernel

theorem wit_sending :
    let p := portOf (linkState { upPort with retry := [⟨⟨0, 0, none, 0⟩, 0⟩] }).lk 0
    let q := portOf (linkState { upPort with st := 0, leftUp := true }).lk 0
    let d := portOf (linkState { upPort with st := 4, dark := 1 }).lk 0
    let e := portOf (linkState { upPort with st := 4 }).lk 0
    (p.st = 3 ∧ heldOf p 0 ≠ [] ∧ p.retry.length < 512) ∧ (q.leftUp = true ∧ q.st ≠ 3 ∧ q.st ≠ 4) ∧ (portOf (linkState upPort).lk 0).rxPkts = [] ∧
      (portOf (linkState { upPort with st := 2 }).lk 0).st = 2 ∧ (portOf (linkState { upPort with st := 5 }).lk 0).st = 5 ∧
      (d.st = 4 ∧ d.dark ≠ 0) ∧ (e.st = 4 ∧ e.dark = 0 ∧ e.resync = false) ∧ (1 : Fin 601).val ≠ 0 := by decide +kernel

theorem wit_peer_lost :
    let s := linkState { portInit with known := true }
    s.kiln.stat ≠ 2 ∧ (portOf s.lk 0).known = true ∧ (portOf ready.lk 0).known = false ∧
      (∀ i < 96, (portOf s.lk i).known = true → (portOf s.lk i).peerUnit = (portOf s.lk 0).peerUnit → (portOf s.lk i).st ≠ 3) := by decide +kernel

/-- Link 0 stands in IDENT, and its map names the module at the own coordinate with X xor 1. -/
def identState : State :=
  let s := linkState { portInit with st := 2 }
  { s with fab := { s.fab with addrOn := true, map := [(0, BitVec.ofNat 32 (2 ^ 29 + 2 ^ 22))] } }

theorem wit_ident :
    let r : IdentRec := ⟨5, 0, true, 1, 0, 0, 0, false⟩
    let p := portOf identState.lk 0
    kilnUp identState = true ∧ kilnUp State.reset = false ∧ p.st = 2 ∧ p.rxPkts = [] ∧ wrongSaved p r = false ∧
      (lockstepWaits (learnPeer identState 0 r) 0 r).isNone = true ∧ admitOk (learnPeer identState 0 r).fab 0 r = true ∧
      (portOf ready.lk 0).st ≠ 2 := by decide +kernel

theorem wit_ident_miswired :
    let r : IdentRec := ⟨5, 0, true, 2, 0, 0, 0, false⟩
    let s1 := learnPeer identState 0 r
    (lockstepWaits s1 0 r).isNone = true ∧ admitOk s1.fab 0 r = false := by decide +kernel

/-- R255: a record without FVALID does not admit the link. -/
theorem test_ident_fvalid : admitOk identState.fab 0 ⟨5, 0, false, 1, 0, 0, 0, false⟩ = false := by decide +kernel

/-- R244: the frame of 216 symbols of 10 bits has 2,160 bits, and the last four symbols are parity. -/
theorem test_frame_symbols (f : LFrame) : (frameSymbols f).length = 216 := by
  rw [frameSymbols, List.length_append, List.length_map, List.length_range]
  obtain ⟨p, q, r, s, h, -⟩ := rsParity_spec ((List.range 212).map fun i => bits (frameBits f) (10 * i) 10) 0 (by decide)
    (fun s hs => by obtain ⟨i, -, rfl⟩ := List.mem_map.mp hs; exact Nat.mod_lt _ (by decide))
  rw [h]
  rfl
/-! The fabric. -/

def isLink (r : RouteRes) : Bool := match r with | .link _ _ _ => true | _ => false
def isRefuse (r : RouteRes) : Bool := match r with | .refuse _ => true | _ => false
def isHere (r : RouteRes) : Bool := match r with | .here => true | _ => false

/-- A WRITE of 8 words, three flits, for the neighbour. -/
def threeFlits : Packet := .bulk .write (aHdr 1) (List.replicate 8 [])

theorem wit_crossbar :
    isBulk threeFlits = true ∧ (portOf fabState.lk 5).lockstep = false ∧ routePacket fabState threeFlits = .link 0 1 false ∧ 1 < packetFlits threeFlits ∧
      packetFlits (setDtr threeFlits false) = packetFlits threeFlits ∧ isBulk (.lineState 0 0 0 0 false) = false ∧
      (let c : CutPkt := ⟨threeFlits, threeFlits, 0, 1⟩
       ((portOf (linkState { upPort with cut := [c] }).lk 0).cut.find? (fun x => x.pkt == threeFlits)) = some c ∧ 1 + 1 < packetFlits c.out ∧ 1 ≠ 0) := by
  decide +kernel

theorem wit_partner_link : (portOf (linkState { upPort with lockstep := true }).lk 0).lockstep = true := by decide +kernel

theorem wit_bulk_routes :
    (portOf fabState.lk 0).lockstep = false ∧ isLink (routePacket fabState (.bulk .write (aHdr 1) [])) = true ∧ isRefuse (routePacket fabState (.bulk .write (aHdr 2) [])) = true ∧
      isHere (routePacket fabState (.bulk .write (aHdr 0) [])) = true := by decide +kernel

theorem wit_bulk_here :
    cordHere fabState (aHdr 0) .write = true ∧ cordHere fabState { aHdr 0 with drank := 1 } .write = false ∧
      (targetRefusal fabState 0).isNone = true ∧ targetRefusal ready 0 = some 0x23 ∧ cordHere fabState (aHdr 0) .gather = true ∧
      aCord.valid = true ∧ partResetting fabState aCord.part = false ∧ (partOf fabState aCord.part).powered = true ∧ cord0.valid = false ∧
      (partOf State.reset aCord.part).powered = false ∧ partResetting { ready with kiln := { ready.kiln with resets := [⟨4, 0, false, 0, [0]⟩] } } 0 = true ∧
      (targetRefusal ((gatherCopies fabState aCord (aHdr 0) [] (forwardPhases (aHdr 0).phase)).foldl (fun x q => forwardCopy x (aHdr 0) q)
        (updFab fabState (fun f => { f with gathers := f.gathers ++ [⟨1, 0, 1, 0, true,
          (gatherCopies fabState aCord (aHdr 0) [] (forwardPhases (aHdr 0).phase)).length, 0⟩] }))) 0).isNone = true := by decide +kernel

def redKind (r : RedRes) : Nat := match r with | .refused _ => 0 | .added => 1 | .duplicate => 2

theorem wit_bulk_reduction :
    let r := redTake fabState.fab.red aCord .contrib (aHdr 0) [List.replicate 64 0] 0
    redKind r.2 = 1 ∧ redKind (redTake r.1 aCord .contrib (aHdr 0) [List.replicate 64 0] 0).2 = 2 ∧
      redKind (redTake fabState.fab.red aCord .contrib { aHdr 0 with srank := 7 } [List.replicate 64 0] 0).2 = 0 := by decide +kernel

/-- A packet of this module that is outstanding. -/
def anOut (refused : Option (Nat × Nat)) (again : Bool) : OutPkt := ⟨.bulk .write (aHdr 1) [], 4, 0, refused, again⟩

theorem wit_completions :
    let s := { fabState with fab := { fabState.fab with out := [anOut none false] } }
    let x (st : Nat) : Compl := ⟨0, 0, 0, 0, 1, 0, st, false⟩
    (∀ st ∈ [0, 0x22, 0x28], (x st).dst = s.fab.addr ∧ (takeRxCompl s (x st)).fab.out.find? (answersPkt (x st)) = some (anOut none false) ∧
      isGone (takeRxCompl s (x st)) (anOut none false).xfer = false ∧ (anOut none false).refused = none) ∧
      (⟨1, 0, 0, 0, 1, 0, 0, false⟩ : Compl).dst ≠ s.fab.addr ∧
      (∀ st ∈ [0, 0x22, 0x28], complOnPartner s (x st) = false) ∧
      (let y := x 0; complOnPartner (linkState { upPort with lockstep := true, rxPkts := [.compl [y]] }) y = true) := by decide +kernel

theorem wit_retry :
    let o := anOut (some (0, 0x28)) true
    let s := { fabState with fab := { fabState.fab with out := [o] } }
    s.fab.out[0]? = some o ∧ o.again = true ∧ o.refused = some (0, 0x28) := ⟨rfl, rfl, rfl⟩

theorem wit_red_stall :
    let r := (redTake fabState.fab.red aCord .contrib (aHdr 0) [List.replicate 64 0] 0).1
    ((redSlots r 0)[0]?).isSome = true := by decide +kernel

theorem wit_time :
    let s := { fabState with fab := { fabState.fab with t1 := some 5 } }
    s.fab.addrOn = true ∧ s.fab.root = false ∧ (0 : BitVec 16) = s.fab.addr ∧ (1 : BitVec 16) ≠ s.fab.addr ∧
      (takeRx s 0 (.time 0 1 5 6 7 true false)).fab.t1 = some 5 ∧ (portOf s.lk 0).lockstep = false ∧ (1 : BitVec 16) ≠ (⟨0, 0, 0⟩ : LineNow).addr ∧ ({ s.fab with root := true } : FabState).root = true := by decide +kernel

theorem wit_barriers :
    let c := cordOf fabState.fab 0
    c.valid = true ∧ partOfTile fabState 0 = some c.part ∧ smGet [] (tileOf fabState 0).barOut 3 = [] ∧ isKilnChannel fabState 0 3 = false ∧
      (barOf fabState.fab 0 0).phase = 0 ∧ waitsOver fabState (barOf fabState.fab 0 0) = true ∧
      c.btiles ≤ (barOf { fabState.fab with bars := smSet bar0 [] (barKey 0 0) { bar0 with count := 1 } } 0 0).count ∧
      (portOf fabState.lk 0).lockstep = false ∧ (aHdr 1).dst ≠ fabState.fab.addr ∧ (aHdr 0).dst = fabState.fab.addr ∧ (0 = cordGen c 0 ∨ 0 = (cordGen c 0 + 1) % 256) ∧
      (barOf fabState.fab 0 0).got.contains ⟨1, 1, 0, none⟩ = false ∧
      (barOf { fabState.fab with bars := smSet bar0 [] (barKey 0 0) { bar0 with phase := 4 } } 0 0).phase = 4 := by decide +kernel

/-- R270: towards a module that differs in X, the packet leaves on the link whose map entry names that X. -/
theorem test_route_x : routePacket fabState (.bulk .write (aHdr 1) []) = .link 0 1 false := by decide +kernel

/-! Submissions, steps and Kiln's barriers. -/

/-- An image of no tile. -/
def anImage : Image := ⟨0, false, true, 116, 0, 0, [], [], none, 0, [], [], [], [], []⟩

theorem wit_load :
    let s := readyCtx id
    ctxLive s 0 = true ∧ (ctxOf s 0).run = none ∧ loadTurn (ctxOf s 0) 7 = true ∧ cplFull s 0 = false ∧ imageOk s 0 anImage = true ∧
      imageOk s 0 { anImage with widthClass := 115 } = false := by decide +kernel

theorem wit_ring_db :
    let s := updHost (readyCtx id) 0 (fun x => { x with linkUp := true })
    let u := updHost (readyCtx id) 1 (fun x => { x with linkUp := true })
    (decodes (hostOf s 0) = true ∧ (hostOf s 0).waitWr = [] ∧ ctxLive s 0 = true ∧ (ctxOf s 0).port = 0 ∧ dbReady s 0 = true) ∧
      dbReady (updCtx s 0 (fun x => { x with dbAt := some s.clock })) 0 = false ∧
      decodes (hostOf u 1) = true ∧ (hostOf u 1).waitWr = [] ∧ (ctxOf u 0).port ≠ 1 := by decide +kernel

/-- A submitted step. -/
def aStep : Sub := .step 7 1 0 0

theorem wit_launch :
    let s := readyCtx (fun c => { c with queue := [aStep], st := .ready })
    s.kiln.stat ≠ 2 ∧ ({ s with kiln := { s.kiln with stat := 2 } }).kiln.stat = 2 ∧ recovering s 0 = false ∧
      recovering (retryBad ((partCtxs s 0).foldl settleCtx (readWaiting s 0))) 0 = false ∧ partBusy s 0 = false ∧ partIdle s 0 = true ∧ lagOk s 0 = true ∧ runningCtx s 0 = none ∧
      nextStep (retryBad ((partCtxs s 0).foldl settleCtx (readWaiting s 0))) 0 = some 0 ∧
      nextStep (retryBad ((partCtxs ready 0).foldl settleCtx (readWaiting ready 0))) 0 = none ∧
      runningCtx ready 0 = none := by decide +kernel

theorem wit_launch_section :
    let r := { aRun with phase := .halting, sect := 1 }
    let s := readyCtx (fun c => { c with run := some r })
    partBusy s 0 = false ∧ partIdle s 0 = true ∧ lagOk s 0 = true ∧ runningCtx s 0 = some 0 ∧ (ctxOf s 0).run = some r ∧ r.phase = .halting ∧ recovering s 0 = false ∧ s.kiln.stat ≠ 2 := by
  decide +kernel

/-- A run whose tiles are all done. -/
def doneRun : StepRun := { aRun with phase := .run, done := (List.range 2048).filter (fun t => tileField t == 0) }

/-- Context 0 runs doneRun, and tile 0 of its partition has issued DONE at a cycle and stands at another. -/
def endState (done_ at_ : Nat) : State :=
  setTile (readyCtx (fun c => { c with run := some doneRun })) 0 { runTile with doneIss := true, doneAt := some done_, cyc := at_ }

theorem wit_step_end :
    let s := endState 36 100
    s.kiln.stat ≠ 2 ∧ (ctxOf s 0).run = some doneRun ∧ (ctxOf s 0).cord = none ∧ doneRun.phase = .run ∧ allDone s (ctxOf s 0).part doneRun = true ∧
      queuesEmpty s (ctxOf s 0).part = true ∧ (∀ t ∈ partTiles (partOf s (ctxOf s 0).part), (tileOf s t).st = .run →
        ((tileOf s t).doneAt.any (fun d => decide (d + 64 ≤ (tileOf s t).cyc))) = true) := by decide +kernel

/-- Context 0 runs r as a job over cord 0, whose channel 3 stands as b. -/
def jobState (r : StepRun) (b : BarState) : State :=
  let s := readyCtx (fun c => { c with run := some r, cord := some 0, st := .running })
  { s with fab := { s.fab with cords := [(0, aCord)], bars := smSet bar0 [] (barKey 0 3) b } }

theorem wit_kiln_arrive :
    let s := jobState doneRun bar0
    let x := ctxOf s 0
    s.kiln.stat ≠ 2 ∧ x.run = some doneRun ∧ x.cord = some 0 ∧ doneRun.phase = .run ∧ doneRun.sect ≠ 1 ∧ doneRun.status = 0 ∧ allDone s x.part doneRun = true ∧
      votesOver s x.part { doneRun with sect := 1 } = true ∧ { doneRun with status := 1 }.status ≠ 0 := by decide +kernel

/-- Its partition spans no field, so that the abort of its tiles is small to evaluate. -/
theorem wit_kiln_quiet :
    let r := { doneRun with phase := .quiesce }
    let s := setPart (jobState r bar0) 0 { part0 with on := true, powered := true }
    r.phase = .quiesce ∧ (ctxOf s 0).st ≠ .paused ∧ partQuiet (dropAttempt s (ctxOf s 0).part) (ctxOf s 0).part = true ∧
      recovering (dropAttempt s (ctxOf s 0).part) (ctxOf s 0).part = false ∧ (ctxOf s 0).refill = [] ∧
      (ctxOf (updCtx s 0 (fun x => { x with refill := [3] })) 0).refill ≠ [] := by decide +kernel

/-- A Kiln record of a kind and status. -/
def aRec (kind : Fin 16) (status : Fin 4) : KRec := ⟨1, kind, status, 0, 0, 1, 9, 0⟩

theorem wit_kiln_flood :
    floodRec (jobState doneRun { bar0 with got := [⟨1, 1, 0, some (aRec 0 1)⟩] }) 0 = some (aRec 0 1) ∧ doneRun.phase = .run ∧
      phaseKind (.arrived 1) = some 1 := by decide +kernel

theorem wit_kiln_release :
    ∀ kind ∈ [0, 1, 2], ∀ status ∈ [0, 1, 2, 3],
      let b := { bar0 with mine := some (aRec kind status), phase := 4 }
      let s := jobState { doneRun with phase := .arrived kind.val } b
      (barOf s.fab 0 3).mine = some (aRec kind status) ∧ (barOf s.fab 0 3).phase = 4 ∧ (aRec kind status).kind ≠ 3 ∧ jobCtx s 0 = some 0 ∧
        (ctxOf s 0).st ≠ .paused ∧ (recordTo (barOf s.fab 0 3) ((cordGen (cordOf s.fab 0) 3 + 255) % 256) 4).status = status := by decide +kernel

/-- A section whose tiles have halted is settled; one whose tile 0 issued DONE less than 64 cycles ago is not. -/
theorem wit_kiln_settled :
    stepSettled (jobState doneRun bar0) 0 = true ∧ stepSettled (endState 37 100) 0 = false ∧
      (recordTo { bar0 with mine := some (aRec 0 0), phase := 4 } 255 4).status.val = 0 ∧ (aRec 0 0).kind.val ≤ 1 := by decide +kernel

/-- A stream that votes awaits the VOTE barrier of cord 5. -/
theorem wit_vote_waits :
    let s := jobState { doneRun with step := 16 } bar0
    let e := setEmber s 0 { ember0 with valid := true, digEn := true, vcord := 5 }
    voteWaits { e with fab := { e.fab with bars := smSet bar0 [] (barKey 5 3) { bar0 with mine := some (aRec 3 0) } } } 0 { doneRun with step := 16 } = true := by
  decide +kernel

theorem wit_kiln_vote :
    let s := jobState doneRun { bar0 with mine := some (aRec 3 0), phase := 4 }
    (barOf s.fab 0 3).mine = some (aRec 3 0) ∧ (barOf s.fab 0 3).phase = 4 ∧ (aRec 3 0).kind = 3 := by decide +kernel

/-- R132: a width class below 116 columns is refused. -/
theorem test_image_width : imageOk (readyCtx id) 0 { anImage with widthClass := 115 } = false := by decide +kernel


/-- R163: the control cycles of outputs of tile 2·64 + 3 (row 2, column 3), and of an EN and an EE port. -/
theorem test_control_cycles :
    ctlCycle 131 .e = some 11 ∧ ctlCycle 131 .w = some 15 ∧ ctlCycle 131 .s = some 7 ∧ ctlCycle 131 .n = some 3 ∧ ctlCycle 5 .x = some 11 ∧
      ctlCycle (64 * 3 + 63) .x = none := by decide

/-- The image with one route word, at tile 5 unless a tile is given. -/
def routed (i : Nat) (w : BitVec 128) (t : Nat := 5) : Image := { anImage with tiles := [⟨t, [], 0, [], [(i, w)]⟩] }

/-- Each clause of R169 and R482 at a boundary value, beside words that pass: S_OUT naming the N input quarter by quarter from tile 69. -/
theorem wit_illegal_routes :
    let s := readyCtx id
    let ok := imageOk s 0
    ctxLive s 0 = true ∧ (ctxOf s 0).run = none ∧ loadTurn (ctxOf s 0) 0 = true ∧ cplFull s 0 = false ∧
      ok { anImage with rper := 31 } = true ∧ ok { anImage with rper := 32 } = false ∧
      ok (routed 0 (1 <<< 84) 69) = true ∧ ok (routed 0 (1 <<< 90) 69) = true ∧ ok (routed 3 (1 <<< 90) 69) = false ∧
      ok (routed 0 (7 <<< 84) 69) = false ∧ ok (routed 0 (3 <<< 84) 69) = false ∧ ok (routed 0 (1 <<< 60) 69) = false ∧
      ok (routed 0 (1 <<< 84) 5) = false ∧ ok (routed 0 (2 <<< 66) 5) = true ∧ ok (routed 11 (2 <<< 66) 5) = false ∧
      ok { anImage with edges := [(5, 0, 2, 5)] } = true ∧ ok { anImage with edges := [(5, 11, 2, 5)] } = false ∧
      ok { anImage with edges := [(5, 0, 2, 2047)] } = false ∧ ok { anImage with edges := [(64, 0, 2, 5)] } = false := by
  decide +kernel
/-! Power, pins and heat. -/

/-- The power side of the ready module after a change. -/
def pwrState (f : PwrState → PwrState) : State := { ready with pwr := f ready.pwr }

theorem wit_monitors :
    let s := pwrState (fun w => setField w 0 { fieldOf w 0 with st := 2 })
    let t := pwrState (fun w => setRegion w 0 { regionOf w 0 with injOn := true, clampOn := true })
    (fieldOf s.pwr (regionField 0)).st = 2 ∧ (regionOf s.pwr 0).injOn = false ∧ (regionOf s.pwr 0).clampOn = false ∧ (regionOf t.pwr 0).injOn = true := by
  decide +kernel

theorem wit_cap_loop :
    let low := capTick (pwrState (fun w => { w with ceil := 46 })).pwr 100 [true]
    let high := capTick (pwrState (fun w => { w with ceil := 46 })).pwr 9000 [true]
    let last := capTick (pwrState (fun w => { w with ceil := 28, hgap := 8, overs := 9 })).pwr 9000 [true]
    (low.1.ceil = 46 ∧ low.1.hgap = 0 ∧ low.2 = false) ∧ (high.1.ceil ≠ 46 ∧ high.2 = false) ∧ last.1.ceil = 28 ∧ last.1.hgap = 8 ∧ last.2 = true := by
  decide +kernel

theorem wit_supply :
    State.reset.pwr.qualifier = false ∧ 36000 < 36001 ∧ (ready.pwr.qualifier = true ∧ ready.pwr.handshake = false) ∧ ready.pwr.isOn = true ∧
      (let w := (pwrState (fun w => { w with isOn := false, vinMv := 40000 })).pwr
       w.qualifier = true ∧ w.pwrEn = true ∧ w.isOn = false ∧ w.mustCycle = false ∧ w.forceOff = false ∧ 40000 ≤ w.vinMv ∧ w.vinMv ≤ 50000) ∧
      (let w := (pwrState (fun w => { w with handshake := true, pwrEn := false })).pwr
       w.qualifier = true ∧ w.handshake = true ∧ w.pwrEn = false ∧ w.isOn = true) ∧ (pwrState (fun w => { w with throttle := true })).pwr.throttle = true ∧
      ready.kiln.stat ≠ 2 ∧ ready.pwr.pwrEn = true := by
  decide +kernel

theorem wit_vin_ranges :
    (36000 < 37999 ∧ (37999 < 38000 ∨ 52000 < 37999)) ∧ (36000 < 52001 ∧ (52001 < 38000 ∨ 52000 < 52001)) ∧ 36000 ≤ 36000 ∧
      ((38000 ≤ 38000 ∧ 38000 < 40000) ∧ (50000 < 52000 ∧ 52000 ≤ 52000)) ∧ 40000 ≤ 40000 ∧ 40000 ≤ 50000 := by decide

theorem wit_limits :
    fieldLimited (pwrState (fun w => { w with iinLim := true })).pwr 0 = true ∧
      (let s := pwrState (fun w => setField w 0 { fieldOf w 0 with st := 1 })
       (fieldOf s.pwr 0).st = 1 ∧ partOfField (setOsc { s with pwr := syncEmerg s.clock (softStartDone s.pwr 0) } 0 true) 0 = some 0) ∧
      (let s := pwrState (fun w => setField w 7 { fieldOf w 7 with st := 1 })
       partOfField (setOsc { s with pwr := syncEmerg s.clock (softStartDone s.pwr 7) } 7 true) 7 = none) ∧
      13 ≤ convWorking (syncEmerg 0 { ready.pwr with convBad := 3 }) ∧ convWorking (syncEmerg 0 { ready.pwr with convBad := 4 }) < 13 := by
  decide +kernel

theorem wit_heat :
    (sensorOf ready.pwr 0 127).1 < stageReached 0 200 ∧ 127 < sensorCount 0 ∧
      (let w := setSensor ready.pwr 4 15 (3, 0)
       stageHeld 4 0 < (sensorOf w 4 15).1 ∧ (sensorOf w 4 15).1 = 3 ∧ 15 < sensorCount 4) ∧
      partOfField ready (regionField 0) = some 0 ∧ leadRegion ready 0 = some 0 ∧ leadRegion ready 0 ≠ some 1 ∧ (policyOf ready.pwr 0).fixed = false ∧
      (policyOf (setPolicy ready.pwr 0 { policyOf ready.pwr 0 with fixed := true }) 0).fixed = true ∧ headroom ready.pwr 0 = true := by decide +kernel

/-- R351: the effective cap is the lowest of the caps set. -/
theorem test_effective_cap : effectiveCap { ready.pwr with capP0 := 5000, capP1 := 4000, capBmc := 0 } = 4000 := by decide +kernel

/-! Mailbox commands. -/

theorem wit_takes : takesStart ready ∧ takesAny ready := by
  refine ⟨⟨by decide +kernel, by decide +kernel⟩, ⟨⟨by decide +kernel, by decide +kernel⟩, by decide +kernel⟩⟩

theorem wit_refused : isMailbox (.partConfig 0 9 1 0 0) = true ∧ kilnUp ready = true ∧
    (match exec (.partConfig 0 9 1 0 0) ready with | .next t => t.kiln.respSt | _ => 0) ≠ 0 := by decide +kernel

theorem wit_module_commands :
    (0x01 : Byte).toNat ≤ 1 ∧ (65535 : Word).toNat < 65536 ∧ 60 ≤ (60 : BitVec 16).toNat ∧ (3600 : BitVec 16).toNat ≤ 3600 ∧
      (ready.flash.putUpd (fun u => { u with staging := 2 })).staging = 2 ∧ { ready.upd with actSt := 1 }.actSt = 1 := by decide +kernel

theorem wit_attach :
    let a : AttachArgs := ⟨5, 0, 0x10000, 0x20000, 6, 6, 6, 0, 0⟩
    let r := attachRings a
    logszOk r.1.logsz = true ∧ logszOk r.2.1.logsz = true ∧ logszOk r.2.2.logsz = true ∧ (hostOf readyPage 0).st = 0 ∧
      ringOk readyPage r.1 (ownedParts readyPage 0) = true ∧ ringOk readyPage r.2.1 (ownedParts readyPage 0) = true ∧
      ringOk readyPage r.2.2 (ownedParts readyPage 0) = true ∧ portCtxs readyPage 0 = [] ∧ (0xFFFFFF : Word).toNat < 2 ^ 24 ∧
      foreignPages readyPage 0 0xFFFFFF 1 = false := by decide +kernel

theorem wit_part_config :
    partTask ready 7 = false ∧ foreignPart ready 0 7 = false ∧ (2 : Byte).toNat ≤ 2 ∧ (3 : Byte).toNat ≤ 3 ∧ partCtxs ready 7 = [] ∧ fieldsTaken ready 7 0xEE = false ∧
      isRect 0xEE = true ∧ gangsOk 3 0xFF = true ∧ fieldsTaken State.reset 0 0xFF = false ∧ (partOf ready 0).on = true ∧ partCtxs ready 0 = [] := by
  decide +kernel

theorem wit_part_power :
    let off := setPart ready 0 { partOf ready 0 with powered := false }
    let up := setPart ready 0 { partOf ready 0 with powered := false, powering := true }
    let hot := { off with pwr := { off.pwr with hot := [0] } }
    let drain := setPart ready 0 { partOf ready 0 with draining := true }
    ((partOf off 0).on = true ∧ (partOf off 0).port = 0 ∧ (partOf off 0).powered = false ∧ (partOf off 0).powering = false ∧
        cannotPower off 0 = false) ∧ partTask off 0 = false ∧ ready.kiln.stat ≠ 2 ∧
      (let d := setPart ready 0 { partOf ready 0 with draining := true, powered := false }
       (partOf d 0).on = true ∧ (partOf d 0).draining = true ∧ (partOf d 0).powered = false ∧ queuesEmpty d 0 = true) ∧ cannotPower hot 0 = true ∧ (partOf ready 0).powered = true ∧ idleForPower ready 0 = true ∧
      ((partOf up 0).powered = false ∧ (partOf up 0).powering = true ∧ idleForPower up 0 = true) ∧
      ((partOf drain 0).on = true ∧ (partOf drain 0).draining = true ∧ (partOf drain 0).powered = true ∧ queuesEmpty drain 0 = true) := by
  decide +kernel

theorem wit_power_policy :
    policyBad ready 3000 0 1 28 = false ∧ policyBad ready 6400 0 1 42 = false ∧ policyBad ready 0 0xFF 0 0 = false ∧ partTask ready 0 = false ∧ foreignPart ready 0 0 = false := by
  decide +kernel

theorem wit_ctx_create :
    let a : CtxArgs := ⟨0, 3, 1000, 0, 0x10000, 6, 6, 32, 4, 0xFFFF⟩
    partTask readyPage 0 = false ∧ foreignPart readyPage 0 0 = false ∧ ctxArgsBad readyPage a = false ∧ ringOk readyPage ⟨0, 6, 0⟩ [0] = true ∧
      ringOk readyPage ⟨0x10000, 6, 0⟩ [0] = true ∧ pinnedTwice readyPage a = false ∧ freeCtx readyPage = some 0 := by decide +kernel

theorem wit_ctx_commands :
    let s := readyCtx (fun c => { c with st := .running, run := some aRun })
    let p := readyCtx (fun c => { c with st := .paused })
    (ctxLive s 0 = true ∧ (ctxOf s 0).port = 0 ∧ s.kiln.stat ≠ 3 ∧ (ctxOf s 0).run ≠ none ∧ (ctxOf s 0).st ≠ .paused) ∧
      (ctxLive p 0 = true ∧ (ctxOf p 0).run = none ∧ (ctxOf p 0).st = .paused) ∧
      ctxTask s 0 = false ∧ ctxTask p 0 = false := by decide +kernel

theorem wit_tmap :
    noPart ready 0 = false ∧ partTask ready 0 = false ∧ foreignPart ready 0 0 = false ∧ (1 : Byte).toNat ≤ 1 ∧ ddrFitted ready = true ∧ 16777215 + 1 ≤ 2 ^ 24 ∧ mappedIn ready 16777215 1 = [] ∧
      1 ≤ freeFrames ready.mem 1 true ∧
      (∀ e ∈ mappedIn readyPage 0 1, tePart e.2 ∈ ownedParts readyPage 0 ∧ foreignPart readyPage 0 (tePart e.2) = false) ∧
      (∀ n ∈ allRingPages readyPage, ¬ (0 ≤ n ∧ n < 1)) ∧ 1 ≤ (56 : Byte).toNat ∧ (56 : Byte).toNat ≤ 56 ∧
      foreignPages readyPage 0 0 56 = false := by decide +kernel

theorem wit_fabric_assign :
    let a : AssignArgs := ⟨0, 0, 0, 0, 1, 1, 0⟩
    assignBad a = false ∧ liveCtxs ready = [] ∧
      mapOk a.addr (a.sxm.toNat + 1) (a.sym.toNat + 1) (a.szm.toNat + 1) (assignEntry a.map.toNat) = true ∧ (95 : Byte).toNat < 96 ∧ (5 : Byte).toNat < 6 := by
  decide +kernel

/-- A cord of one rank over all tiles of partition 0. -/
def oneCord : CordEntry := { cord0 with valid := true, ifmt := 10, ofmt := 10, btiles := 256, ember := true }

theorem wit_cord_setup :
    let ent : BitVec 256 := BitVec.ofNat 256 (encCord oneCord)
    let c := decCord ent.toNat
    bits ent.toNat 184 4 = 0 ∧ bits ent.toNat 0 128 = 0 ∧ (4095 : BitVec 16).toNat < 4096 ∧ cordTask ready 4095 = false ∧ partTask ready c.part = false ∧ foreignCord ready 0 4095 = false ∧
      (c.valid = true ∧ foreignPart ready 0 c.part = false ∧ noPart ready c.part = false ∧ 1 ≤ c.btiles ∧ c.btiles ≤ 2048 ∧ c.mframe < hbmFrames ∧
        cordSetupOk ready.fab ready.mem c (partSize ready c.part) = true) ∧ cordBusy ready 4095 = false ∧
      cordBusy (readyCtx (fun x => { x with run := some aRun, cord := some 4095 })) 4095 = true := by decide +kernel

theorem wit_rank_replace :
    let s := readyCtx (fun c => { c with cord := some 0 })
    let s := { s with fab := { s.fab with cords := [(0, aCord)] } }
    let a : ReplaceArgs := ⟨0, 1, 5, 0, 0, 1, [0]⟩
    ctxLive s 0 = true ∧ foreignCtx s 0 0 = false ∧ a.cords = [0] ∧ foreignCord s 0 0 = false ∧ ctxTask s 0 = false ∧ cordTask s 0 = false ∧ a.cords.length ≤ 100 ∧
      replaceOk s (ctxOf s 0) a = true := by decide +kernel

theorem wit_ember :
    let c := { aCord with ember := true }
    let s := { ready with
      fab := { ready.fab with cords := [(0, c)] }
      mem := (List.range 64).foldl (fun m i => tmapSet m i (teMake true 0 0 false i)) ready.mem }
    let a : EmberArgs := ⟨7, 1, 0, 15, 1, 1, 0, 32, 100⟩
    emberArgsBad s a = false ∧ c.valid = true ∧ c.ember = true ∧ foreignStream s 0 7 = false ∧ foreignCord s 0 0 = false ∧ cordTask s 0 = false ∧
      foreignPages s 0 0 32 = false ∧ foreignPages s 0 32 32 = false ∧ bufferIn s 0 32 0 = true ∧ bufferIn s 32 32 0 = true ∧
      { a with valid := 0 }.valid = 0 := by decide +kernel

theorem wit_digest :
    let s := { ready with fab := { ready.fab with cords := [(0, aCord)] } }
    let a : DigestArgs := ⟨7, 1, 0, 16, 0⟩
    a.str.toNat < 8 ∧ a.enable.toNat ≤ 1 ∧ foreignStream s 0 7 = false ∧ foreignCord s 0 0 = false ∧ cordTask s 0 = false ∧ a.vcord.toNat < 4096 ∧ a.every ≠ 0 ∧
      voteShape (cordOf s.fab 0) = true := by decide +kernel

theorem wit_lockstep_start :
    let y := policyOf ready.pwr 0
    let mine : LockSide := ⟨ready.kiln.dclass, imgVersion ready.flash.active, y.fixed, y.step, (partOf ready 0).loaded⟩
    let a (x : LockSide) : LockArgs := ⟨0, 95, 5, 0, 12, x⟩
    partTask ready 0 = false ∧ foreignPart ready 0 0 = false ∧ noPart ready 0 = false ∧ (a mine).link.toNat < 96 ∧ (a mine).logsz.toNat ≤ 12 ∧
      (a mine).theirs = mine ∧ mapRole (mapOf ready.fab 95) = 0 ∧ (a { mine with version := mine.version + 1 }).theirs ≠ mine := by decide +kernel

theorem wit_reset_orders :
    targetPart ready 1 0 = some 0 ∧ targetPart ready 2 0 = some 0 ∧ targetPart ready 3 0 = some 0 ∧ partTask ready 0 = false ∧ foreignPart ready 0 0 = false ∧
      resetOverlaps ready 1 0 = false ∧ resetOverlaps ready 2 0 = false ∧ resetOverlaps ready 3 0 = false ∧ resetHeld ready 1 0 = false ∧
      resetHeld ready 2 0 = false ∧ resetHeld ready 3 0 = false := by decide +kernel

theorem wit_reset_module :
    (1 : Byte).toNat ≤ 1 ∧ mayReset ready 0 4 = true ∧ resetOverlaps ready 4 0 = false ∧ resetHeld ready 4 0 = false ∧ mayReset ready 0 5 = true ∧
      resetOverlaps ready 5 0 = false ∧ resetHeld ready 5 0 = false := by decide +kernel

theorem wit_reset_apply :
    let j : ResetJob := ⟨1, 0, false, 0, [0]⟩
    let s := { ready with kiln := { ready.kiln with resets := [j] } }
    s.kiln.resets = j :: [] ∧ s.kiln.stat ≠ 2 ∧ scopeQuiet s j = true ∧
      scopeQuiet { s with ring := { s.ring with pulls := [{ aPull with d := ⟨0, 0, 0, 0⟩ }] } } j = false ∧ resetParts s j.level j.target = [] ∧ resetParts s 3 0 ≠ [] := by decide +kernel

/-- R399: a quantum of 1,001 ms is out of range. -/
theorem test_quantum : ctxArgsBad readyPage ⟨0, 3, 1001, 0, 0x10000, 6, 6, 32, 4, 0xFFFF⟩ = true := by decide +kernel

/-! Host accesses, mailboxes and heartbeats. -/

/-- Port 0 of a state decodes accesses, and is changed by f. -/
def portUp (s : State) (f : HostPort → HostPort) : State := updHost s 0 (fun x => f { x with linkUp := true })

theorem wit_host_registers :
    let x := hostOf (portUp readyPage id) 0
    decodes x = true ∧ 16777212 % 4 = 0 ∧ x.waitWr = [] ∧ (hostOf (portUp readyPage (fun x => { x with waitWr := [.reg 0 0] })) 0).waitWr ≠ [] ∧
      bar0Accepts 2 4 false = false ∧ bar0Accepts 0x10100 4 true = true ∧ bar0Accepts 0x10004 8 true = true ∧ bar0Accepts 0x100FC 8 true = false := by
  decide +kernel

theorem wit_host_bar2 :
    let s := portUp readyPage (fun x => { x with bar2 := some 0 })
    let x := hostOf s 0
    inBar2 x 1073741823 1 = true ∧ inBar2 x 0 4096 = true ∧ x.bar2 = some 0 ∧ (hostOf (portUp readyPage id) 0).bar2 = none ∧ x.linkUp = true := by
  decide +kernel

theorem wit_host_bar2_range :
    let p := ownedParts readyPage 0
    let as_ (w : Word) : MemState := seenMem { tmapSet ready.mem 0 w with stale := [] }
    translateRange (seenMem ready.mem) 0 512 p false = .bad 0x30 ∧ translateRange (seenMem readyPage.mem) 0 512 p true = .ok 0 0 ∧
      translateRange (as_ (teMake true 0 0 true 0)) 0 512 p true = .wait ∧ translateRange (as_ (teMake false 0 0 false 0)) 0 512 p true = .bad 0x32 ∧
      (∀ st, translateRange (seenMem readyPage.mem) 0 512 p false ≠ .bad st) :=
  ⟨rfl, rfl, rfl, rfl, fun st h => by have e : translateRange (seenMem readyPage.mem) 0 512 (ownedParts readyPage 0) false = .ok 0 0 := rfl
                                      rw [e] at h; cases h⟩

theorem wit_mailbox :
    let m (st : Nat) := mbxOf (hostOf (portUp ready (fun x => setMbx x 15 { mbx0 with st := st })) 0) 15
    ((m 0).st = 0 ∨ (m 0).st = 3) ∧ ((m 1).st = 1 ∨ (m 1).st = 2) ∧ (m 3).st = 3 ∧ kilnUp ready = true ∧ mayWake ready (m 1) = true ∧
      cmdHdr (m 1).latched 0 16 ≠ 0x03 := by decide +kernel

/-- Mailboxes 3 and 15 of port 0 wait; 3 was rung in IR cycle 5, 15 in an IR cycle given. -/
def twoRung (at_ : Nat) : State :=
  portUp { ready with clock := 9 } (fun x =>
    setMbx (setMbx x 3 { mbx0 with st := 1, rungAt := 5, latched := [1] }) 15 { mbx0 with st := 1, rungAt := at_, latched := [1] })

theorem wit_mailbox_order :
    nextTask 1 (mbxTasks (twoRung 5)) = some ⟨4, 5, 3⟩ ∧ 3 ≠ 16 * (0 : Fin 2).val + (15 : Fin 16).val ∧
      (mbxTasks (twoRung 5)).any (fun q => q.idx == 16 * (0 : Fin 2).val + (15 : Fin 16).val) = true ∧ kilnUp (twoRung 5) = true ∧
      nextTask 1 (mbxTasks (twoRung 4)) = some ⟨4, 4, 15⟩ ∧ (⟨4, 4, 15⟩ : KTask) ∈ mbxTasks (twoRung 4) ∧
      (mbxOf (hostOf (twoRung 4) 0) 15).st = 1 ∧ mayWake (twoRung 4) (mbxOf (hostOf (twoRung 4) 0) 15) = true := by decide +kernel

theorem wit_msix :
    let s := portUp ready (fun x => { x with pend := [2047], msixOn := true, busMaster := true, vecs := smSet vec0 [] 2047 { vec0 with masked := false } })
    mayMsix s (hostOf s 0) 2047 = true := by decide +kernel

theorem wit_heartbeat :
    let s := portUp readyPage (fun x => { x with st := 1, ev := some ⟨0, 6, 0⟩, beat := some 0, same := 9 })
    let b := BitVec.ofNat 32 (ringHostBeat s.mem ⟨0, 6, 0⟩)
    (hostOf s 0).ev = some ⟨0, 6, 0⟩ ∧ (hostOf s 0).st = 1 ∧ (if (hostOf s 0).beat = some b then (hostOf s 0).same + 1 else 0) = 10 ∧
      (hostOf (portUp ready (fun x => { x with st := 2 })) 0).st = 2 ∧ (hostOf (portUp ready (fun x => { x with d3hot := true })) 0).d3hot = true ∧
      1 ≤ ready.boot.stage ∧ s.kiln.stat ≠ 2 := by decide +kernel

/-- R369: the device ID of the configuration space is 7A08H. -/
theorem test_device_id : cfgWord ready 0 / 2 ^ 16 = 0x7A08 := by
  show (0x7A08 * 2 ^ 16 + Config.cfgSpace 0 % 2 ^ 16) / 2 ^ 16 = 0x7A08
  omega

/-! Lock-step, the watchdog and telemetry. -/

/-- The lock-step side of the ready module after a change. -/
def lockState (f : LsState → LsState) : State := { ready with kiln := { ready.kiln with ls := f { ready.kiln.ls with enable := true } } }

theorem wit_window :
    let s := lockState (fun x => { x with sec := some (1, 0, 0) })
    let x := s.kiln.ls
    let own : LsWin := ⟨1, 0, 0, 0, streamDigests (windowTiles x.sums 0)⟩
    x.sec = some (1, 0, 0) ∧ x.enable = true ∧ (x.log.filter (fun e => sameSec e.own own)).length = 0 ∧ tilesPast s 0 = true ∧ itemsDone s 0 = true ∧
      (x.theirs.filter (fun o => !outdated own o.1)).find? (fun o => sameSec o.1 own && o.1.win == 0) = none ∧
      (([(own, [])] : List (LsWin × SMap DWord)).filter (fun o => !outdated own o.1)).find? (fun o => sameSec o.1 own && o.1.win == 0) =
        some (own, []) := by
  refine ⟨rfl, rfl, rfl, by decide +kernel, by decide +kernel, rfl, rfl⟩

theorem wit_lockstep_record :
    let r : LsRec := ⟨1, 0, 0, 0, [], []⟩
    let e : LsLog := ⟨⟨1, 0, 0, 0, []⟩, [], false⟩
    let x := (lockState (fun x => { x with log := [e] })).kiln.ls
    x.enable = true ∧
      (x.log.filter (fun o => !outdated (recOf r).1 o.own)).find? (fun e => sameSec e.own (recOf r).1 && e.own.win == (recOf r).1.win && !e.met) = some e ∧
      (([] : List LsLog).filter (fun o => !outdated (recOf r).1 o.own)).find?
        (fun e => sameSec e.own (recOf r).1 && e.own.win == (recOf r).1.win && !e.met) = none := by decide +kernel

theorem wit_lockstep_lag :
    let e : LsLog := ⟨⟨1, 0, 0, 0, []⟩, [], false⟩
    let x := (lockState (fun x => { x with log := [e, e] })).kiln.ls
    (x.enable = true ∧ 2 ^ x.logsz < lsLag x ∧ 0 < lsLag x) ∧ ready.kiln.stat ≠ 2 ∧
      (lockState (fun x => { x with want := some ⟨0, 0, 0, 0, 0, 0⟩ })).kiln.ls.want = some ⟨0, 0, 0, 0, 0, 0⟩ := by decide +kernel

theorem wit_watchdog :
    (ready.boot.running = true ∧ 1 ≤ ready.boot.stage ∧ ready.kiln.stat ≠ 2) ∧ ({ ready.kiln with stat := 2 } : KilnState).stat = 2 ∧
      kilnUp ready = true := by decide +kernel

/-! Kindling, transfers and activation. -/

/-- Kindling at a stage. -/
def stageState (n : Nat) : State :=
  { ready with boot := { ready.boot with stage := n, state := 0, waited := true } }

theorem wit_stages :
    (∀ n ∈ [0, 1, 2, 3, 4, 5, 6, 7, 8], inStage (stageState n) n = true) ∧ (stageState 3).boot.waited = true ∧
      (∀ l < 96, (portOf (stageState 7).lk l).st ≠ 1) := by decide +kernel

theorem wit_stage0 : (chooseImage (dropCut (stageState 0).flash)).2 = some (0, shippedImage) := shipped_starts

theorem wit_stage0_stops : (chooseImage (dropCut { flashInit with active := none })).2 = none := rfl

theorem wit_stage_codes :
    stage1Code ready.flash ⟨0, true, true⟩ = 0 ∧ stage1Code ready.flash ⟨0, false, true⟩ ≠ 0 ∧ stage2Code (shedAll (stageState 2) []).pwr = 0 ∧
      (powerWaves (stageState 4) []).2 = 0 ∧ (powerWaves (stageState 4) [[.unit 0 0 .rowBroadcast, .unit 0 1 .rowBroadcast]]).2 ≠ 0 ∧ ddrFitted (stageState 6) = true ∧ (stageState 6).boot.serials.any (· == 0) = false ∧
      overWithheld (withhold { stageState 5 with mem := trainDevs (stageState 5).mem 0 16 (fun _ => true) } 0 []).mem 0 16 2621 = false ∧
      overWithheld (withhold { stageState 6 with mem := trainDevs (stageState 6).mem 1 12 (fun i => nth0 (stageState 6).boot.serials i != 0) } 1 []).mem
        1 12 5242 = false ∧ ddrFitted { stageState 6 with flash := { flashInit with model := 2 } } = false := by decide +kernel

theorem wit_kindling_waits :
    (stageState 3).kiln.utc = none ∧ ({ ready.kiln with utc := some 5 } : KilnState).utc ≠ none ∧
      (let s := { ready with boot := { ready.boot with booted := 2 }, flash := ready.flash.putUpd (fun u => { u with copy := 3 }) }
       kilnUp s = true ∧ s.boot.booted = 2 ∧ s.flash.copy < 4) ∧
      (let s := { ready with boot := { ready.boot with booted := 1 }, flash := ready.flash.putUpd (fun u => { u with copy := 5 }) }
       kilnUp s = true ∧ s.boot.booted = 1 ∧ s.flash.copy = 5) := by decide +kernel

/-- A transfer with a header taken and 8 bytes of body. -/
def transferState (h : List Byte) : State :=
  { ready with
    upd := { ready.upd with conn := true, header := some (h, true), body := List.replicate 8 0 }
    flash := ready.flash.putUpd (fun u => { u with staging := 1 }) }

theorem wit_transfer :
    (xferUp ready = true ∧ ready.upd.conn = false ∧ ({ ready.boot with recovery := true } : BootState).recovery = true) ∧ (xferUp (transferState []) = true ∧ (transferState []).upd.conn = true) ∧
      headerBusy ready = false ∧ headerBusy { ready with upd := { ready.upd with actSt := 1 } } = true ∧ headerStatus ready.flash [] true ≠ 0 ∧
      (transferState []).flash.staging = 1 := by decide +kernel

theorem wit_transfer_header : headerStatus ready.flash shippedHeader true = 0 := shippedHeader_ok

theorem wit_transfer_chunk :
    hdrBodyLen shippedHead = 4096 ∧ 0 < (List.replicate 4088 (0 : Byte)).length ∧ (List.replicate 4088 (0 : Byte)).length ≤ 65536 ∧
      (8 : DWord).toNat = (transferState shippedHead).upd.body.length ∧
      (transferState shippedHead).upd.body.length + (List.replicate 4088 (0 : Byte)).length ≤ 4096 ∧
      (9 : DWord).toNat ≠ (transferState shippedHead).upd.body.length := by decide +kernel

theorem wit_transfer_finish :
    let h := List.replicate 28 (0 : Byte) ++ digest48 (transferState []).upd.body ++ []
    digest48 (transferState h).upd.body = hdrDigest h ∧ (transferState h).boot.recovery = false := by
  refine ⟨?_, rfl⟩
  have e := field_digest (List.replicate 28 0) (digest48 (transferState []).upd.body) []
  rw [List.length_replicate, digest48_length] at e
  exact e.symm

theorem wit_transfer_finish_bad : digest48 (transferState []).upd.body ≠ hdrDigest [] := by
  intro h
  have e := congrArg List.length h
  rw [digest48_length] at e
  exact absurd e (by decide)

theorem wit_activation :
    (let s := { ready with upd := { ready.upd with actSt := 1 } }
     kilnUp s = true ∧ s.upd.actSt = 1 ∧ s.upd.actTime.toNat ≤ ftimeNs s.fab) ∧
      (let s := { ready with upd := { ready.upd with actSt := 2 }, clock := 32000000000 }
       kilnUp s = true ∧ s.upd.actSt = 2 ∧ actUnmet s = 0) ∧
      (let s := { readyCtx id with upd := { ready.upd with actSt := 2 } }
       kilnUp s = true ∧ firstUnmet (actUnmet s) ≠ 0) := by decide +kernel

/-- R449: with no image that verifies, Stage 0 finds none. -/
theorem test_no_image : idleImage { flashInit with active := none, previous := none } = none := rfl

theorem wit_full_start :
    let s : State := { stageState 3 with flash := { (stageState 3).flash with fullRec := (stageState 3).flash.fullRec.write (runningFmt (stageState 3), true) } }
    takesStart ready ∧ inStage s 3 = true ∧ s.boot.decided = false ∧ s.boot.waited = true ∧ s.flash.fullReq = true ∧
      inStage (stageState 8) 8 = true := by
  refine ⟨?_, by decide +kernel, by decide +kernel, by decide +kernel, rfl, by decide +kernel⟩
  exact ⟨by decide +kernel, by decide +kernel⟩
/-! SPDM and the side-band. -/

theorem wit_spdm :
    let s := updHost ready 0 (fun x => { x with linkUp := true })
    kilnUp s = true ∧ (hostOf s 0).linkUp = true ∧ 2 ≤ s.boot.stage ∧ (⟨true, true, true, none⟩ : SpdmConn).version = true ∧
      servedCodes.contains (0x85 : Byte).toNat = false ∧ ready.pwr.isOn = true := by decide +kernel

theorem wit_cap_set :
    ((0 : BitVec 16).toNat = 0 ∨ (3000 ≤ (0 : BitVec 16).toNat ∧ (0 : BitVec 16).toNat ≤ 6400)) ∧
      (3000 ≤ (3000 : BitVec 16).toNat ∧ (6400 : BitVec 16).toNat ≤ 6400) ∧
      ((2999 : BitVec 16).toNat ≠ 0 ∧ (2999 : BitVec 16).toNat < 3000) ∧ 6400 < (6401 : BitVec 16).toNat := by decide

/-! What every step keeps. -/

theorem wit_steps_keep :
    memoryWf ready = true ∧ stepsTo { State.reset with pending := [.nop 0 0] } State.reset := ⟨by decide +kernel, rfl⟩


end Sys2Proof.Tests
end

section
/-! SUPPORT. A vector access at a misaligned address is a program fault (O13, R122, R125). What is due at the start of a logical cycle never stops
a tile, so a tile that issues is still running when an operation of a slot is refused; the refusal is then recorded whole (R131) and the
cycle is the tile's last, which is counted (R202). -/

namespace Sys2Proof.Machine

/-! What becomes due at the start of a logical cycle leaves the state of the tile, IDLE, RUN or FAULT, as it was. -/

/-- A fold of changes that each keep the state of the tile keeps it. -/
theorem foldl_keeps_st {β : Type} {f : Tile → β → Tile} (hf : ∀ x b, (f x b).st = x.st) (l : List β) (x : Tile) :
    (l.foldl f x).st = x.st := by
  induction l generalizing x with
  | nil => rfl
  | cons b l ih => rw [List.foldl_cons, ih, hf]

@[simp] theorem setTag_st (x : Tile) (slot : Nat) (g : SlotTag) : (setTag x slot g).st = x.st := rfl

@[simp] theorem addEv_st (x : Tile) (c : Nat) (e : NumEv) : (addEv x c e).st = x.st := by
  unfold addEv
  split <;> rfl

@[simp] theorem emptySlots_st (x : Tile) (l : List Nat) : (emptySlots x l).st = x.st := by
  induction l generalizing x with
  | nil => rfl
  | cons s ss ih =>
    rw [emptySlots, ih]
    split <;> simp

@[simp] theorem progTag_st (x : Tile) (slot : Nat) (g : TagSt) : (progTag x slot g).st = x.st := by
  cases g <;> simp only [progTag] <;> split <;> simp

@[simp] theorem loosen_st (own : Nat) (before after : Tile) (l : List Nat) : (loosen own before after l).st = after.st := by
  induction l generalizing after with
  | nil => rfl
  | cons s ss ih =>
    rw [loosen, ih]
    split <;> rfl

@[simp] theorem applyDue_st (x : Tile) (d : Due) : (applyDue x d).st = x.st := by
  cases d with
  | sc n w => simp only [applyDue]; split <;> rfl
  | wopen w d => simp only [applyDue]; split <;> simp
  | tag s g => simp [applyDue]
  | mtag s g => simp [applyDue]
  | _ => rfl

@[simp] theorem settleDue_st (x : Tile) : (settleDue x).st = x.st := by
  have keeps : ∀ (y : Tile) (p : Nat × Due), (applyDue y p.2).st = y.st := fun y p => applyDue_st y p.2
  simp only [settleDue, foldl_keeps_st keeps]

@[simp] theorem moverTag_st (x : Tile) (slot : Nat) (e : TagEv) : (moverTag x slot e).st = x.st := by
  cases e <;> simp only [moverTag] <;> split <;> simp

@[simp] theorem settleSoon_st (x : Tile) : (settleSoon x).st = x.st := by
  have keeps : ∀ (y : Tile) (p : Nat × TagEv), (moverTag y p.1 p.2).st = y.st := fun y p => moverTag_st y p.1 p.2
  simp only [settleSoon, foldl_keeps_st keeps]

@[simp] theorem drainRead_st (x : Tile) (d : DrainOp) : (drainRead x d).st = x.st := by
  unfold drainRead
  split <;> simp

@[simp] theorem residueError_st (x : Tile) (col : Nat) : (residueError x col).st = x.st := rfl

@[simp] theorem settleArray_st (x : Tile) : (settleArray x).st = x.st :=
  (foldl_keeps_st residueError_st _ _).trans (foldl_keeps_st drainRead_st x.arr.drains x)

@[simp] theorem tileNow_st (x : Tile) : (tileNow x).st = x.st := by simp [tileNow]

/-- R111, R131: a tile that issues runs, and does so still when everything due in the cycle has been applied. -/
theorem tileNow_st_of_issuesAt {s : State} {t : Nat} (h : issuesAt s t = true) : (tileNow (tileOf s t)).st = .run := by
  simp only [issuesAt, tileIssues, Bool.and_eq_true, beq_iff_eq] at h
  obtain ⟨⟨⟨⟨⟨hrun, -⟩, -⟩, -⟩, -⟩, -⟩ := h
  rw [tileNow_st, hrun]

/-! A refused operation (R131, R202). -/

/-- R131, R202: a running tile that an operation stops with a code records the fault, and the cycle is counted as its last. -/
theorem lastCycle_tileFault_code (s : State) (t : Nat) {x : Tile} (hx : x.st = .run) (code slot : Nat) :
    lastCycle (opEnv s t).limit (tileFault x (.code code) slot (x.pc % 8192)) = refusedBy s t x code slot := by
  simp [lastCycle, tileFault, hx, arrFault, tfaultCode, countPeriods, refusedBy]

/-- R131: an operation of a slot that is refused with a code on a tile that issues changes that tile only, and nothing in it but the record
of the fault and the stop it causes. -/
theorem slotOp_refused {s : State} {t : Nat} (hi : issuesAt s t = true) {slot code : Nat} {f : Tile → Except TFault Tile}
    (hf : f (tileNow (tileOf s t)) = .error (.code code)) :
    slotOp s t slot f = setTile s t (refusedBy s t (tileNow (tileOf s t)) code slot) := by
  have hissues : tileIssues (opEnv s t).partners (tileOf s t) = true := hi
  have hrun := tileNow_st_of_issuesAt hi
  rw [slotOp, updTile, tileOp, if_pos hissues, hf, slotResult, lastCycle_tileFault_code s t hrun]

/-! The four vector forms at a misaligned address (R122, R125): each is refused before it claims anything. -/

section
variable {x : Tile} {f : VMem} {fmt : Fmt} (hfmt : fmtOfCode f.fmt.val = some fmt)
include hfmt

theorem issueVld_misaligned (hlong : fmtIsMx fmt = false) (ha : (adGet x f.ade.val).addr.toNat % 64 ≠ 0) :
    issueVld x f = .error (.code 0x09) := by
  simp [issueVld, hfmt, hlong, ha]

theorem issueVdqt_misaligned (hmx : fmtIsMx fmt = true) (ha : (adGet x f.ade.val).addr.toNat % 16 ≠ 0) :
    issueVdqt x f = .error (.code 0x09) := by
  simp [issueVdqt, hfmt, hmx, ha]

variable {rm : RMode} (hrm : rmodeOf f.rmode.val = some rm)
include hrm

theorem issueVst_misaligned (hlong : fmtIsMx fmt = false) (ha : (adGet x f.ade.val).addr.toNat % 64 ≠ 0) :
    issueVst x f = .error (.code 0x09) := by
  simp [issueVst, hfmt, hrm, hlong, ha]

theorem issueVqnt_misaligned (hmx : fmtIsMx fmt = true) (ha : (adGet x f.ade.val).addr.toNat % 16 ≠ 0) :
    issueVqnt x f = .error (.code 0x09) := by
  simp [issueVqnt, hfmt, hrm, hmx, ha]

end

/-- Settles O13: each of the four forms is refused with code 0x09 before it claims a register or a port cycle, and a refusal on a tile
that issues is the record of the fault and the tile's counted last cycle. -/
theorem misalignedVectorAccessFaults : Obligations.MisalignedVectorAccessFaults := by
  intro s t f fmt rm hi hfmt hrm
  refine ⟨fun hlong ha => ⟨?vld, ?vst⟩, fun hmx ha => ⟨?vqnt, ?vdqt⟩⟩
  case vld => rw [exec_vld, execVld, slotOp_refused hi (issueVld_misaligned hfmt hlong ha)]
  case vst => rw [exec_vst, execVst, slotOp_refused hi (issueVst_misaligned hfmt hrm hlong ha)]
  case vqnt => rw [exec_vqnt, execVqnt, slotOp_refused hi (issueVqnt_misaligned hfmt hrm hmx ha)]
  case vdqt => rw [exec_vdqt, execVdqt, slotOp_refused hi (issueVdqt_misaligned hfmt hmx ha)]

end Sys2Proof.Machine
end

section
/-! SUPPORT. BOWN (O6, R138). The owners of the banks follow three fields of a tile: the owner map, the logical cycle, and the list of due
changes. What settles the rest of the tile leaves the three alone, so a change of owners that is due at t + 1 acts on the map as the other
changes due by t + 1 have left it. -/

namespace Sys2Proof.Machine

/-- An operation of a slot that a tile accepts, and that does not stop it, changes that tile only, and to what the operation answers. -/
theorem slotOp_issued {s : State} {t : Nat} (hi : issuesAt s t = true) {slot : Nat} {f : Tile → Except TFault Tile} {y : Tile}
    (hf : f (tileNow (tileOf s t)) = .ok y) (hy : y.st = .run) : slotOp s t slot f = setTile s t y := by
  have hissues : tileIssues (opEnv s t).partners (tileOf s t) = true := hi
  rw [slotOp, updTile, tileOp, if_pos hissues, hf, slotResult, lastCycle, if_neg (by simp [hy])]

/-- R153: the window check reads the state in force, not what is due later. -/
@[simp] theorem windowCheck_addDue (x : Tile) (c : Nat) (d : Due) (h : InHdr) : windowCheck (addDue x c d) h = windowCheck x h := rfl

/-! The owner map (R138). -/

/-- The owner of a bank that an owner map gives (R138, SPAD_OWN). -/
def ownerIn (own : BitVec 32) (bank : Nat) : Nat := bits own.toNat (2 * bank) 2

theorem bankOwner_eq (x : Tile) (bank : Nat) : bankOwner x bank = ownerIn x.own bank := rfl

theorem bankOwner_lt_four (x : Tile) (bank : Nat) : bankOwner x bank < 4 := Nat.mod_lt _ (by decide)

theorem bankOwner_congr {x y : Tile} (h : x.own = y.own) (bank : Nat) : bankOwner x bank = bankOwner y bank := by
  rw [bankOwner_eq, bankOwner_eq, h]

/-- One bank of the owner map gets a port. -/
def setOwner (own : BitVec 32) (port bank : Nat) : BitVec 32 :=
  (own &&& ~~~(3#32 <<< (2 * bank))) ||| (BitVec.ofNat 32 port <<< (2 * bank))

/-- A port is a number of two bits. -/
theorem testBit_port {port i : Nat} (hp : port < 4) (hi : 2 ≤ i) : port.testBit i = false :=
  Nat.testBit_lt_two_pow (hp.trans_le (Nat.pow_le_pow_right (n := 2) (by decide) hi))

/-- The two bits of the bank are the port's, and every other bit stays. -/
theorem getLsbD_setOwner (own : BitVec 32) {port : Nat} (hp : port < 4) (bank : Nat) {i : Nat} (hi : i < 32) :
    (setOwner own port bank).getLsbD i =
      if 2 * bank ≤ i ∧ i < 2 * bank + 2 then port.testBit (i - 2 * bank) else own.getLsbD i := by
  rw [setOwner, BitVec.getLsbD_or, BitVec.getLsbD_and, BitVec.getLsbD_not, BitVec.getLsbD_shiftLeft, BitVec.getLsbD_shiftLeft,
    BitVec.getLsbD_ofNat, BitVec.getLsbD_ofNat, show (3 : Nat) = 2 ^ 2 - 1 from rfl, Nat.testBit_two_pow_sub_one]
  by_cases hlow : i < 2 * bank
  · have hout : ¬ 2 * bank ≤ i := by omega
    simp [hlow, hout, hi]
  · by_cases hin : i < 2 * bank + 2
    · have hle : 2 * bank ≤ i := by omega
      have hbit : i - 2 * bank < 2 := by omega
      have hbit32 : i - 2 * bank < 32 := by omega
      simp only [hi, hlow, hin, hle, hbit, hbit32]
      simp
    · have hhigh : port.testBit (i - 2 * bank) = false := testBit_port hp (by omega)
      have hout : ¬ i - 2 * bank < 2 := by omega
      simp only [hi, hlow, hin, hhigh, hout]
      simp

theorem testBit_ownerIn (own : BitVec 32) (bank i : Nat) :
    (ownerIn own bank).testBit i = (decide (i < 2) && own.getLsbD (2 * bank + i)) := by
  rw [ownerIn, bits, Nat.testBit_mod_two_pow, Nat.testBit_div_two_pow, Nat.add_comm, BitVec.getLsbD]

theorem ownerIn_setOwner (own : BitVec 32) {port : Nat} (hp : port < 4) (bank : Nat) {b : Nat} (hb : b < 16) :
    ownerIn (setOwner own port bank) b = if b = bank then port else ownerIn own b := by
  apply Nat.eq_of_testBit_eq
  intro i
  by_cases hi : i < 2
  · rw [testBit_ownerIn, getLsbD_setOwner own hp bank (by omega)]
    by_cases hbank : b = bank
    · simp [hbank, hi]
    · have hout : ¬ (2 * bank ≤ 2 * b + i ∧ 2 * b + i < 2 * bank + 2) := by omega
      simp [hbank, hout, testBit_ownerIn]
  · have hport : port.testBit i = false := testBit_port hp (by omega)
    split <;> simp [testBit_ownerIn, hi, hport]

/-- R138: BOWN's change gives exactly the banks of the mask to the port. -/
theorem ownerIn_setOwners (own : BitVec 32) (mask : Nat) {port : Nat} (hp : port < 4) {b : Nat} (hb : b < 16) :
    ownerIn (setOwners own mask port) b = if mask.testBit b then port else ownerIn own b := by
  have upTo (n : Nat) : ownerIn ((List.range n).foldl (fun o k => if mask.testBit k then setOwner o port k else o) own) b =
      if b < n ∧ mask.testBit b then port else ownerIn own b := by
    induction n with
    | zero => simp
    | succ n ih =>
      rw [List.range_succ, List.foldl_append, List.foldl_cons, List.foldl_nil]
      split
      · rw [ownerIn_setOwner _ hp n hb, ih]
        grind
      · rw [ih]
        grind
  rw [setOwners]
  simpa [hb, setOwner] using upTo 16

/-! What settles a tile, as the owner map, the cycle and the list of due changes see it. -/

/-- The part of a tile that the owners of its banks follow. -/
structure OwnerSide where
  own : BitVec 32
  cyc : Nat
  due : List (Nat × Due)

/-- The owner side of a tile. -/
def ownerSide (x : Tile) : OwnerSide := ⟨x.own, x.cyc, x.due⟩

namespace OwnerSide

/-- The owner map after one due change: BOWN alone changes it. -/
def ownAfter (own : BitVec 32) (d : Due) : BitVec 32 :=
  match d with
  | .own m p => setOwners own m p
  | _ => own

/-- The owner side after a list of due changes has been applied. -/
def after (o : OwnerSide) (l : List (Nat × Due)) : OwnerSide := { o with own := l.foldl (fun w p => ownAfter w p.2) o.own }

/-- The changes due by the cycle are applied in their order and leave the list. -/
def settle (o : OwnerSide) : OwnerSide :=
  after { o with due := o.due.filter (fun p => decide (o.cyc < p.1)) } (o.due.filter (fun p => decide (p.1 ≤ o.cyc)))

/-- A change joins the list. -/
def push (o : OwnerSide) (c : Nat) (d : Due) : OwnerSide := { o with due := o.due ++ [(c, d)] }

/-- The changes that go first, the clears of VEC_DIG_ACC, leave the owners alone (R124). -/
theorem ownAfter_of_dueFirst {d : Due} (h : dueFirst d = true) (own : BitVec 32) : ownAfter own d = own := by
  cases d with
  | digClr => rfl
  | _ => cases h

theorem after_cons (o : OwnerSide) (p : Nat × Due) (l : List (Nat × Due)) :
    o.after (p :: l) = after { o with own := ownAfter o.own p.2 } l := rfl

theorem after_filter_first (o : OwnerSide) (l : List (Nat × Due)) : o.after (l.filter (fun p => dueFirst p.2)) = o := by
  induction l with
  | nil => rfl
  | cons p l ih =>
    rw [List.filter_cons]
    split
    · next h => rw [after_cons, ownAfter_of_dueFirst h, ih]
    · exact ih

theorem after_filter_rest (o : OwnerSide) (l : List (Nat × Due)) : o.after (l.filter (fun p => !dueFirst p.2)) = o.after l := by
  induction l generalizing o with
  | nil => rfl
  | cons p l ih =>
    rw [List.filter_cons]
    split
    · rw [after_cons, after_cons, ih]
    · next h => rw [after_cons, ownAfter_of_dueFirst (by simpa using h), ih]

theorem own_settle (o : OwnerSide) :
    o.settle.own = (o.due.filter (fun p => decide (p.1 ≤ o.cyc))).foldl (fun w p => ownAfter w p.2) o.own := rfl

/-- What a cycle has settled it does not settle again. -/
theorem own_settle_settle (o : OwnerSide) : o.settle.settle.own = o.settle.own := by
  have hnone : o.settle.due.filter (fun p => decide (p.1 ≤ o.settle.cyc)) = [] := by
    refine List.filter_eq_nil_iff.2 fun p hp => ?_
    have hlater : o.cyc < p.1 := by simpa using List.of_mem_filter hp
    have hnow : ¬ p.1 ≤ o.settle.cyc := hlater.not_ge
    simpa using hnow
  rw [own_settle, hnone, List.foldl_nil]

/-- A change due after the cycle in progress leaves this cycle's owners. -/
theorem own_settle_push_later {o : OwnerSide} {c : Nat} (h : o.cyc < c) (d : Due) : (o.push c d).settle.own = o.settle.own := by
  have hlater : ¬ c ≤ o.cyc := by omega
  simp [own_settle, push, hlater]

/-- A change that is due is applied after those that joined the list before it. -/
theorem own_settle_push_due {o : OwnerSide} {c : Nat} (h : c ≤ o.cyc) (d : Due) :
    (o.push c d).settle.own = ownAfter o.settle.own d := by
  simp [own_settle, push, h]

end OwnerSide

theorem ownerSide_emptySlots (x : Tile) (l : List Nat) : ownerSide (emptySlots x l) = ownerSide x := by
  induction l generalizing x with
  | nil => rfl
  | cons s ss ih =>
    rw [emptySlots, ih]
    split <;> rfl

theorem ownerSide_progTag (x : Tile) (slot : Nat) (g : TagSt) : ownerSide (progTag x slot g) = ownerSide x := by
  cases g <;> simp only [progTag] <;> split <;> rfl

theorem ownerSide_loosen (own : Nat) (before after : Tile) (l : List Nat) :
    ownerSide (loosen own before after l) = ownerSide after := by
  induction l generalizing after with
  | nil => rfl
  | cons s ss ih =>
    rw [loosen, ih]
    split <;> rfl

theorem ownerSide_applyDue (x : Tile) (d : Due) :
    ownerSide (applyDue x d) = { ownerSide x with own := OwnerSide.ownAfter x.own d } := by
  cases d with
  | sc n w => simp only [applyDue]; split <;> rfl
  | wopen w d =>
    simp only [applyDue]
    split
    · rw [ownerSide_loosen, ownerSide_emptySlots]; rfl
    · rfl
  | tag s g => rw [applyDue, ownerSide_loosen, ownerSide_progTag]; rfl
  | mtag s g => rw [applyDue, ownerSide_loosen, ownerSide_progTag]; rfl
  | _ => rfl

theorem ownerSide_foldl_applyDue (l : List (Nat × Due)) (x : Tile) :
    ownerSide (l.foldl (fun t p => applyDue t p.2) x) = (ownerSide x).after l := by
  induction l generalizing x with
  | nil => rfl
  | cons p l ih => rw [List.foldl_cons, ih, ownerSide_applyDue, OwnerSide.after_cons]; rfl

theorem ownerSide_settleDue (x : Tile) : ownerSide (settleDue x) = (ownerSide x).settle := by
  simp only [settleDue, ownerSide_foldl_applyDue, OwnerSide.after_filter_first, OwnerSide.after_filter_rest]
  rfl

theorem ownerSide_moverTag (x : Tile) (slot : Nat) (e : TagEv) : ownerSide (moverTag x slot e) = ownerSide x := by
  cases e <;> simp only [moverTag] <;> split <;> rfl

theorem ownerSide_addEv (x : Tile) (c : Nat) (e : NumEv) : ownerSide (addEv x c e) = ownerSide x := by
  unfold addEv
  split <;> rfl

theorem ownerSide_drainRead (x : Tile) (d : DrainOp) : ownerSide (drainRead x d) = ownerSide x := by
  unfold drainRead
  split
  · rw [ownerSide_addEv]; rfl
  · rfl

/-- A fold of changes that each leave the owner side leaves it. -/
theorem ownerSide_foldl {β : Type} {f : Tile → β → Tile} (hf : ∀ x b, ownerSide (f x b) = ownerSide x) (l : List β) (x : Tile) :
    ownerSide (l.foldl f x) = ownerSide x := by
  induction l generalizing x with
  | nil => rfl
  | cons b l ih => rw [List.foldl_cons, ih, hf]

theorem ownerSide_settleSoon (x : Tile) : ownerSide (settleSoon x) = ownerSide x := by
  have leaves (y : Tile) (p : Nat × TagEv) : ownerSide (moverTag y p.1 p.2) = ownerSide y := ownerSide_moverTag y p.1 p.2
  rw [settleSoon, ownerSide_foldl leaves]
  rfl

theorem ownerSide_residueError (x : Tile) (col : Nat) : ownerSide (residueError x col) = ownerSide x := rfl

theorem ownerSide_settleArray (x : Tile) : ownerSide (settleArray x) = ownerSide x :=
  (ownerSide_foldl ownerSide_residueError _ _).trans (ownerSide_foldl ownerSide_drainRead x.arr.drains x)

theorem ownerSide_tileNow (x : Tile) : ownerSide (tileNow x) = ownerSide (settleDue x) := by
  rw [tileNow, ownerSide_settleArray, ownerSide_settleSoon]

/-! The owners that a tile settles to. -/

/-- The owners that a tile settles to follow its owner side alone. -/
theorem settleDue_own (x : Tile) : (settleDue x).own = (ownerSide x).settle.own :=
  congrArg OwnerSide.own (ownerSide_settleDue x)

theorem tileNow_own (x : Tile) : (tileNow x).own = (settleDue x).own := congrArg OwnerSide.own (ownerSide_tileNow x)

theorem tileNow_cyc (x : Tile) : (tileNow x).cyc = x.cyc :=
  congrArg OwnerSide.cyc ((ownerSide_tileNow x).trans (ownerSide_settleDue x))

theorem settleDue_tileNow_own (x : Tile) : (settleDue (tileNow x)).own = (settleDue x).own := by
  rw [settleDue_own, ownerSide_tileNow, ownerSide_settleDue, OwnerSide.own_settle_settle, settleDue_own]

/-- The tile after BOWN (R138): the change of owners is due in the next cycle. -/
def withBown (x : Tile) (mask : BitVec 16) (port : Fin 4) : Tile := addDue x (x.cyc + 1) (.own mask.toNat port.val)

theorem exec_bown_issued {s : State} {t : Fin 2048} (hi : issuesAt s t.val = true) (mask : BitVec 16) (port : Fin 4) :
    exec (.bown t mask port) s = .next (setTile s t.val (withBown (tileNow (tileOf s t.val)) mask port)) := by
  have hissue : issueBown (tileNow (tileOf s t.val)) mask port = .ok (withBown (tileNow (tileOf s t.val)) mask port) := rfl
  have hrun : (withBown (tileNow (tileOf s t.val)) mask port).st = .run := tileNow_st_of_issuesAt hi
  rw [exec_bown, execBown, slotOp_issued hi hissue hrun]

/-- R138: in the cycle of BOWN the owners are those from before it. -/
theorem withBown_own_now (x : Tile) (mask : BitVec 16) (port : Fin 4) :
    (settleDue (withBown (tileNow x) mask port)).own = (settleDue x).own :=
  calc (settleDue (withBown (tileNow x) mask port)).own
    _ = ((ownerSide (tileNow x)).push ((tileNow x).cyc + 1) _).settle.own := settleDue_own _
    _ = (ownerSide (tileNow x)).settle.own := OwnerSide.own_settle_push_later (Nat.lt_succ_self _) _
    _ = (settleDue x).own := by rw [← settleDue_own, settleDue_tileNow_own]

/-- R138: from the next cycle on the banks of the mask are the port's; every other bank has the owner that it has without BOWN. -/
theorem withBown_own_next (x : Tile) (mask : BitVec 16) (port : Fin 4) :
    (settleDue { withBown (tileNow x) mask port with cyc := x.cyc + 1 }).own =
      setOwners (settleDue { settleDue x with cyc := x.cyc + 1 }).own mask.toNat port.val :=
  calc (settleDue { withBown (tileNow x) mask port with cyc := x.cyc + 1 }).own
    _ = (OwnerSide.push { ownerSide (tileNow x) with cyc := x.cyc + 1 } ((tileNow x).cyc + 1) (.own mask.toNat port.val)).settle.own :=
      settleDue_own _
    _ = setOwners (OwnerSide.settle { ownerSide (tileNow x) with cyc := x.cyc + 1 }).own mask.toNat port.val :=
      OwnerSide.own_settle_push_due (Nat.succ_le_succ (tileNow_cyc x).le) _
    _ = setOwners (settleDue { settleDue x with cyc := x.cyc + 1 }).own mask.toNat port.val := by
      rw [ownerSide_tileNow, settleDue_own]
      rfl

/-- Settles O6: BOWN puts a change of owners on the list for t + 1. Until then it acts on nothing that a lookup reads; at t + 1 it is the
last of the changes applied, and it replaces the owners of exactly the banks of its mask. -/
theorem bownTakesEffectNextCycle : Obligations.BownTakesEffectNextCycle := by
  intro s t mask port hi
  refine ⟨_, exec_bown_issued hi mask port, ?_⟩
  rw [tileOf_setTile, if_pos rfl]
  intro x y bank
  refine ⟨bankOwner_lt_four y _, ?keptNow, ?keptInCycle, ?checks, ?next⟩
  case keptNow => exact bankOwner_congr (tileNow_own x) _
  case keptInCycle => exact bankOwner_congr (withBown_own_now x mask port) _
  case checks => exact windowCheck_addDue _ _ _
  case next =>
    have hcyc : y.cyc = x.cyc := tileNow_cyc x
    rw [hcyc, bankOwner_eq, withBown_own_next, ownerIn_setOwners _ _ port.isLt bank.isLt, ← bankOwner_eq]
    rfl

end Sys2Proof.Machine
end

section
/-! SUPPORT. LOAD with an illegal route word or edge slot table (O31, R169, R482). Read from the other side: an image that Kiln accepts holds
legal route words only, a legal route word names usable ports only, and its quarters keep clear of the control cycle and of the issue quarter
of a gang; an image with a clause of R169 or R482 against it is therefore refused. -/

namespace Sys2Proof.Machine

/-- R385, R458: a LOAD whose turn it is and whose image fails a check completes INVALID_PROGRAM, and the image is not kept. -/
theorem exec_load_invalid {s : State} {c : Fin 256} {tag : Word} {img : Image} (hlive : ctxLive s c.val = true)
    (hidle : (ctxOf s c.val).run = none) (hturn : loadTurn (ctxOf s c.val) tag.toNat = true) (hroom : cplFull s c.val = false)
    (hbad : imageOk s c.val img = false) :
    exec (.load c tag img) s = .next (settleCtx (complete (if (ctxOf s c.val).queue.isEmpty then s else popSub s c.val)
      c.val tag.toNat 0x0100 0x09 0) c.val) := by
  simp [exec_load, execLoad, hlive, hidle, hturn, hroom, hbad]

/-! Which ports a route word may use (R169). -/

theorem portUsable_x (s : State) (p t : Nat) : portUsable s p t .x = (edgeOfTile t).isSome := rfl

/-- R169: a usable mesh port faces a tile of the partition. -/
theorem neighbour_of_portUsable {s : State} {p t : Nat} {f : Dir} (hf : f ∈ meshDirs) (h : portUsable s p t f = true) :
    ∃ u, neighbour t f = some u ∧ inPart s p u = true := by
  have hx : f ≠ .x := by
    rintro rfl
    exact absurd hf (by decide)
  unfold portUsable at h
  split at h
  · exact absurd rfl hx
  · split at h
    · exact ⟨_, ‹_›, h⟩
    · exact absurd h Bool.false_ne_true

/-- R169: a source code is legal where it is below 7 and the input it names is a usable port in another direction. -/
theorem srcOk_iff {s : State} {p t : Nat} {d : Dir} {c : Nat} :
    srcOk s p t d c = true ↔ c < 7 ∧ ∀ f, srcDir c = some f → f ≠ d ∧ portUsable s p t f = true := by
  unfold srcOk
  cases srcDir c <;> simp

/-- A route word names a port: as an output, by its LOCAL field, or as the source of an output. -/
def namesPort (w : Nat) (f : Dir) : Prop :=
  (∃ q, q < 4 ∧ outSrc w f q ≠ 0) ∨ (locQuarter w f).isSome = true ∨ ∃ d q, q < 4 ∧ srcDir (outSrc w d q) = some f

/-! What a legal route word keeps (R164, R169). -/

section
variable {s : State} {p t i w : Nat} (h : routeOk s p t i w = true)
include h

/-- Every quarter of every output and every LOCAL field of a legal route word is legal. -/
theorem fields_of_routeOk (d : Dir) : (∀ q < 4, outQuarterOk s p t i w d q = true) ∧ locOk s p t w d = true := by
  have hd : d ∈ allDirs := by cases d <;> decide
  simp only [routeOk, Bool.and_eq_true, List.all_eq_true, List.mem_range] at h
  obtain ⟨-, hfields⟩ := h
  exact hfields d hd

/-- R169: a quarter of an output that carries something. -/
theorem output_of_routeOk {d : Dir} {q : Nat} (hq : q < 4) (hne : outSrc w d q ≠ 0) :
    portUsable s p t d = true ∧ srcOk s p t d (outSrc w d q) = true ∧ (q = 2 → ctlCycle t d ≠ some (i % 16)) ∧
      (q = 3 → (partOf s p).mode ≠ 1) := by
  obtain ⟨hout, -⟩ := fields_of_routeOk h d
  simpa [outQuarterOk, hne, and_assoc, imp_iff_not_or] using hout q hq

/-- R169: an input that delivers a quarter to the tile. -/
theorem local_of_routeOk {d : Dir} {q : Nat} (hl : locQuarter w d = some q) :
    portUsable s p t d = true ∧ (q = 3 → (partOf s p).mode ≠ 1) := by
  obtain ⟨-, hloc⟩ := fields_of_routeOk h d
  simpa [locOk, hl, imp_iff_not_or] using hloc

theorem source_of_routeOk (d : Dir) {q : Nat} (hq : q < 4) :
    outSrc w d q < 7 ∧ ∀ f, srcDir (outSrc w d q) = some f → f ≠ d ∧ portUsable s p t f = true := by
  by_cases hne : outSrc w d q = 0
  · simp [hne, srcDir]
  · obtain ⟨-, hsrc, -, -⟩ := output_of_routeOk h hq hne
    exact srcOk_iff.mp hsrc

theorem portUsable_of_namesPort {f : Dir} (hn : namesPort w f) : portUsable s p t f = true := by
  obtain ⟨q, hq, hne⟩ | hl | ⟨d, q, hq, hsrc⟩ := hn
  · exact (output_of_routeOk h hq hne).1
  · obtain ⟨q, hl⟩ := Option.isSome_iff_exists.mp hl
    exact (local_of_routeOk h hl).1
  · exact ((source_of_routeOk h d hq).2 f hsrc).2

/-- R163, R169: quarter 2 of an output carries nothing in the output's control cycle. -/
theorem outSrc_two_of_ctlCycle {d : Dir} (hctl : ctlCycle t d = some (i % 16)) : outSrc w d 2 = 0 := by
  by_contra hne
  obtain ⟨-, -, hctl', -⟩ := output_of_routeOk h (by decide) hne
  exact hctl' rfl hctl

/-- R169, R179: a route word of a ganged partition does not touch the issue quarter. -/
theorem issueQuarter_of_routeOk (hgang : (partOf s p).mode = 1) (d : Dir) : outSrc w d 3 = 0 ∧ locQuarter w d ≠ some 3 := by
  refine ⟨?_, fun hl => (local_of_routeOk h hl).2 rfl hgang⟩
  by_contra hne
  obtain ⟨-, -, -, hmode⟩ := output_of_routeOk h (by decide) hne
  exact hmode rfl hgang

end

/-- R482: what a legal entry of an edge slot table keeps. -/
theorem edgeEntryOk_keeps {s : State} {p : Nat} {e : Nat × Nat × Nat × Nat} (h : edgeEntryOk s p e = true) :
    inPart s p (tileOfEdge e.1) = true ∧ inPart s p e.2.2.2 = true ∧ ¬ (e.1 < 128 ∧ e.2.2.1 = 2 ∧ e.2.1 % 16 = 11) ∧
      ¬ ((partOf s p).mode = 1 ∧ e.2.2.1 = 3) := by
  simp only [edgeEntryOk, Bool.and_eq_true, Bool.not_eq_true', Bool.and_eq_false_iff] at h
  obtain ⟨⟨⟨⟨-, hport⟩, htile⟩, hctl⟩, hgang⟩ := h
  refine ⟨hport, htile, ?_, ?_⟩
  · rintro ⟨hn, hq, hi⟩
    simp [hn, hq, hi] at hctl
  · rintro ⟨hm, hq⟩
    simp [hm, hq] at hgang

/-- R132: what an image that passes Kiln's checks keeps of R169 and R482. -/
theorem imageOk_keeps {s : State} {c : Nat} {img : Image} (h : imageOk s c img = true) :
    img.rper ≤ 31 ∧ (∀ g ∈ img.tiles, ∀ r ∈ g.routes, routeOk s (ctxOf s c).part g.tile r.1 r.2.toNat = true) ∧
      ∀ e ∈ img.edges, edgeEntryOk s (ctxOf s c).part e = true := by
  simp only [imageOk, Bool.and_eq_true, List.all_eq_true, decide_eq_true_eq] at h
  obtain ⟨⟨⟨⟨-, hrper⟩, htiles⟩, hedges⟩, -⟩ := h
  refine ⟨hrper, fun g hg r hr => ?_, hedges⟩
  have htile := htiles g hg
  simp only [tileImgOk, Bool.and_eq_true, List.all_eq_true] at htile
  obtain ⟨-, hroutes⟩ := htile
  exact hroutes r hr

/-- Settles O31: an accepted image has RPER at most 31, legal route words and legal edge slot tables, and each clause of R169 and R482
contradicts what those keep. -/
theorem illegalRoutesAreRefusedAtLoad : Obligations.IllegalRoutesAreRefusedAtLoad := by
  intro s c tag img x hlive hidle hturn hroom hillegal
  refine exec_load_invalid hlive hidle hturn hroom (Bool.eq_false_iff.mpr fun hok => ?_)
  obtain ⟨hrper, hroutes, hedges⟩ := imageOk_keeps hok
  obtain hlong | ⟨g, hg, r, hr, hroute⟩ | ⟨e, he, hedge⟩ := hillegal
  · exact hlong.not_ge hrper
  · have hword := hroutes g hg r hr
    obtain ⟨d, q, hq, hseven⟩ | ⟨d, q, hq, hself⟩ | ⟨hnone, hx⟩ | ⟨f, hf, hout, hnames⟩ | ⟨hne, hctl⟩ | ⟨hne, hctl⟩ | ⟨hne, hctl⟩ |
      ⟨hne, hctl⟩ | ⟨hne, hedge, hctl⟩ | ⟨hgang, d, hissue⟩ := hroute
    · exact absurd (source_of_routeOk hword d hq).1 (by simp [hseven])
    · exact ((source_of_routeOk hword d hq).2 d hself).1 rfl
    · have hnames : namesPort r.2.toNat .x :=
        hx.imp_right (Or.imp_right fun ⟨d, q, hq, hfive⟩ => ⟨d, q, hq, congrArg srcDir hfive⟩)
      have husable := portUsable_of_namesPort hword hnames
      simp [portUsable_x, hnone] at husable
    · obtain ⟨u, hu, hin⟩ := neighbour_of_portUsable hf (portUsable_of_namesPort hword hnames)
      exact absurd hin (Bool.eq_false_iff.mp (hout u hu))
    · exact hne (outSrc_two_of_ctlCycle hword (congrArg some hctl.symm))
    · exact hne (outSrc_two_of_ctlCycle hword (congrArg some hctl.symm))
    · exact hne (outSrc_two_of_ctlCycle hword (congrArg some hctl.symm))
    · exact hne (outSrc_two_of_ctlCycle hword (congrArg some hctl.symm))
    · exact hne (outSrc_two_of_ctlCycle hword (by simp [ctlCycle, hedge, hctl]))
    · obtain ⟨hout, hlocal⟩ := issueQuarter_of_routeOk hword hgang d
      exact hissue.elim (absurd hout) hlocal
  · obtain ⟨hport, htile, hctl, hgang⟩ := edgeEntryOk_keeps (hedges e he)
    obtain hport' | htile' | hctl' | hgang' := hedge
    · exact Bool.eq_false_iff.mp hport' hport
    · exact Bool.eq_false_iff.mp htile' htile
    · exact hctl hctl'
    · exact hgang hgang'

end Sys2Proof.Machine
end

section
/-! SUPPORT. The full-start request (O47, R424). Bring-up reports through Kiln's records, and no record writes flash or the bring-up state but
for the report itself; so the request of R424 moves only where FULL_START writes it, where Stage 3 reads it, and where Stage 8 saves settings. -/

namespace Sys2Proof.Machine

/-! Posting an event leaves the bring-up state and flash as they were (R403, R404). -/

/-- What posting an event leaves as it was: the bring-up state and flash. -/
def bootSide (s : State) : BootState × Flash := (s.boot, s.flash)

@[simp] theorem bootSide_withMem (s : State) (m : MemState) : bootSide { s with mem := m } = bootSide s := rfl

@[simp] theorem bootSide_updHost (s : State) (p : Nat) (f : HostPort → HostPort) : bootSide (updHost s p f) = bootSide s := by
  simp [bootSide]

@[simp] theorem bootSide_raiseVec (s : State) (p v : Nat) : bootSide (raiseVec s p v) = bootSide s := bootSide_updHost s p _

theorem bootSide_foldl {β : Type} {f : State → β → State} (hf : ∀ s b, bootSide (f s b) = bootSide s) (l : List β) (s : State) :
    bootSide (l.foldl f s) = bootSide s :=
  List.foldlRecOn l f (motive := fun t => bootSide t = bootSide s) rfl fun t ht b _ => (hf t b).trans ht

@[simp] theorem bootSide_putRecord (s : State) (p : Nat) (isTrace : Bool) (e : List Byte) :
    bootSide (putRecord s p isTrace e) = bootSide s := by
  unfold putRecord
  dsimp only
  split
  · split <;> simp
  · rfl

@[simp] theorem bootSide_putAll (s : State) (isTrace : Bool) (e : List Byte) : bootSide (putAll s isTrace e) = bootSide s :=
  bootSide_foldl (fun x p => by split <;> simp) _ s

@[simp] theorem bootSide_postLog (s : State) (code : Nat) (ctx : Option (Nat × Nat)) (args : List Nat) :
    bootSide (postLog s code ctx args).1 = bootSide s := bootSide_putAll _ false _

@[simp] theorem bootSide_putEvent (s : State) (p : Nat) (e : List Byte) : bootSide (putEvent s p e) = bootSide s := by
  unfold putEvent
  dsimp only
  split
  · rfl
  · split <;> simp

@[simp] theorem bootSide_flushLost (s : State) (p : Nat) : bootSide (flushLost s p) = bootSide s := by
  unfold flushLost
  dsimp only
  split
  · rfl
  · split <;> simp

theorem bootSide_postEvent (s : State) (ports : List Nat) (code : Nat) (ctx : Option (Nat × Nat)) (args : List Nat) :
    bootSide (postEvent s ports code ctx args) = bootSide s :=
  (bootSide_foldl (fun x p => by split <;> simp) ports _).trans (bootSide_postLog s code ctx args)

@[simp] theorem postAll_boot (s : State) (code : Nat) (args : List Nat) : (postAll s code args).boot = s.boot :=
  congrArg Prod.fst (bootSide_postEvent s [0, 1] code none args)

@[simp] theorem postAll_flash (s : State) (code : Nat) (args : List Nat) : (postAll s code args).flash = s.flash :=
  congrArg Prod.snd (bootSide_postEvent s [0, 1] code none args)

/-! The reports of Kindling (R413): they leave flash, and the decision of R422, as they were. -/

@[simp] theorem postReport_flash (s : State) (n : Nat) (w : Word) : (postReport s n w).flash = s.flash := postAll_flash _ _ _

@[simp] theorem postReport_boot (s : State) (n : Nat) (w : Word) :
    (postReport s n w).boot = { s.boot with reports := smSet 0 s.boot.reports n w } := postAll_boot _ _ _

@[simp] theorem stopKindling_flash (s : State) (n code ms : Nat) : (stopKindling s n code ms).flash = s.flash := postReport_flash _ _ _

@[simp] theorem stopKindling_savedOn (s : State) (n code ms : Nat) : (stopKindling s n code ms).boot.savedOn = s.boot.savedOn := by
  simp [stopKindling]

@[simp] theorem stopKindling_reason (s : State) (n code ms : Nat) : (stopKindling s n code ms).boot.reason = s.boot.reason := by
  simp [stopKindling]

@[simp] theorem passStage_flash (s : State) (n code ms : Nat) : (passStage s n code ms).flash = s.flash := by
  simp [passStage, beginStage]

@[simp] theorem passStage_savedOn (s : State) (n code ms : Nat) : (passStage s n code ms).boot.savedOn = s.boot.savedOn := by
  simp [passStage, beginStage]

@[simp] theorem passStage_reason (s : State) (n code ms : Nat) : (passStage s n code ms).boot.reason = s.boot.reason := by
  simp [passStage, beginStage]

/-! The request in flash: written by its own record only (R30, R424). -/

@[simp] theorem Flash.fullReq_putFull (f : Flash) (fmt : Nat) (x : Bool) : (f.putFull fmt x).fullReq = x :=
  congrArg Prod.snd (RecPair.value_write f.fullRec (fmt, x))

@[simp] theorem Flash.fullReq_putSaved (f : Flash) (x : Option SavedRec) : (f.putSaved x).fullReq = f.fullReq := rfl

/-! FULL_START (R424, R456). -/

theorem cmdRun_of_kilnUp {s : State} (h : kilnUp s = true) (k : CmdOut) :
    cmdRun s k = { k.st with kiln := { k.st.kiln with resp := k.res, respSt := k.status } } := if_pos h

/-- R396, R456: while Kiln is not busy a start-class command passes the checks of every command. -/
theorem cmdAdmit_start {s : State} (h : nth0 s.kiln.queued 3 ≤ 256) (k : CmdOut) : cmdAdmit s true k = k := by
  simp [cmdAdmit, cmdCheck, Nat.not_lt.mpr h]

theorem exec_fullStart_of_takesStart {s : State} (h : takesStart s) (port : Fin 2) :
    exec (.fullStart port) s = .next (answered { s with flash := s.flash.putFull (runningFmt s) true } []) := by
  obtain ⟨hup, hfree⟩ := h
  rw [exec_fullStart, execFullStart, cmdFullStart, cmdAdmit_start hfree, cmdRun_of_kilnUp hup]
  rfl

/-! Stage 3 decides the kind of start (R422, R424). -/

/-- R424: with a request recorded some rule of the saved settings fails. -/
theorem savedReason_ne_zero {s : State} (h : s.flash.fullReq = true) : savedReason s ≠ 0 := by
  simp only [savedReason, h, if_true]
  split
  · split <;> decide
  · split_ifs
    iterate 4 decide
    split
    · decide
    · split <;> decide

@[simp] theorem decideStart_flash (s : State) : (decideStart s).flash = s.flash := by
  unfold decideStart
  split <;> rfl

theorem decideStart_reason {s : State} (h : s.boot.decided = false) : (decideStart s).boot.reason = savedReason s := by
  simp [decideStart, h]

theorem decideStart_savedOn {s : State} (h : s.boot.decided = false) : (decideStart s).boot.savedOn = (savedReason s == 0) := by
  simp [decideStart, h]

/-- Stage 3, once it need not wait for a time, keeps flash and the decision, whether it stops or passes (R416, R422). -/
theorem exec_stage3_keeps_decision {s : State} (hstage : inStage s 3 = true) (htime : s.boot.waited = true ∨ s.kiln.utc ≠ none) (x : StageOut)
    (c : Calib) : ∃ n, exec (.stage3 x c) s = .next n ∧ n.flash = s.flash ∧ n.boot.savedOn = (decideStart s).boot.savedOn ∧
      n.boot.reason = (decideStart s).boot.reason := by
  have hgo : (!inStage s 3 || (!s.boot.decided && !s.boot.waited && s.kiln.utc.isNone)) = false := by
    obtain hwaited | hutc := htime
    · simp [hstage, hwaited]
    · simp [hstage, Option.isSome_iff_ne_none, hutc]
  refine ⟨_, (exec_stage3 x c s).trans (congrArg Host.Outcome.next (if_neg (Bool.eq_false_iff.mp hgo))), ?_⟩
  dsimp only
  split <;> simp [setLevels]

/-! Stage 8 saves settings (R314, R421, R424, R451). -/

/-- R424: saving settings clears the request after a full start and leaves it after a fast one. -/
theorem saveSettings_fullReq (s : State) : (saveSettings s).flash.fullReq = (s.flash.fullReq && s.boot.savedOn) := by
  unfold saveSettings
  split
  case isTrue hfast => simp [hfast]
  case isFalse hfull => simp [hfull]

theorem spareAgain_fullReq (s : State) : (spareAgain s).flash.fullReq = s.flash.fullReq := by
  unfold spareAgain
  split <;> rfl

theorem endTrial_fullReq (s : State) : (endTrial s).flash.fullReq = s.flash.fullReq := by
  unfold endTrial
  split
  · rfl
  · simp [Flash.fullReq, Flash.putUpd]

theorem exec_stage8_fullReq {s : State} (h : inStage s 8 = true) (x : StageOut) :
    ∃ n, exec (.stage8 x) s = .next n ∧ n.flash.fullReq = (saveSettings s).flash.fullReq := by
  refine ⟨_, (exec_stage8 x s).trans (congrArg Host.Outcome.next (if_neg (by simp [h]))), ?_⟩
  rw [endTrial_fullReq, postReport_flash]
  exact spareAgain_fullReq (saveSettings s)

/-- Settles O47: FULL_START writes the request; at the decision of Stage 3 a recorded request gives a REASON other than 0, so the start uses no
saved settings; and Stage 8 writes the request's record only where it saves new settings, after a full start. -/
theorem fullStartRequestIsKeptUntilServed : Obligations.FullStartRequestIsKeptUntilServed := by
  intro s
  refine ⟨fun port htakes => ?_, fun hstage hopen htime hreq x vtab paths => ?_, fun hstage x => ?_⟩
  · exact ⟨_, exec_fullStart_of_takesStart htakes port, s.flash.fullReq_putFull (runningFmt s) true, rfl⟩
  · obtain ⟨n, hn, hflash, hsaved, hreason⟩ := exec_stage3_keeps_decision hstage htime x ⟨vtab, paths⟩
    have hwhy : savedReason s ≠ 0 := savedReason_ne_zero hreq
    refine ⟨n, hn, ?_, ?_, hflash ▸ hreq⟩
    · rw [hsaved, decideStart_savedOn hopen, beq_eq_false_iff_ne]
      exact hwhy
    · rwa [hreason, decideStart_reason hopen]
  · obtain ⟨n, hn, hreq⟩ := exec_stage8_fullReq hstage x
    exact ⟨n, hn, hreq.trans (saveSettings_fullReq s)⟩

end Sys2Proof.Machine
end

section
/-! SUPPORT. What every step keeps (O1, O2, O3, O49 to O51): one theorem says of every command that it keeps the queue, what lasts and the
canonical memories, and one that it answers with a next state or names an absent frame; both split over the commands and cite the law of each. -/

namespace Sys2Proof.Machine

/-- Every command keeps the queue, what lasts and the canonical memories. -/
theorem kept_exec {z s : State} (hk : Kept z s) (c : Instr) : KeptOut z (exec c s) :=
  match c with
  | .logicalCycle t up => kept_execLogicalCycle hk t up
  | .beatToken t d => kept_execBeatToken hk t d
  | .cycleLimit t => kept_execCycleLimit hk t
  | .nop t slot => kept_execNop hk t slot
  | .ldi t d mode imm => kept_execLdi hk t d mode imm
  | .salu t d a b fn => kept_execSalu hk t d a b fn
  | .saddi t d a imm => kept_execSaddi hk t d a imm
  | .adset t n a b => kept_execAdset hk t n a b
  | .loop t csrc cnt stop => kept_execLoop hk t csrc cnt stop
  | .jmp t target => kept_execJmp hk t target
  | .bnz t a target => kept_execBnz hk t a target
  | .bown t mask port => kept_execBown hk t mask port
  | .cclr t mask => kept_execCclr hk t mask
  | .rdsr t d sel => kept_execRdsr hk t d sel
  | .digclr t => kept_execDigclr hk t
  | .event t code => kept_execEvent hk t code
  | .done t => kept_execDone hk t
  | .wload t didx => kept_execWload hk t didx
  | .stream t didx prob swap asrc asc => kept_execStream hk t didx prob swap asrc asc
  | .drain t didx => kept_execDrain hk t didx
  | .aclr t first last => kept_execAclr hk t first last
  | .mode t hsplit pjoin => kept_execMode hk t hsplit pjoin
  | .vmov t f => kept_execVmov hk t f
  | .vbcast t f => kept_execVbcast hk t f
  | .vadd t f => kept_execVadd hk t f
  | .vsub t f => kept_execVsub hk t f
  | .vmul t f => kept_execVmul hk t f
  | .vfma t f => kept_execVfma hk t f
  | .vmax t f => kept_execVmax hk t f
  | .vmin t f => kept_execVmin hk t f
  | .vrsum t f => kept_execVrsum hk t f
  | .vrmax t f => kept_execVrmax hk t f
  | .vexp2 t f => kept_execVexp2 hk t f
  | .vlog2 t f => kept_execVlog2 hk t f
  | .vrcp t f => kept_execVrcp hk t f
  | .vrsq t f => kept_execVrsq hk t f
  | .vld t f => kept_execVld hk t f
  | .vst t f => kept_execVst hk t f
  | .vqnt t f => kept_execVqnt hk t f
  | .vdqt t f => kept_execVdqt hk t f
  | .vscan t f => kept_execVscan hk t f
  | .vdig t f => kept_execVdig hk t f
  | .put t ad didx pinc => kept_execPut hk t ad didx pinc
  | .mreq t ad didx pinc => kept_execMreq hk t ad didx pinc
  | .wopen t win didx => kept_execWopen hk t win didx
  | .wclose t win => kept_execWclose hk t win
  | .tfull t slot => kept_execTfull hk t slot
  | .tempty t slot => kept_execTempty hk t slot
  | .pld t ad idx kind pinc => kept_execPld hk t ad idx kind pinc
  | .tagStall t => kept_execTagStall hk t
  | .flitReceive t d e => kept_execFlitReceive hk t d e
  | .notify t => kept_execNotify hk t
  | .barArrive t cord ch count => kept_execBarArrive hk t cord ch count
  | .barRelease part cord ch => kept_execBarRelease hk part cord ch
  | .regWrite t tgt v => kept_execRegWrite hk t tgt v
  | .regRead t off => kept_execRegRead hk t off
  | .regData t => kept_execRegData hk t
  | .inboundWrite t => kept_execInboundWrite hk t
  | .inboundWord t => kept_execInboundWord hk t
  | .negativeCompletion t => kept_execNegativeCompletion hk t
  | .pullRead t => kept_execPullRead hk t
  | .mreqDeliveryWord t => kept_execMreqDeliveryWord hk t
  | .edgeSlotFill e cyc => kept_execEdgeSlotFill hk e cyc
  | .moverRequest e => kept_execMoverRequest hk e
  | .get m pos => kept_execGet hk m pos
  | .putm m pos => kept_execPutm hk m pos
  | .getw m pos => kept_execGetw hk m pos
  | .cget m pos => kept_execCget hk m pos
  | .cput m pos => kept_execCput hk m pos
  | .migrate m pos => kept_execMigrate hk m pos
  | .cordWrite m pos => kept_execCordWrite hk m pos
  | .cordGather m pos => kept_execCordGather hk m pos
  | .cordContrib m pos => kept_execCordContrib hk m pos
  | .visibilityPoint id => kept_execVisibilityPoint hk id
  | .migrateCopyDone page err => kept_execMigrateCopyDone hk page err
  | .oldFrameRelease page => kept_execOldFrameRelease hk page
  | .freeQueueRefill tier frames => kept_execFreeQueueRefill hk tier frames
  | .memUncorrectable who tier frame => kept_execMemUncorrectable hk who tier frame
  | .retirementCopy page badBlocks => kept_execRetirementCopy hk page badBlocks
  | .correctedErrorLimit tier e => kept_execCorrectedErrorLimit hk tier e
  | .scrubError tier frame => kept_execScrubError hk tier frame
  | .tmapEccError page => kept_execTmapEccError hk page
  | .laserFail b laser wear => kept_execLaserFail hk b laser wear
  | .spareLaserStable b w => kept_execSpareLaserStable hk b w
  | .resyncDone l => kept_execResyncDone hk l
  | .lossOfSignal l => kept_execLossOfSignal hk l
  | .laneSyncRegained l => kept_execLaneSyncRegained hk l
  | .pausedTimeout l => kept_execPausedTimeout hk l
  | .bladeDrawn b => kept_execBladeDrawn hk b
  | .bladeInserted b => kept_execBladeInserted hk b
  | .linkFlitReceive l x => kept_execLinkFlitReceive hk l x
  | .ackTimeout l vc => kept_execAckTimeout hk l vc
  | .linkErrorRate l => kept_execLinkErrorRate hk l
  | .linkTrain l => kept_execLinkTrain hk l
  | .trainingComplete l ok rtt => kept_execTrainingComplete hk l ok rtt
  | .fenceExpiry l => kept_execFenceExpiry hk l
  | .linkLeaveUp l => kept_execLinkLeaveUp hk l
  | .retryBufferExpiry l => kept_execRetryBufferExpiry hk l
  | .ident l rec => kept_execIdent hk l rec
  | .fence l secs => kept_execFence hk l secs
  | .write l h words => kept_execWrite hk l h words
  | .gather l h words => kept_execGather hk l h words
  | .contrib l h words => kept_execContrib hk l h words
  | .partialSum l h words => kept_execPartialSum hk l h words
  | .redSlotStall k slot => kept_execRedSlotStall hk k slot
  | .compl x => kept_execCompl hk x
  | .packetRetry n expired => kept_execPacketRetry hk n expired
  | .moduleArrived cord ch => kept_execModuleArrived hk cord ch
  | .barrier l h ch gen krec => kept_execBarrier hk l h ch gen krec
  | .linkstate l dst src dim m => kept_execLinkstate hk l dst src dim m
  | .linkstateTimer => kept_execLinkstateTimer hk
  | .timeExchange root => kept_execTimeExchange hk root
  | .time l dst src stamps => kept_execTime hk l dst src stamps
  | .ftimeSyncLost => kept_execFtimeSyncLost hk
  | .kilnBarrierArrive c kind => kept_execKilnBarrierArrive hk c kind
  | .kilnBarrierRelease cord => kept_execKilnBarrierRelease hk cord
  | .quiesceDone c => kept_execQuiesceDone hk c
  | .flood c => kept_execFlood hk c
  | .sectionTimeout c => kept_execSectionTimeout hk c
  | .peerLost l => kept_execPeerLost hk l
  | .droop t low => kept_execDroop hk t low
  | .regionMonitorTick n warn => kept_execRegionMonitorTick hk n warn
  | .oscRecalibration n => kept_execOscRecalibration hk n
  | .stepLaunch part => kept_execStepLaunch hk part
  | .start t => kept_execStart hk t
  | .abort t => kept_execAbort hk t
  | .halt t => kept_execHalt hk t
  | .stepEnd c => kept_execStepEnd hk c
  | .registerWrite port off v => kept_execRegisterWrite hk port off v
  | .loReadLatch port off => kept_execLoReadLatch hk port off
  | .bar0InvalidAccess port off isWrite len => kept_execBar0InvalidAccess hk port off isWrite len
  | .bar2Read port off len => kept_execBar2Read hk port off len
  | .bar2Write port off data => kept_execBar2Write hk port off data
  | .configRequest port q => kept_execConfigRequest hk port q
  | .standbyQualifierStart mv => kept_execStandbyQualifierStart hk mv
  | .pwrEnAssert => kept_execPwrEnAssert hk
  | .powerUp straps => kept_execPowerUp hk straps
  | .pwrEnDeassert => kept_execPwrEnDeassert hk
  | .powerDown => kept_execPowerDown hk
  | .forceOff => kept_execForceOff hk
  | .vinFault mv => kept_execVinFault hk mv
  | .vinOutOfRange mv => kept_execVinOutOfRange hk mv
  | .currentLimitAssert w => kept_execCurrentLimitAssert hk w
  | .currentLimitRelease w => kept_execCurrentLimitRelease hk w
  | .fieldLimitPersist n => kept_execFieldLimitPersist hk n
  | .converterFail => kept_execConverterFail hk
  | .phaseFault n bank => kept_execPhaseFault hk n bank
  | .chargeInjectorConnect n => kept_execChargeInjectorConnect hk n
  | .chargeInjectorDisconnect n => kept_execChargeInjectorDisconnect hk n
  | .shuntClampEngage n => kept_execShuntClampEngage hk n
  | .shuntClampRelease n => kept_execShuntClampRelease hk n
  | .capLoopTick watts => kept_execCapLoopTick hk watts
  | .energyMeterTick x => kept_execEnergyMeterTick hk x
  | .thermalStageEnter kind idx temp => kept_execThermalStageEnter hk kind idx temp
  | .thermalStageLeave kind idx temp => kept_execThermalStageLeave hk kind idx temp
  | .thermalCeilingTick n => kept_execThermalCeilingTick hk n
  | .thermalTrip kind idx => kept_execThermalTrip hk kind idx
  | .headroomTest mean => kept_execHeadroomTest hk mean
  | .quarterRateStart => kept_execQuarterRateStart hk
  | .softStartDone n => kept_execSoftStartDone hk n
  | .throttleAssert => kept_execThrottleAssert hk
  | .throttleDeassert => kept_execThrottleDeassert hk
  | .throttleHeld => kept_execThrottleHeld hk
  | .portReset port how => kept_execPortReset hk port how
  | .portTrain port => kept_execPortTrain hk port
  | .ring port m => kept_execRing hk port m
  | .ack port m => kept_execAck hk port m
  | .commandTake port m theirs => kept_execCommandTake hk port m theirs
  | .ringDb port c => kept_execRingDb hk port c
  | .msixSend port v => kept_execMsixSend hk port v
  | .heartbeatSample port => kept_execHeartbeatSample hk port
  | .hostHoldExpiry port => kept_execHostHoldExpiry hk port
  | .info port => kept_execInfo hk port
  | .timeSet port utc => kept_execTimeSet hk port utc
  | .restart port => kept_execRestart hk port
  | .fullStart port => kept_execFullStart hk port
  | .defectRead port kind off => kept_execDefectRead hk port kind off
  | .activate port at_ window => kept_execActivate hk port at_ window
  | .activateCancel port => kept_execActivateCancel hk port
  | .attach port a => kept_execAttach hk port a
  | .detach port => kept_execDetach hk port
  | .bar2Window port page => kept_execBar2Window hk port page
  | .traceConfig port mask => kept_execTraceConfig hk port mask
  | .partConfig port part fmask mode gang => kept_execPartConfig hk port part fmask mode gang
  | .partPowerOn port part => kept_execPartPowerOn hk port part
  | .partPowerOff port part => kept_execPartPowerOff hk port part
  | .partitionOffDrained part => kept_execPartitionOffDrained hk part
  | .powerPolicy port cap part mode stp => kept_execPowerPolicy hk port cap part mode stp
  | .tileReset port target => kept_execTileReset hk port target
  | .clusterReset port target => kept_execClusterReset hk port target
  | .partitionReset port target => kept_execPartitionReset hk port target
  | .computeReset port selftest => kept_execComputeReset hk port selftest
  | .deviceReset port selftest => kept_execDeviceReset hk port selftest
  | .resetApply found => kept_execResetApply hk found
  | .resetMoverCancel => kept_execResetMoverCancel hk
  | .ctxCreate port a => kept_execCtxCreate hk port a
  | .ctxPause port c => kept_execCtxPause hk port c
  | .ctxResume port c => kept_execCtxResume hk port c
  | .ctxDestroy port c => kept_execCtxDestroy hk port c
  | .ctxRestore port c a => kept_execCtxRestore hk port c a
  | .tmapMap port first count part tier writable => kept_execTmapMap hk port first count part tier writable
  | .tmapUnmap port first count => kept_execTmapUnmap hk port first count
  | .tmapRead port first count => kept_execTmapRead hk port first count
  | .fabricAssign port a => kept_execFabricAssign hk port a
  | .linkDisable port link => kept_execLinkDisable hk port link
  | .linkEnable port link => kept_execLinkEnable hk port link
  | .bladeRelease port blade => kept_execBladeRelease hk port blade
  | .failureRate port c mtbf => kept_execFailureRate hk port c mtbf
  | .cordSetup port cord ent => kept_execCordSetup hk port cord ent
  | .cordRead port cord => kept_execCordRead hk port cord
  | .rankReplace port a => kept_execRankReplace hk port a
  | .emberSetup port a => kept_execEmberSetup hk port a
  | .digestSetup port a => kept_execDigestSetup hk port a
  | .refillDone port c page => kept_execRefillDone hk port c page
  | .forceCopy port c => kept_execForceCopy hk port c
  | .lockstepStart port a => kept_execLockstepStart hk port a
  | .lockstepStop port => kept_execLockstepStop hk port
  | .load c tag img => kept_execLoad hk c tag img
  | .step c tag n mb seed => kept_execStep hk c tag n mb seed
  | .comparisonWindowComplete win => kept_execComparisonWindowComplete hk win
  | .lockstepRecord x => kept_execLockstepRecord hk x
  | .lockstepLagExceeded => kept_execLockstepLagExceeded hk
  | .lockstepRecordTimeout => kept_execLockstepRecordTimeout hk
  | .watchdogRestart core cause => kept_execWatchdogRestart hk core cause
  | .kilnRestartRecovery keepOk => kept_execKilnRestartRecovery hk keepOk
  | .telemetrySample => kept_execTelemetrySample hk
  | .decimationUpdate x => kept_execDecimationUpdate hk x
  | .stage0 x => kept_execStage0 hk x
  | .stage1 x puf serials => kept_execStage1 hk x puf serials
  | .stage2 x bad mtemp => kept_execStage2 hk x bad mtemp
  | .stage3 x c => kept_execStage3 hk x c
  | .stage3TimeWait => kept_execStage3TimeWait hk
  | .ntpAnswer utc => kept_execNtpAnswer hk utc
  | .stage4 x found => kept_execStage4 hk x found
  | .stage5 x r => kept_execStage5 hk x r
  | .stage6 x r => kept_execStage6 hk x r
  | .stage7 x => kept_execStage7 hk x
  | .stage7Timeout ms => kept_execStage7Timeout hk ms
  | .stage8 x => kept_execStage8 hk x
  | .romSelftestTimeout => kept_execRomSelftestTimeout hk
  | .serviceBankTimeout => kept_execServiceBankTimeout hk
  | .imageCopyDone => kept_execImageCopyDone hk
  | .transferConnect => kept_execTransferConnect hk
  | .hello version => kept_execHello hk version
  | .header bytes sigOk => kept_execHeader hk bytes sigOk
  | .chunk off bytes => kept_execChunk hk off bytes
  | .finish => kept_execFinish hk
  | .transferAbort => kept_execTransferAbort hk
  | .transferTimeout => kept_execTransferTimeout hk
  | .activationTime => kept_execActivationTime hk
  | .activationStarted => kept_execActivationStarted hk
  | .activationCancelled => kept_execActivationCancelled hk
  | .getVersion port => kept_execGetVersion hk port
  | .getCapabilities port => kept_execGetCapabilities hk port
  | .negotiateAlgorithms port p384 sha384 => kept_execNegotiateAlgorithms hk port p384 sha384
  | .getDigests port => kept_execGetDigests hk port
  | .getCertificate port slot off len => kept_execGetCertificate hk port slot off len
  | .challenge port slot nonce => kept_execChallenge hk port slot nonce
  | .getMeasurements port idx sign nonce => kept_execGetMeasurements hk port idx sign nonce
  | .spdmUnsupported port code => kept_execSpdmUnsupported hk port code
  | .fruRead off pec => kept_execFruRead hk off pec
  | .telemetry pec => kept_execTelemetry hk pec
  | .capSet w pec => kept_execCapSet hk w pec
  | .capStatus pec => kept_execCapStatus hk pec
  | .flitBoundary l => kept_execFlitBoundary hk l
  | .laneSyncLost l => kept_execLaneSyncLost hk l
  | .identRecordSend l => kept_execIdentRecordSend hk l
  | .lockstepPartnerTimeout => kept_execLockstepPartnerTimeout hk
  | .forceOffDeassert => kept_execForceOffDeassert hk
  | .vinInRange mv => kept_execVinInRange hk mv
  | .bladeSeatTimeout b => kept_execBladeSeatTimeout hk b

/-- A command that answers with a next state keeps all from the state it ran in. -/
theorem kept_of_exec {c : Instr} {s t : State} (h : exec c s = .next t) : Kept s t := kept_exec (Kept.refl s) c t h

theorem step_of_pending_cons {s : State} {c : Instr} {cs : List Instr} (h : s.pending = c :: cs) : step s = exec c { s with pending := cs } := by
  rw [step, h]

theorem step_of_pending_nil {s : State} (h : s.pending = []) : step s = .next (idleStep s) := by
  rw [step, h]

/-- Taking the front command off the queue changes neither the memories nor what lasts. -/
theorem lasting_of_kept_dequeued {s t : State} {cs : List Instr} (h : Kept { s with pending := cs } t) : Lasting s t :=
  ⟨h.flash.unit, h.flash.stepping, h.flash.grade, h.flash.model, h.flash.factory, h.flash.trims, h.flash.counter, h.flash.retired, h.drawn⟩

/-- A step keeps the canonical memories and what lasts, and takes at most the front command. -/
theorem step_keeps {s t : State} (h : stepsTo s t) : (memoryWf s = true → memoryWf t = true) ∧ Lasting s t ∧ t.pending = s.pending.tail := by
  unfold stepsTo at h
  cases hq : s.pending with
  | nil =>
    rw [step_of_pending_nil hq, Host.Outcome.next.injEq] at h
    have hk : Kept s t := h ▸ kept_idleStep (Kept.refl s)
    exact ⟨hk.memory, hk.lasting, hk.queue.trans hq⟩
  | cons c cs =>
    rw [step_of_pending_cons hq] at h
    have hk := kept_of_exec h
    exact ⟨hk.memory, lasting_of_kept_dequeued hk, hk.queue⟩

/-- Settles O49: every command, and the idle cycle, keeps the canonical form of the three maps. -/
theorem everyStepKeepsMemoryCanonical : Obligations.EveryStepKeepsMemoryCanonical :=
  fun _ _ hwf hstep => (step_keeps hstep).1 hwf

/-- Settles O50: every command, and the idle cycle, keeps what lasts, and only the front command leaves the queue. -/
theorem everyStepKeepsWhatLasts : Obligations.EveryStepKeepsWhatLasts :=
  fun _ _ hstep => (step_keeps hstep).2

/-- Settles O2: the queue is part of what every command keeps. -/
theorem commandsKeepTheQueue : Obligations.CommandsKeepTheQueue :=
  fun _ _ _ h => (kept_of_exec h).queue

/-! The commands that name a frame (R206, R207; log entry 8). -/

/-- Settles O3: the three commands that name a frame test it against the frames of its tier; every other command answers next by its
definition. -/
theorem onlyAbsentFramesStop : Obligations.OnlyAbsentFramesStop := by
  intro c s
  cases c with
  | memUncorrectable who tier f =>
    by_cases habsent : tierFrames tier.val (ddrFitted s) ≤ f
    · exact .inr ⟨if_pos habsent, tier, f, habsent, .inl ⟨who, rfl⟩⟩
    · exact .inl ⟨_, if_neg habsent⟩
  | correctedErrorLimit tier e =>
    by_cases habsent : tierFrames tier.val (ddrFitted s) ≤ e.frame
    · exact .inr ⟨if_pos habsent, tier, e.frame, habsent, .inr (.inl ⟨e.count, rfl⟩)⟩
    · exact .inl ⟨_, if_neg habsent⟩
  | scrubError tier f =>
    by_cases habsent : tierFrames tier.val (ddrFitted s) ≤ f
    · exact .inr ⟨if_pos habsent, tier, f, habsent, .inr (.inr rfl)⟩
    · exact .inl ⟨_, if_neg habsent⟩
  | _ => exact .inl ⟨_, rfl⟩

/-! The idle cycle (log entry 2). -/

/-- R381: where no context's doorbell waits, Kiln serves none. -/
theorem wakeRings_of_no_wait {s : State} (h : ∀ c ∈ liveCtxs s, (ctxOf s c).dbWait = false) : wakeRings s = s := by
  have hnone : ∀ l : List Nat, (∀ c ∈ l, (ctxOf s c).dbWait = false) →
      l.foldl (fun x c => if (ctxOf x c).dbWait && dbReady x c then serveDb x c else x) s = s := by
    intro l hl
    induction l with
    | nil => rfl
    | cons c l ih =>
      have hc := hl c List.mem_cons_self
      rw [List.foldl_cons, hc, Bool.false_and, if_neg Bool.false_ne_true, ih (fun d hd => hl d (List.mem_cons_of_mem c hd))]
  exact hnone _ h

/-- Settles O1: a step is exec on the front command, and on an empty queue the idle tick, after which Kiln serves the doorbells that wait. -/
theorem stepRunsFrontCommand : Obligations.StepRunsFrontCommand := by
  refine ⟨fun c cs s hq => step_of_pending_cons hq, fun s hq => ?_⟩
  refine ⟨step_of_pending_nil hq, fun hnowait => ?_⟩
  rw [step_of_pending_nil hq]
  exact congrArg Host.Outcome.next (wakeRings_of_no_wait (s := idleTick s) hnowait)

/-! The state after reset. -/

/-- Settles O51: each value is the reset value of its field; a store with no entry reads as its unlisted value. -/
theorem resetHoldsItsValues : Obligations.ResetHoldsItsValues := by
  refine ⟨rfl, memoryWf_reset, rfl, rfl, rfl, rfl, rfl, fun _ _ => rfl, fun _ _ => rfl, fun _ => rfl, fun _ => ⟨rfl, rfl⟩, ?ports, fun _ => rfl,
    fun _ _ => rfl, rfl, rfl⟩
  case ports =>
    intro p _
    unfold hostOf
    split <;> exact ⟨rfl, rfl⟩

end Sys2Proof.Machine
end

section
/-! SUPPORT. The operations of the four slots on a tile that issues (O4, O5, O8 to O12, O14, O15): what an operation claims is free, or it is
refused; what it answers is then the tile. -/

namespace Sys2Proof.Machine

/-- An operation of a slot that x accepts, and that leaves its state of running, changes tile t only, and to what it answers. -/
def Accepts (s : State) (t : Nat) (x : Tile) : Prop :=
  ∀ {slot : Nat} {f : Tile → Except TFault Tile} {y : Tile}, f x = .ok y → y.st = x.st → slotOp s t slot f = setTile s t y

theorem accepts_of_issuesAt {s : State} {t : Nat} (hi : issuesAt s t = true) : Accepts s t (tileNow (tileOf s t)) :=
  fun hf hst => slotOp_issued hi hf (hst.trans (tileNow_st_of_issuesAt hi))

/-! Claims of register results (R103). -/

/-- R103: claims that are free, of which no two name the same result, are taken. -/
theorem claimAll_of_free {x : Tile} {l : List (Nat × RegName)} (hfree : ∀ p ∈ l, claimed x p.1 p.2 = false) (hnodup : l.Nodup) :
    claimAll x l = .ok (addClaims x l) := by
  have hany : l.any (fun p => claimed x p.1 p.2) = false := List.any_eq_false.mpr (fun p hp => by simp [hfree p hp])
  have hdistinct : (l.filter (fun p => p.2 != .sc 0)).Nodup := hnodup.filter _
  simp [claimAll, hany, hdistinct]

theorem claimAll_single {x : Tile} {c : Nat} {r : RegName} (h : claimed x c r = false) : claimAll x [(c, r)] = .ok (addClaims x [(c, r)]) :=
  claimAll_of_free (by simpa using h) (List.nodup_singleton _)

/-- R103: a result that is claimed already refuses the operation. -/
theorem claimAll_single_of_claimed {x : Tile} {c : Nat} {r : RegName} (h : claimed x c r = true) : claimAll x [(c, r)] = .error (.code 0x08) := by
  simp [claimAll, h]

/-! Scalar results (O4, O5). -/

/-- The scalar registers after one due change (R103, R105). -/
def scAfter (sc : Vector Word 16) (d : Due) : Vector Word 16 :=
  match d with
  | .sc n w => if n = 0 then sc else sc.setIfInBounds n w
  | _ => sc

theorem emptySlots_sc (x : Tile) (l : List Nat) : (emptySlots x l).sc = x.sc := by
  induction l generalizing x with
  | nil => rfl
  | cons s ss ih =>
    rw [emptySlots, ih]
    split <;> rfl

theorem progTag_sc (x : Tile) (slot : Nat) (g : TagSt) : (progTag x slot g).sc = x.sc := by
  cases g <;> simp only [progTag] <;> split <;> rfl

theorem loosen_sc (own : Nat) (before after : Tile) (l : List Nat) : (loosen own before after l).sc = after.sc := by
  induction l generalizing after with
  | nil => rfl
  | cons s ss ih =>
    rw [loosen, ih]
    split <;> rfl

theorem applyDue_sc (x : Tile) (d : Due) : (applyDue x d).sc = scAfter x.sc d := by
  cases d with
  | sc n w =>
    simp only [applyDue, scAfter]
    split <;> rfl
  | wopen w d =>
    simp only [applyDue, scAfter]
    split
    · rw [loosen_sc, emptySlots_sc]
    · rfl
  | tag s g => rw [applyDue, loosen_sc, progTag_sc]; rfl
  | mtag s g => rw [applyDue, loosen_sc, progTag_sc]; rfl
  | _ => rfl

theorem foldl_applyDue_sc (l : List (Nat × Due)) (x : Tile) :
    (l.foldl (fun t p => applyDue t p.2) x).sc = l.foldl (fun v p => scAfter v p.2) x.sc := by
  induction l generalizing x with
  | nil => rfl
  | cons p l ih => rw [List.foldl_cons, List.foldl_cons, ih, applyDue_sc]

/-- The changes that go first leave the scalar registers (R124). -/
theorem scAfter_of_dueFirst {d : Due} (h : dueFirst d = true) (v : Vector Word 16) : scAfter v d = v := by
  cases d <;> first | rfl | cases h

theorem foldl_scAfter_first (l : List (Nat × Due)) (v : Vector Word 16) :
    (l.filter (fun p => dueFirst p.2)).foldl (fun v p => scAfter v p.2) v = v := by
  induction l with
  | nil => rfl
  | cons p l ih =>
    rw [List.filter_cons]
    split
    next hfirst => rw [List.foldl_cons, scAfter_of_dueFirst hfirst, ih]
    next => exact ih

theorem foldl_scAfter_rest (l : List (Nat × Due)) (v : Vector Word 16) :
    (l.filter (fun p => !dueFirst p.2)).foldl (fun v p => scAfter v p.2) v = l.foldl (fun v p => scAfter v p.2) v := by
  induction l generalizing v with
  | nil => rfl
  | cons p l ih =>
    rw [List.filter_cons, List.foldl_cons]
    split
    next => rw [List.foldl_cons, ih]
    next hfirst =>
      have hd : dueFirst p.2 = true := by simpa using hfirst
      rw [ih, scAfter_of_dueFirst hd]

/-- The scalar registers that a tile settles to: its changes due by the cycle in their order (R103). -/
theorem settleDue_sc (x : Tile) :
    (settleDue x).sc = (x.due.filter (fun p => decide (p.1 ≤ x.cyc))).foldl (fun v p => scAfter v p.2) x.sc := by
  simp only [settleDue, foldl_applyDue_sc, foldl_scAfter_first, foldl_scAfter_rest]

theorem scGet_congr {x y : Tile} (h : x.sc = y.sc) (d : Nat) : scGet x d = scGet y d := by
  rw [scGet, scGet, h]

/-- Settles O4: a scalar result is the last change due in cycle t + 1, and no change due in cycle t. -/
theorem scalarResultReadsFromNextCycle : Obligations.ScalarResultReadsFromNextCycle := by
  intro x d v hd
  constructor
  · rw [scGet, settleDue_sc]
    by_cases hzero : d = 0
    · simp [hzero]
    · simp [withScalar, List.filter_append, scAfter, hzero, Vector.getD, hd]
  · have hlater : (withScalar x d v).due.filter (fun p => decide (p.1 ≤ x.cyc)) = x.due.filter (fun p => decide (p.1 ≤ x.cyc)) := by
      simp [withScalar, List.filter_append]
    refine scGet_congr ?_ d
    rw [settleDue_sc, settleDue_sc]
    exact congrArg (fun l => l.foldl (fun v p => scAfter v p.2) x.sc) hlater

theorem scResult_of_claimed {x : Tile} {d : Fin 16} (h : claimed x (x.cyc + 1) (.sc d.val) = true) (v : Word) :
    scResult x d v = .error (.code 0x08) := by
  rw [scResult, claimAll_single_of_claimed h]
  rfl

/-- Settles O5: the claimed result refuses the operation with code 0x08, and a refusal is the record of the fault and the counted last cycle. -/
theorem writeConflictIsRefused : Obligations.WriteConflictIsRefused := by
  intro s t d a imm x hi hclaimed
  have hissue : issueSaddi x d a imm = .error (.code 0x08) := scResult_of_claimed hclaimed _
  rw [exec_saddi, execSaddi, slotOp_refused hi hissue]

/-! Slot tags (O7). -/

/-- Settles O7: each change writes the slot's tag only in its From state. -/
theorem tagsChangeOnlyFromTheirStates : Obligations.TagsChangeOnlyFromTheirStates := by
  intro x slot other
  refine ⟨?_, ?_, ?_, ?_, ?_, ?_, fun hother st e => ⟨?_, ?_⟩⟩
  case refine_7 => cases st <;> simp only [progTag] <;> split <;> simp [Ne.symm hother]
  case refine_8 => cases e <;> simp only [moverTag] <;> split <;> simp [Ne.symm hother]
  all_goals
    simp only [progTag, moverTag]
    split <;> simp_all

/-! The array slot (O8, O9). -/

theorem accKey_mod {col n : Nat} (h : n < 128) : accKey col n % 128 = n := by
  unfold accKey
  omega

/-- A key that a filter on keys drops reads as unlisted; one that it keeps reads as before. -/
theorem smGet_filter_key {α : Type} (d : α) (m : SMap α) (keep : Nat → Bool) (k : Nat) :
    smGet d (m.filter (fun p => keep p.1)) k = if keep k then smGet d m k else d := by
  induction m with
  | nil => simp [smGet]
  | cons p m ih =>
    obtain ⟨j, v⟩ := p
    rw [List.filter_cons]
    by_cases hj : j = k
    · subst hj
      by_cases hkeep : keep j = true <;> simp [hkeep, smGet, ih]
    · by_cases hkeep : keep j = true <;> simp [hkeep, smGet, hj, ih]

/-- Settles O9: the filter of ACLR keeps an accumulator exactly where it lies outside FIRST to LAST. -/
theorem aclrClearsExactlyItsRange : Obligations.AclrClearsExactlyItsRange := by
  intro a first last col n hn
  show smGet laccZero (a.acc.filter (fun p => decide (p.1 % 128 < first) || decide (last < p.1 % 128))) (accKey col n) = _
  rw [smGet_filter_key laccZero a.acc (fun k => decide (k % 128 < first) || decide (last < k % 128)), accKey_mod hn]
  by_cases hrange : first ≤ n ∧ n ≤ last
  · rw [if_pos hrange, if_neg (by simp; omega)]
  · rw [if_neg hrange, if_pos (by simp; omega)]
    rfl

/-- The WLOAD that a descriptor asks for (R74, R114). -/
def wloadOf (x : Tile) (w : Nat) (fmt : Fmt) : LoadOp :=
  ⟨x.cyc, fmt, bits w 113 7, bits w 105 8, bits w 83 22, bits w 61 22, [], []⟩

/-- The STREAM that a descriptor asks for on a problem (R81, R115). -/
def streamOf (x : Tile) (w : Nat) (fmt : Fmt) (p : Problem) (swap asrc : Bool) (asc : Fin 16) : StreamOp where
  t := x.cyc
  prob := p
  fmt := fmt
  anchor := if asrc then signedOf 10 (scGet x asc.val).toNat else signedOf 10 (bits w 110 10)
  acc := bits w 103 7
  count := bits w 96 7 + 1
  passes := probPasses p (if swap then x.arr.pShadow else x.arr.pAct)
  ebase := bits w 74 22
  sbase := bits w 52 22
  swap := swap
  bytes := []
  vecs := []
  wts := none

/-- The DRAIN that a descriptor asks for (R92, R116). -/
def drainOf (x : Tile) (w : Nat) (fmt : Fmt) (rm : RMode) : DrainOp where
  t := x.cyc
  fmt := fmt
  acc0 := bits w 113 7
  nacc := bits w 105 8
  col0 := bits w 98 7
  ncol := bits w 90 8
  rmode := rm
  stream := scGet x (bits w 84 4)
  clr := bitAt w 83
  dbase := bits w 61 22
  ebase := bits w 13 48
  q := drainQ fmt (bits w 90 8)
  next := 0

section
variable {x : Tile} {didx : BitVec 13} {w : Nat} {fmt : Fmt}

/-- R74, R117: the weight port is free, and no swap of a column of the WLOAD falls into it. -/
theorem issueWload_ok (hd : descOf x didx 1 = .ok w) (hfmt : fmtOfCode (bits w 120 4) = some fmt)
    (hport : ∀ o ∈ x.arr.loads, o.t + loadLen o ≤ x.cyc)
    (hswap : ∀ o ∈ x.arr.streams, o.swap = true → colsMeet (wloadOf x w fmt).col0 (wloadOf x w fmt).ncol o.prob.col0 o.prob.cols = true →
      o.t + 2 ≤ x.cyc ∨ x.cyc + loadLen (wloadOf x w fmt) ≤ o.t + 2) :
    issueWload x didx = .ok { x with arr := { x.arr with
      loads := x.arr.loads ++ [wloadOf x w fmt]
      pShadow := loadPasses (wloadOf x w fmt) x.arr.pShadow } } := by
  have hnoLoad : x.arr.loads.any (fun o => decide (x.cyc < o.t + loadLen o)) = false :=
    List.any_eq_false.mpr (fun o ho => by simpa using hport o ho)
  have hnoSwap : x.arr.streams.any (fun s => s.swap && decide (x.cyc < s.t + 2) && decide (s.t + 2 < x.cyc + loadLen (wloadOf x w fmt))
      && colsMeet (wloadOf x w fmt).col0 (wloadOf x w fmt).ncol s.prob.col0 s.prob.cols) = false := by
    refine List.any_eq_false.mpr (fun o ho hall => ?_)
    simp only [Bool.and_eq_true, decide_eq_true_eq] at hall
    obtain ⟨⟨⟨hsw, hbefore⟩, hafter⟩, hmeet⟩ := hall
    have := hswap o ho hsw hmeet
    omega
  unfold wloadOf at *
  simp only [issueWload, hd, bind, Except.bind, hfmt, hnoLoad, hnoSwap]
  rfl

/-- R81, R86, R115, R117: the feeders are free, no mode change and no WLOAD of a column to be swapped is under way, and the anchors and
limits allow the terms. -/
theorem issueStream_ok {prob : Fin 8} {swap asrc : Bool} {asc : Fin 16} {p : Problem} (hd : descOf x didx 2 = .ok w)
    (hfmt : fmtOfCode (bits w 120 4) = some fmt) (hprob : problemOf x.arr.hsplit x.arr.pjoin prob.val (arrayWidth x) = some p)
    (hsplit : bitAt w 51 = x.arr.hsplit)
    (hfeed : ∀ o ∈ x.arr.streams, o.prob.feeders &&& p.feeders ≠ 0 → o.t + streamSpan o ≤ x.cyc)
    (hmode : ∀ m, x.arr.modeAt = some m → x.cyc ≤ m ∨ m + 6 ≤ x.cyc + 2)
    (hload : swap = true → ∀ l ∈ x.arr.loads, colsMeet l.col0 l.ncol p.col0 p.cols = true → l.t = x.cyc + 2 ∨ l.t + loadLen l ≤ x.cyc + 2)
    (htest : streamTest x (streamOf x w fmt p swap asrc asc) = none) :
    issueStream x didx prob swap asrc asc = .ok { x with arr := { x.arr with
      streams := x.arr.streams ++ [streamOf x w fmt p swap asrc asc]
      pAct := if swap then swapPasses p x.arr.pShadow x.arr.pAct else x.arr.pAct } } := by
  have hnoFeed : x.arr.streams.any (fun o => decide (o.prob.feeders &&& p.feeders ≠ 0) && decide (x.cyc < o.t + streamSpan o)) = false := by
    refine List.any_eq_false.mpr (fun o ho hall => ?_)
    simp only [Bool.and_eq_true, decide_eq_true_eq] at hall
    have := hfeed o ho hall.1
    omega
  have hnoMode : (match x.arr.modeAt with
      | some m => decide (m < x.cyc) && decide (x.cyc + 2 < m + 6)
      | none => false) = false := by
    cases hm : x.arr.modeAt with
    | none => rfl
    | some m =>
      have := hmode m hm
      simp only [Bool.and_eq_false_iff, decide_eq_false_iff_not]
      omega
  have hnoLoad : (swap && x.arr.loads.any (fun l =>
      decide (l.t ≠ x.cyc + 2) && decide (x.cyc + 2 < l.t + loadLen l) && colsMeet l.col0 l.ncol p.col0 p.cols)) = false := by
    refine Bool.eq_false_iff.mpr (fun hall => ?_)
    simp only [Bool.and_eq_true, List.any_eq_true, decide_eq_true_eq] at hall
    obtain ⟨hsw, l, hl, ⟨hother, hlate⟩, hmeet⟩ := hall
    have := hload hsw l hl hmeet
    omega
  unfold streamOf at *
  simp only [issueStream, hd, bind, Except.bind, hfmt, hprob, hsplit, hnoFeed, hnoLoad, htest, bne_self_eq_false]
  refine (if_neg Bool.false_ne_true).trans ((if_neg Bool.false_ne_true).trans ((if_neg ?_).trans (if_neg Bool.false_ne_true)))
  exact Bool.eq_false_iff.mp hnoMode

/-- R116, R117, R126: no DRAIN is under way, and the vector port is free in the cycles of this one. -/
theorem issueDrain_ok {rm : RMode} (hd : descOf x didx 3 = .ok w) (hfmt : fmtOfCode (bits w 120 4) = some fmt)
    (hrm : rmodeOf (bits w 88 2) = some rm) (hlong : fmtIsMx fmt = false) (hport : ∀ o ∈ x.arr.drains, o.t + o.q * o.nacc ≤ x.cyc)
    (hvec : ∀ c ∈ drainCycles x.cyc (drainOf x w fmt rm).nacc (drainOf x w fmt rm).q, c ∉ x.vclaim) :
    issueDrain x didx = .ok (drainRead { x with
      vclaim := drainCycles x.cyc (drainOf x w fmt rm).nacc (drainOf x w fmt rm).q ++ x.vclaim
      arr := { x.arr with drains := x.arr.drains ++ [drainOf x w fmt rm] } } (drainOf x w fmt rm)) := by
  have hnoDrain : x.arr.drains.any (fun o => decide (x.cyc < o.t + o.q * o.nacc)) = false :=
    List.any_eq_false.mpr (fun o ho => by simpa using hport o ho)
  have hnoPort : (drainCycles x.cyc (drainOf x w fmt rm).nacc (drainOf x w fmt rm).q).any (fun c => x.vclaim.contains c) = false :=
    List.any_eq_false.mpr (fun c hc => by simpa using hvec c hc)
  unfold drainOf at *
  simp only [issueDrain, hd, bind, Except.bind, hfmt, hrm, hlong, hnoDrain, hnoPort]
  rfl

/-- R80: no digit enters while MODE is under way. -/
theorem issueMode_ok {hsplit : Bool} {pjoin : Fin 4} (h : ∀ o ∈ x.arr.streams, o.t + 1 + streamSpan o < x.cyc) :
    issueMode x hsplit pjoin = .ok (addDue { x with arr := { x.arr with modeAt := some x.cyc } } (x.cyc + 6) (.mode hsplit pjoin.val)) := by
  have hnone : x.arr.streams.any (fun s => decide (x.cyc ≤ s.t + 1 + streamSpan s)) = false :=
    List.any_eq_false.mpr (fun o ho => by simpa using h o ho)
  simp [issueMode, hnone]

end

/-- Settles O8: under the conditions of its rules each operation of the array slot is accepted, and its tile still runs. -/
theorem arrayOperationsIssue : Obligations.ArrayOperationsIssue := by
  intro s t hi
  have accepted := @accepts_of_issuesAt s t.val hi
  generalize tileNow (tileOf s t.val) = x at accepted ⊢
  refine ⟨?wload, ?stream, ?drain, ?aclr, ?mode⟩
  case wload =>
    intro didx w fmt hd hfmt l hport hswap
    exact congrArg Host.Outcome.next (accepted (issueWload_ok hd hfmt hport hswap) rfl)
  case stream =>
    intro didx prob swap asrc asc w fmt p hd hfmt hprob st hsplit hfeed hmode hload htest
    exact congrArg Host.Outcome.next (accepted (issueStream_ok hd hfmt hprob hsplit hfeed hmode hload htest) rfl)
  case drain =>
    intro didx w fmt rm hd hfmt hrm hlong q d hport hvec
    exact congrArg Host.Outcome.next (accepted (issueDrain_ok hd hfmt hrm hlong hport hvec) (drainRead_st _ _))
  case aclr => exact fun first last => congrArg Host.Outcome.next (accepted rfl rfl)
  case mode => exact fun hsplit pjoin hidle => congrArg Host.Outcome.next (accepted (issueMode_ok hidle) rfl)

end Sys2Proof.Machine
end

section
/-! SUPPORT. The vector slot on a tile that issues (O10, O11, O12, R118 to R126): a form whose results, increments and port cycle are free is
accepted, and what it leaves is its claims, its result due in the table's cycle, its increments and its counts. -/

namespace Sys2Proof.Machine

@[simp] theorem addDue_st (x : Tile) (c : Nat) (d : Due) : (addDue x c d).st = x.st := rfl

@[simp] theorem addClaims_st (x : Tile) (l : List (Nat × RegName)) : (addClaims x l).st = x.st := rfl

@[simp] theorem addSinc_st (x : Tile) (n : Nat) (on : Bool) : (addSinc x n on).st = x.st := by
  unfold addSinc
  split <;> rfl

@[simp] theorem addPinc_st (x : Tile) (n : Nat) (on : Bool) : (addPinc x n on).st = x.st := by
  unfold addPinc
  split <;> rfl

@[simp] theorem memIncs_st (x : Tile) (f : VMem) : (memIncs x f).st = x.st := by
  have keeps (y : Tile) (n : Nat) : (addPinc y n true).st = y.st := addPinc_st y n true
  rw [memIncs, addSinc_st, foldl_keeps_st keeps]

@[simp] theorem withLanes_st (x : Tile) (f : VReg) (L : Nat) (lanes : List Nat) (ev : NumEv) : (withLanes x f L lanes ev).st = x.st := by
  simp [withLanes]

@[simp] theorem withPort_st (x : Tile) (f : VMem) (l : List (Nat × RegName)) (c : Nat) (p : VPort) : (withPort x f l c p).st = x.st := by
  simp [withPort]

/-! The register forms (O10, O11). -/

/-- The claims of a register form: its lanes at t + L, and its SINC at t + 1 (R103, R108). -/
theorem claimAll_of_lanesFree {x : Tile} {f : VReg} {L : Nat} (h : lanesFree x f L = true) :
    claimAll x ((x.cyc + L, .v f.vd.val) :: sincClaims x f.ssel.val f.sinc) =
      .ok (addClaims x ((x.cyc + L, .v f.vd.val) :: sincClaims x f.ssel.val f.sinc)) := by
  simp only [lanesFree, Bool.and_eq_true, Bool.not_eq_true', Bool.and_eq_false_imp] at h
  obtain ⟨hlanes, hsinc⟩ := h
  unfold sincClaims
  cases hs : f.sinc with
  | false => exact claimAll_single hlanes
  | true => exact claimAll_of_free (by simp [hlanes, hsinc hs]) (by simp)

/-- R119: a register form whose results are free leaves its lanes, its SINC and its counts. -/
theorem regResult_ok {x : Tile} {f : VReg} {L : Nat} (h : lanesFree x f L = true) (lanes : List Nat) (ev : NumEv) :
    regResult x f L lanes ev = .ok (withLanes x f L lanes ev) := by
  rw [regResult, claimAll_of_lanesFree h]
  rfl

/-- One lane of an arithmetic operation is the exact result of the operation on its operands, rounded once (R44, R120). -/
theorem arithLane_eq_roundedLane (op : XVal → XVal → XVal → XVal × Nat) (x : Tile) (f : VReg) (rm : RMode) (i : Nat) :
    arithLane op 2 rm (tileDraw x f.ssel.val i) ((vLanes x f.va.val).getD i 0) ((vLanes x f.vb.val).getD i 0) ((vLanes x f.vc.val).getD i 0) =
      roundedLane x f rm [f.va, f.vb] (op (Sys2Proof.laneOf x f.va.val i) (Sys2Proof.laneOf x f.vb.val i) (Sys2Proof.laneOf x f.vc.val i)) i ∧
    arithLane op 3 rm (tileDraw x f.ssel.val i) ((vLanes x f.va.val).getD i 0) ((vLanes x f.vb.val).getD i 0) ((vLanes x f.vc.val).getD i 0) =
      roundedLane x f rm [f.va, f.vb, f.vc] (op (Sys2Proof.laneOf x f.va.val i) (Sys2Proof.laneOf x f.vb.val i) (Sys2Proof.laneOf x f.vc.val i)) i := by
  simp [arithLane, roundedLane, laneFlush, Sys2Proof.laneOf]

section
variable {x : Tile} {f : VReg}

/-- R120: an operation of two operands rounds each lane once. -/
theorem issueArith_two {rm : RMode} (hrm : rmodeOf f.rmode.val = some rm) (hfree : lanesFree x f 4 = true)
    (op : XVal → XVal → XVal → XVal × Nat) (r : List (Nat × NumEv))
    (hr : r = (List.range 64).map (fun i =>
      roundedLane x f rm [f.va, f.vb] (op (Sys2Proof.laneOf x f.va.val i) (Sys2Proof.laneOf x f.vb.val i) (Sys2Proof.laneOf x f.vc.val i)) i)) :
    issueArith op 2 x f = .ok (withLanes x f 4 (r.map (·.1)) (r.foldl (fun e y => evAdd e y.2) evNone)) := by
  have hlane i := (arithLane_eq_roundedLane op x f rm i).1
  simp only [issueArith, hrm, hlane, regResult_ok hfree, hr]

/-- R120: the fused operation of three operands rounds each lane once. -/
theorem issueArith_three {rm : RMode} (hrm : rmodeOf f.rmode.val = some rm) (hfree : lanesFree x f 4 = true)
    (op : XVal → XVal → XVal → XVal × Nat) (r : List (Nat × NumEv))
    (hr : r = (List.range 64).map (fun i =>
      roundedLane x f rm [f.va, f.vb, f.vc] (op (Sys2Proof.laneOf x f.va.val i) (Sys2Proof.laneOf x f.vb.val i) (Sys2Proof.laneOf x f.vc.val i)) i)) :
    issueArith op 3 x f = .ok (withLanes x f 4 (r.map (·.1)) (r.foldl (fun e y => evAdd e y.2) evNone)) := by
  have hlane i := (arithLane_eq_roundedLane op x f rm i).2
  simp only [issueArith, hrm, hlane, regResult_ok hfree, hr]

/-- R121: a function of RMODE 0 takes each lane to its fixed value. -/
theorem issueFn_ok (hfree : lanesFree x f 10 = true) (hrm : f.rmode = 0) (g : Nat → Nat × NumEv) :
    issueFn g x f = .ok (withLanes x f 10
      (((vLanes x f.va.val).map (fun w => ((g w.toNat).1, evAdd (g w.toNat).2 ⟨0, (readF32 w).2, 0⟩))).map (·.1))
      (((vLanes x f.va.val).map (fun w => ((g w.toNat).1, evAdd (g w.toNat).2 ⟨0, (readF32 w).2, 0⟩))).foldl
        (fun e y => evAdd e y.2) evNone)) := by
  simp only [issueFn, hrm, Fin.val_zero, ne_eq, not_true_eq_false, if_false, regResult_ok hfree]

/-- R119, R44, R46: what VBCAST leaves: a NaN is the canonical one, a subnormal the zero of its sign, and any other pattern itself. -/
theorem issueVbcast_ok (hfree : lanesFree x f 1 = true) :
    issueVbcast x f = .ok (if (readF32 (scGet x f.va.val)).1 = .nan then
        withLanes x f 1 (List.replicate 64 (nanCode .fp32)) ⟨0, (readF32 (scGet x f.va.val)).2, 0⟩
      else if (readF32 (scGet x f.va.val)).2 = 0 then withLanes x f 1 (List.replicate 64 (scGet x f.va.val).toNat) ⟨0, 0, 0⟩
      else withLanes x f 1 (List.replicate 64 (zeroCode .fp32 (scGet x f.va.val).msb)) ⟨0, (readF32 (scGet x f.va.val)).2, 0⟩) := by
  rw [issueVbcast, regResult_ok hfree]
  split
  case isTrue hnan => simp
  case isFalse hnan =>
    split
    case isTrue hnormal => simp [hnormal]
    case isFalse hsub => simp

/-- R120: VRSUM rounds the exact sum of the lanes once. -/
theorem issueVrsum_ok {rm : RMode} (hrm : rmodeOf f.rmode.val = some rm) (hfree : lanesFree x f 8 = true) :
    issueVrsum x f = .ok (withLanes x f 8
      (List.replicate 64 (writeLong .fp32 rm (tileDraw x f.ssel.val 0) (sumLanes ((vLanes x f.va.val).map (fun w => (readF32 w).1))).1).1)
      (evAdd (writeLong .fp32 rm (tileDraw x f.ssel.val 0) (sumLanes ((vLanes x f.va.val).map (fun w => (readF32 w).1))).1).2
        ⟨0, (vLanes x f.va.val).foldl (fun n y => n + (readF32 y).2) 0, (sumLanes ((vLanes x f.va.val).map (fun w => (readF32 w).1))).2⟩)) := by
  simp only [issueVrsum, hrm, regResult_ok hfree, List.map_map, List.foldl_map, Function.comp_def]

end

/-- Settles O10: each lane-wise form is accepted where its results are free, and its lanes are the exact results rounded once. -/
theorem vectorLanewiseResults : Obligations.VectorLanewiseResults := by
  intro s t f hi
  have accepted := @accepts_of_issuesAt s t.val hi
  generalize tileNow (tileOf s t.val) = x at accepted ⊢
  intro x A B C done
  refine ⟨fun hfree => ?vmov, fun hfree => ⟨fun rm hrm => ⟨?vadd, ?vsub, ?vmul, ?vfma⟩, ?vmax, ?vmin⟩⟩
  case vmov => exact congrArg Host.Outcome.next (accepted (regResult_ok hfree _ _) (withLanes_st ..))
  case vadd => exact congrArg Host.Outcome.next (accepted (issueArith_two hrm hfree opAdd _ rfl) (withLanes_st ..))
  case vsub => exact congrArg Host.Outcome.next (accepted (issueArith_two hrm hfree opSub _ rfl) (withLanes_st ..))
  case vmul => exact congrArg Host.Outcome.next (accepted (issueArith_two hrm hfree opMul _ rfl) (withLanes_st ..))
  case vfma => exact congrArg Host.Outcome.next (accepted (issueArith_three hrm hfree opFma _ rfl) (withLanes_st ..))
  case vmax => exact congrArg Host.Outcome.next (accepted (regResult_ok hfree _ _) (withLanes_st ..))
  case vmin => exact congrArg Host.Outcome.next (accepted (regResult_ok hfree _ _) (withLanes_st ..))

/-- Settles O11: a broadcast, a reduction or a function of RMODE 0 is accepted where its results are free. -/
theorem vectorReductionsAndFunctions : Obligations.VectorReductionsAndFunctions := by
  intro s t f hi
  have accepted := @accepts_of_issuesAt s t.val hi
  generalize tileNow (tileOf s t.val) = x at accepted ⊢
  intro x lanes fn
  refine ⟨fun hfree => ?vbcast, fun hfree => ?vrmax, fun hfree rm hrm => ?vrsum, fun hfree hrm => ⟨?vexp2, ?vlog2, ?vrcp, ?vrsq⟩⟩
  case vbcast =>
    refine congrArg Host.Outcome.next (accepted (issueVbcast_ok hfree) ?_)
    split
    · exact withLanes_st ..
    · split <;> exact withLanes_st ..
  case vrmax => exact congrArg Host.Outcome.next (accepted (regResult_ok hfree _ _) (withLanes_st ..))
  case vrsum => exact congrArg Host.Outcome.next (accepted (issueVrsum_ok hrm hfree) (withLanes_st ..))
  case vexp2 => exact congrArg Host.Outcome.next (accepted (issueFn_ok hfree hrm fnExp2) (withLanes_st ..))
  case vlog2 => exact congrArg Host.Outcome.next (accepted (issueFn_ok hfree hrm fnLog2) (withLanes_st ..))
  case vrcp => exact congrArg Host.Outcome.next (accepted (issueFn_ok hfree hrm fnRcp) (withLanes_st ..))
  case vrsq => exact congrArg Host.Outcome.next (accepted (issueFn_ok hfree hrm fnRsq) (withLanes_st ..))

/-! The memory forms (O12). -/

/-- R126: a vector port cycle that is free is taken, after the claims of register results. -/
theorem portClaim_addClaims {x : Tile} {c : Nat} (h : c ∉ x.vclaim) (l : List (Nat × RegName)) (p : VPort) :
    portClaim (addClaims x l) c p = .ok { addClaims x l with vclaim := c :: x.vclaim, vport := x.vport ++ [(c, p)] } := by
  simp [portClaim, addClaims, h]

section
variable {x : Tile} {f : VMem} {fmt : Fmt} (hfmt : fmtOfCode f.fmt.val = some fmt)
include hfmt

theorem issueVld_ok (hlong : fmtIsMx fmt = false) (ha : (adGet x f.ade.val).addr.toNat % 64 = 0)
    (hclaim : claimAll x ([(x.cyc + 3, .v f.v.val)] ++ memClaims x f) = .ok (addClaims x ([(x.cyc + 3, .v f.v.val)] ++ memClaims x f)))
    (hport : x.cyc ∉ x.vclaim) :
    issueVld x f = .ok (withPort x f [(x.cyc + 3, .v f.v.val)] x.cyc (.load f.v.val fmt (adGet x f.ade.val).addr.toNat)) := by
  rw [List.singleton_append] at hclaim
  simp only [issueVld, hfmt, hlong, ha, hclaim, bind, Except.bind, ne_eq, not_true_eq_false, if_false, Bool.false_eq_true]
  rw [portClaim_addClaims hport]
  rfl

theorem issueVdqt_ok (hmx : fmtIsMx fmt = true) (ha : (adGet x f.ade.val).addr.toNat % 16 = 0)
    (hclaim : claimAll x ([(x.cyc + 4, .v f.v.val)] ++ memClaims x f) = .ok (addClaims x ([(x.cyc + 4, .v f.v.val)] ++ memClaims x f)))
    (hport : x.cyc ∉ x.vclaim) :
    issueVdqt x f = .ok (withPort x f [(x.cyc + 4, .v f.v.val)] x.cyc
      (.dequant f.v.val fmt (adGet x f.ade.val).addr.toNat (adGet x f.ads.val).addr.toNat)) := by
  rw [List.singleton_append] at hclaim
  simp only [issueVdqt, hfmt, hmx, ha, hclaim, bind, Except.bind, ne_eq, not_true_eq_false, if_false, Bool.not_true, Bool.false_eq_true]
  rw [portClaim_addClaims hport]
  rfl

theorem issueVscan_ok
    (hclaim : claimAll x ((if f.fin then [(x.cyc + 4, .sc f.v.val)] else []) ++ memClaims x f) =
      .ok (addClaims x ((if f.fin then [(x.cyc + 4, .sc f.v.val)] else []) ++ memClaims x f)))
    (hport : x.cyc ∉ x.vclaim) :
    issueVscan x f = .ok (withPort x f (if f.fin then [(x.cyc + 4, .sc f.v.val)] else []) x.cyc
      (.scan f.v.val fmt (adGet x f.ade.val).addr.toNat (adGet x f.ads.val).addr.toNat f.fin)) := by
  simp only [issueVscan, hfmt, hclaim, bind, Except.bind]
  rw [portClaim_addClaims hport]
  rfl

variable {rm : RMode} (hrm : rmodeOf f.rmode.val = some rm) (hclaim : claimAll x (memClaims x f) = .ok (addClaims x (memClaims x f)))
include hrm hclaim

theorem issueVst_ok (hlong : fmtIsMx fmt = false) (ha : (adGet x f.ade.val).addr.toNat % 64 = 0) (hport : x.cyc + 2 ∉ x.vclaim)
    (r : List (Nat × NumEv)) (hr : r = (vLanes x f.v.val).zipIdx.map (fun y =>
      let w := writeLong fmt rm (tileDraw x f.ssel.val y.2) (readF32 y.1).1
      (w.1, evAdd w.2 ⟨0, (readF32 y.1).2, 0⟩))) :
    issueVst x f = .ok (addEv (withPort x f [] (x.cyc + 2)
      (.store (adGet x f.ade.val).addr.toNat (r.flatMap (fun y => leBytes (fmtWidth fmt / 8) y.1))))
      (x.cyc + 2) (r.foldl (fun e y => evAdd e y.2) evNone)) := by
  simp only [issueVst, hfmt, hrm, hlong, ha, hclaim, bind, Except.bind, ne_eq, not_true_eq_false, if_false, Bool.false_eq_true]
  rw [portClaim_addClaims hport, hr]
  rfl

/-- The block of 32 lanes from lane 32k that VQNT quantises (R122). -/
def quantHalf (x : Tile) (f : VMem) (fmt : Fmt) (rm : RMode) (k : Nat) :=
  quantBlock fmt rm (fun i => tileDraw x f.ssel.val (32 * k + i)) (((((vLanes x f.v.val).map readF32).drop (32 * k)).take 32).map (·.1))

theorem issueVqnt_ok (hmx : fmtIsMx fmt = true) (ha : (adGet x f.ade.val).addr.toNat % 16 = 0) (hport : x.cyc + 3 ∉ x.vclaim) :
    issueVqnt x f = .ok (addEv (withPort x f [] (x.cyc + 3)
      (.store2 (adGet x f.ade.val).addr.toNat (packCodes fmt ((quantHalf x f fmt rm 0).codes ++ (quantHalf x f fmt rm 1).codes))
        (adGet x f.ads.val).addr.toNat [BitVec.ofNat 8 (quantHalf x f fmt rm 0).scale, BitVec.ofNat 8 (quantHalf x f fmt rm 1).scale]))
      (x.cyc + 3) (evAdd (evAdd (quantHalf x f fmt rm 0).ev (quantHalf x f fmt rm 1).ev)
        ⟨0, ((vLanes x f.v.val).map readF32).foldl (fun n y => n + y.2) 0, 0⟩)) := by
  simp only [issueVqnt, hfmt, hrm, hmx, ha, hclaim, bind, Except.bind, ne_eq, not_true_eq_false, if_false, Bool.not_true, Bool.false_eq_true]
  rw [portClaim_addClaims hport]
  rfl

end

/-- Settles O12: each memory form whose claims and port cycle are free is accepted, and its transfer is due in the table's cycle. -/
theorem vectorMemoryForms : Obligations.VectorMemoryForms := by
  intro s t f fmt rm hi hfmt hrm
  have accepted := @accepts_of_issuesAt s t.val hi
  generalize tileNow (tileOf s t.val) = x at accepted ⊢
  intro x a b ok
  refine ⟨fun hlong ha => ⟨fun hclaim hport => ?vld, fun hclaim hport => ?vst⟩,
    fun hmx ha => ⟨fun hclaim hport => ?vdqt, fun hclaim hport => ?vqnt⟩, fun hclaim hport => ?vscan, fun hclaim => ?vdig⟩
  case vld => exact congrArg Host.Outcome.next (accepted (issueVld_ok hfmt hlong ha hclaim hport) (withPort_st ..))
  case vst =>
    exact congrArg Host.Outcome.next (accepted (issueVst_ok hfmt hrm hclaim hlong ha hport _ rfl) ((addEv_st ..).trans (withPort_st ..)))
  case vdqt => exact congrArg Host.Outcome.next (accepted (issueVdqt_ok hfmt hmx ha hclaim hport) (withPort_st ..))
  case vqnt =>
    exact congrArg Host.Outcome.next (accepted (issueVqnt_ok hfmt hrm hclaim hmx ha hport) ((addEv_st ..).trans (withPort_st ..)))
  case vscan => exact congrArg Host.Outcome.next (accepted (issueVscan_ok hfmt hclaim hport) (withPort_st ..))
  case vdig =>
    have hissue : issueVdig x f = .ok (memIncs (addDue (addClaims x (memClaims x f)) (x.cyc + 6) (.digAdd (digSum x f))) f) := by
      have hfree : claimAll x (memClaims x f) = .ok (addClaims x (memClaims x f)) := hclaim
      rw [issueVdig, hfree]
      rfl
    exact congrArg Host.Outcome.next (accepted hissue (memIncs_st ..))

end Sys2Proof.Machine
end

section
/-! SUPPORT. The move slot on a tile that issues (O14, O15, R127 to R130, R145, R146, R216, R221): an operation that no tag blocks is accepted
where its claims and outbound cycles are free; one that a LENT slot blocks holds the tile. -/

namespace Sys2Proof.Machine

/-- An operation of the move slot that no tag blocks, that is no 33rd MREQ, and that x accepts, changes tile t only. -/
def MoveAccepts (s : State) (t : Nat) (x : Tile) : Prop :=
  ∀ {o : MovOp} {y : Tile}, movBlocked x o = none → (isMreq o = true → x.mreqOut ≠ 32) → issueMov t (x.pc % 8192) x o = .ok y → y.st = x.st →
    moveOp s t o = setTile s t y

theorem moveAccepts_of_issuesAt {s : State} {t : Nat} (hi : issuesAt s t = true) : MoveAccepts s t (tileNow (tileOf s t)) := by
  intro o y hfree hmreq hissue hst
  have hissues : tileIssues (opEnv s t).partners (tileOf s t) = true := hi
  have hnot33 : ¬((tileNow (tileOf s t)).mreqOut = 32 ∧ isMreq o = true) := fun h => hmreq h.2 h.1
  have hrun : y.st ≠ .fault := by
    rw [hst, tileNow_st_of_issuesAt hi]
    decide
  rw [moveOp, updTile, tileMove, if_pos hissues, hfree]
  dsimp only
  rw [if_neg hnot33, hissue, slotResult, lastCycle, if_neg hrun]

theorem outClaim_ok {x : Tile} {cs : List Nat} (h : ∀ c ∈ cs, c ∉ x.oclaim) : outClaim x cs = .ok { x with oclaim := cs ++ x.oclaim } := by
  simpa [outClaim] using h

/-- The claim of a post-increment is free (R103, R107). -/
theorem claimAll_adClaim {x : Tile} {ad : Fin 32} {pinc : Bool} (h : pinc = true → claimed x (x.cyc + 1) (.ad ad.val) = false) :
    claimAll x (adClaim x ad pinc) = .ok (addClaims x (adClaim x ad pinc)) := by
  cases pinc with
  | false => rfl
  | true => exact claimAll_single (h rfl)

section
variable {x : Tile} {me : Nat} {ad : Fin 32} {didx : BitVec 13} {pinc : Bool}
  (hclaim : pinc = true → claimed x (x.cyc + 1) (.ad ad.val) = false)
include hclaim

/-- The header that PUT sends (R127, R160). -/
def putHdr (me w : Nat) : InHdr := ⟨bits w 119 5, bits w 113 6, bits w 109 4, bits w 87 22, bits w 81 6 + 1, .tile, me⟩

theorem issuePut_ok {w : Nat} (hd : descOf x didx 4 = .ok w) (hout : ∀ i, i ≤ bits w 81 6 → x.cyc + 1 + i ∉ x.oclaim) :
    issuePut me x ad didx pinc = .ok (addPinc { addClaims x (adClaim x ad pinc) with
      oclaim := (List.range (bits w 81 6 + 1)).map (fun i => x.cyc + 1 + i) ++ x.oclaim
      outq := x.outq ++ (List.range (bits w 81 6 + 1)).map (putWord x.cyc (adGet x ad.val).addr.toNat (putHdr me w)) } ad.val pinc) := by
  have hfree : ∀ c ∈ (List.range (bits w 81 6 + 1)).map (fun i => x.cyc + 1 + i), c ∉ (addClaims x (adClaim x ad pinc)).oclaim := by
    intro c hc
    obtain ⟨i, hi, rfl⟩ := List.mem_map.mp hc
    exact hout i (by simpa [Nat.lt_succ_iff] using hi)
  simp only [issuePut, hd, bind, Except.bind, claimAll_adClaim hclaim]
  rw [outClaim_ok hfree]
  rfl

/-- The tile after an MREQ of descriptor w but for its post-increment: its outbound cycle, its place among the 32, and the tag change due
(R127, R146, R214, R221). -/
def withMreq (me : Nat) (x : Tile) (ad : Fin 32) (pinc : Bool) (w : Nat) : Tile :=
  let a := (adGet x ad.val).addr.toNat
  let y := { addClaims x (adClaim x ad pinc) with
    oclaim := (x.cyc + 1) :: x.oclaim
    outq := x.outq ++ [(x.cyc + 1, .request ⟨BitVec.ofNat 128 w, me, a, x.cyc⟩)]
    mreqOut := x.mreqOut + 1
    loose := { x.loose with tile := me } }
  match mreqDir (bits w 121 3) with
  | some true => { y with mreqIn := x.mreqIn ++ [a / 4096], due := x.due ++ [(x.cyc + 1, .mtag (a / 4096) .empty)] }
  | some false =>
    { y with loose := { x.loose with tile := me, sent := x.loose.sent ++ [a / 4096] }, due := x.due ++ [(x.cyc + 1, .mtag (a / 4096) .lent)] }
  | none => y

omit hclaim in
theorem withMreq_st (w : Nat) : (withMreq me x ad pinc w).st = x.st := by
  unfold withMreq
  dsimp only
  split <;> rfl

theorem issueMreq_ok {w : Nat} (hd : descOf x didx 5 = .ok w) (hout : x.cyc + 1 ∉ x.oclaim) (ha : (adGet x ad.val).addr.toNat % 64 = 0)
    (hslot : (adGet x ad.val).addr.toNat % 4096 + 64 * (bits w 115 6 + 1) ≤ 4096) :
    issueMreq me x ad didx pinc = .ok (addPinc (withMreq me x ad pinc w) ad.val pinc) := by
  have hinSlot : ¬((adGet x ad.val).addr.toNat % 64 ≠ 0 ∨ (adGet x ad.val).addr.toNat % 4096 + 64 * (bits w 115 6 + 1) > 4096) := by omega
  have hfree : ∀ c ∈ [x.cyc + 1], c ∉ (addClaims x (adClaim x ad pinc)).oclaim := by
    intro c hc
    rw [List.mem_singleton.mp hc]
    exact hout
  simp only [issueMreq, hd, bind, Except.bind]
  rw [if_neg hinSlot, claimAll_adClaim hclaim]
  dsimp only
  rw [outClaim_ok hfree]
  unfold withMreq
  cases hdir : mreqDir (bits w 121 3) with
  | none => rfl
  | some inward => cases inward <;> rfl

theorem issuePld_ok {soon : List Nat} {fpc : Nat} {idx : BitVec 12} {kind : Bool} (hidx : idx.toNat ≤ 2047) (hout : x.cyc + 1 ∉ x.oclaim)
    (hsoon : ∀ p ∈ soon, p < 4 * idx.toNat ∨ 4 * idx.toNat + 4 ≤ p) :
    issuePld soon fpc x ad idx kind pinc = .ok (addPinc { addClaims x (adClaim x ad pinc) with
      oclaim := (x.cyc + 1) :: x.oclaim
      outq := x.outq ++ [(x.cyc + 1, .pld (adGet x ad.val).addr.toNat (4 * idx.toNat) kind fpc)] } ad.val pinc) := by
  have hnoIssue : soon.any (fun p => decide (4 * idx.toNat ≤ p) && decide (p < 4 * idx.toNat + 4)) = false := by
    refine List.any_eq_false.mpr (fun p hp hin => ?_)
    simp only [Bool.and_eq_true, decide_eq_true_eq] at hin
    have := hsoon p hp
    omega
  have hfree : ∀ c ∈ [x.cyc + 1], c ∉ (addClaims x (adClaim x ad pinc)).oclaim := by
    intro c hc
    rw [List.mem_singleton.mp hc]
    exact hout
  simp only [issuePld, hnoIssue, bind, Except.bind, claimAll_adClaim hclaim]
  rw [if_neg (Nat.not_lt.mpr hidx), outClaim_ok hfree]
  rfl

end

/-- R145: TFULL and TEMPTY meet no tag that blocks them on a slot that is not LENT. -/
theorem movBlocked_slot {x : Tile} {slot : Fin 1024} (h : (tagOf x slot.val).st ≠ .lent) :
    movBlocked x (.tfull slot) = none ∧ movBlocked x (.tempty slot) = none := by
  simp only [movBlocked, movTagTest, List.findSome?_cons, List.findSome?_nil]
  cases ht : (tagOf x slot.val).st <;> simp_all

/-- R145: TFULL and TEMPTY hold on a LENT slot under cause 2. -/
theorem movBlocked_lent {x : Tile} {slot : Fin 1024} (h : (tagOf x slot.val).st = .lent) : movBlocked x (.tempty slot) = some (2, slot.val) := by
  simp [movBlocked, movTagTest, h]

/-- Settles O14: each move operation that no tag blocks is accepted where its claims and its outbound cycles are free. -/
theorem moveOperationsIssue : Obligations.MoveOperationsIssue := by
  intro s t ad didx pinc hi
  have accepted := @moveAccepts_of_issuesAt s t.val hi
  generalize tileNow (tileOf s t.val) = x at accepted ⊢
  have notMreq : false = true → x.mreqOut ≠ 32 := fun h => nomatch h
  refine ⟨?put, ?mreq, ?wopen, ?wclose, ?tags, ?pld⟩
  case put =>
    intro w hd hclaim hout n h
    exact congrArg Host.Outcome.next (accepted rfl notMreq (issuePut_ok hclaim hd hout) (addPinc_st ..))
  case mreq =>
    intro w hd hclaim hout ha hslot hplaces hfree y z
    have hmreq : isMreq (.mreq ad didx pinc) = true → x.mreqOut ≠ 32 := fun _ => Nat.ne_of_lt hplaces
    exact congrArg Host.Outcome.next
      (accepted hfree hmreq (issueMreq_ok hclaim hd hout ha hslot) ((addPinc_st ..).trans (withMreq_st w)))
  case wopen =>
    intro win w hd hfree
    have hissue : issueMov t.val (x.pc % 8192) x (.wopen win didx) = .ok (addDue x (x.cyc + 1) (.wopen win.val (decWindow w))) := by
      rw [issueMov, issueWopen, hd]
      rfl
    exact congrArg Host.Outcome.next (accepted hfree notMreq hissue rfl)
  case wclose => exact fun win => congrArg Host.Outcome.next (accepted rfl notMreq rfl rfl)
  case tags =>
    intro slot hslot
    obtain ⟨hfull, hempty⟩ := movBlocked_slot hslot
    exact ⟨congrArg Host.Outcome.next (accepted hfull notMreq rfl rfl), congrArg Host.Outcome.next (accepted hempty notMreq rfl rfl)⟩
  case pld =>
    intro idx kind hidx hclaim hout hsoon
    exact congrArg Host.Outcome.next (accepted rfl notMreq (issuePld_ok hclaim hidx hout hsoon) (addPinc_st ..))

/-! A hold on a LENT slot (O15). -/

/-- Words that the inbound path takes in a held cycle go to the delivery queues (R147, R167): the rest of the tile stays. -/
theorem heldDeliver_eq (me : Nat) (x : Tile) : heldDeliver me x = { x with dq := (heldDeliver me x).dq, early := (heldDeliver me x).early } := by
  unfold heldDeliver
  generalize allDirs = l
  induction l generalizing x with
  | nil => rfl
  | cons d l ih =>
    rw [List.foldl_cons, ih]
    split
    · rfl
    · split
      · split <;> rfl
      · rfl

theorem tileMove_blocked {e : OpEnv} {me : Nat} {x : Tile} {o : MovOp} {b : Nat × Nat} (hi : tileIssues e.partners x = true)
    (hb : movBlocked (tileNow x) o = some b) : tileMove e me x o = holdTag me (tileNow x) e.limit b.1 b.2 := by
  rw [tileMove, if_pos hi, hb]

/-- A period that passes counts (R189): every other field that a hold records stays. -/
theorem countPeriods_eq (x : Tile) (limit : Bool) (n : Nat) :
    countPeriods x limit n = { x with
      stretch := (countPeriods x limit n).stretch, phys := (countPeriods x limit n).phys
      sDroop := (countPeriods x limit n).sDroop, sLimit := (countPeriods x limit n).sLimit } := by
  unfold countPeriods
  dsimp only
  split <;> rfl

/-- R145, R198, R232: what a hold on a tag records, and that it changes neither the cycle nor the tags nor what is due. -/
theorem holdTag_effect (me : Nat) (x : Tile) (limit : Bool) (cause slot : Nat) :
    let y := holdTag me x limit cause slot
    y.held = true ∧ y.holdOn = true ∧ y.holdCause = cause ∧ y.holdSlot = slot ∧ y.hold = x.hold + 1 ∧
      y.hTag = satAdd32 x.hTag 1 ∧ y.cyc = x.cyc ∧ y.tags = x.tags ∧ y.due = x.due := by
  rw [holdTag, heldDeliver_eq, countPeriods_eq]
  exact ⟨rfl, rfl, rfl, rfl, rfl, rfl, rfl, rfl, rfl⟩

/-- Settles O15: the LENT slot blocks the operation, and the hold counts under the tag cause and changes neither tags nor what is due. -/
theorem lentSlotHoldsTheTile : Obligations.LentSlotHoldsTheTile := by
  intro s t slot hi x hlent
  refine ⟨_, rfl, ?_⟩
  have hhold := tileMove_blocked (e := opEnv s t.val) (me := t.val) hi (movBlocked_lent hlent)
  rw [moveOp, tileOf_updTile, if_pos rfl, hhold]
  exact holdTag_effect t.val x (opEnv s t.val).limit 2 slot.val

end Sys2Proof.Machine
end

section
/-! SUPPORT. Windows, the scratchpad and the memory tiers (O20, O25, O26): the order of the window check, and what a read gives after a write. -/

namespace Sys2Proof.Machine

/-! The window check (R153). -/

/-- R153: the source of a header is denied by a window. -/
def deniedBy (w : Window) (src : SrcKind) : Bool :=
  match src with
  | .tile => !w.tile
  | .mover => !w.mover
  | .cord k => !w.cord || decide ((k ^^^ w.cordNo) &&& w.cmask ≠ 0)

/-- R153: the window check as a chain of tests. -/
theorem windowCheck_eq (x : Tile) (h : InHdr) :
    windowCheck x h =
      if !(winOf x h.win).isOpen then .closed
      else if deniedBy (winOf x h.win) h.src then .denied
      else if (winOf x h.win).lastw < (winOf x h.win).basew + h.offset / 64 + h.nwords - 1 then .range
      else if !banksOwned x ((winOf x h.win).basew + h.offset / 64) ((winOf x h.win).basew + h.offset / 64 + h.nwords - 1) then .range
      else .ok := rfl

theorem banksOwned_iff (x : Tile) (first last : Nat) :
    banksOwned x first last = true ↔ ∀ b ∈ banksOf (64 * first) (64 * (last + 1 - first)), bankOwner x b = 3 := by
  simp [banksOwned]

theorem deniedBy_iff (w : Window) (src : SrcKind) :
    deniedBy w src = true ↔ (match src with
      | .tile => w.tile = false
      | .mover => w.mover = false
      | .cord k => w.cord = false ∨ (k ^^^ w.cordNo) &&& w.cmask ≠ 0) := by
  cases src <;> simp [deniedBy]

/-- Settles O20: the tests of the window check in their order. -/
theorem windowCheckOrder : Obligations.WindowCheckOrder := by
  intro x h w first last denied owned
  have hdenied : deniedBy w h.src = true ↔ denied := deniedBy_iff w h.src
  have howned : banksOwned x first last = true ↔ owned := banksOwned_iff x first last
  rw [windowCheck_eq]
  refine ⟨fun hclosed => ?closed, fun hopen hd => ?denied, fun hopen hd hout => ?range, fun hopen hd hin ho => ?ok⟩
  case closed => exact if_pos (by rw [show (winOf x h.win).isOpen = false from hclosed]; rfl)
  all_goals rw [if_neg (by rw [show (winOf x h.win).isOpen = true from hopen]; decide)]
  case denied => exact if_pos (hdenied.mpr hd)
  all_goals rw [if_neg (fun h' => hd (hdenied.mp h'))]
  case range =>
    by_cases hlast : w.lastw < last
    · exact if_pos hlast
    · have hnotOwned : banksOwned x first last = false :=
        Bool.eq_false_iff.mpr (fun h' => (hout.resolve_left hlast) (howned.mp h'))
      exact (if_neg hlast).trans (if_pos (by rw [hnotOwned]; rfl))
  case ok => exact (if_neg (Nat.not_lt.mpr hin)).trans (if_neg (by rw [howned.mpr ho]; decide))

/-! The memory tiers (R206, R207). -/

/-- Reading a byte of a tier after a write of bytes. -/
theorem memByte_memWrite (bs : List Byte) (m : MemState) {tier other : Nat} (htier : tier < 2) (hother : other < 2) (key k : Nat) :
    memByte (memWrite m tier key bs) other k =
      if other = tier ∧ key ≤ k ∧ k < key + bs.length then bs.getD (k - key) 0 else memByte m other k := by
  induction bs generalizing m key with
  | nil =>
    rw [memWrite, if_neg]
    simp only [List.length_nil]
    omega
  | cons b bs ih =>
    rw [memWrite, ih, memByte_memSetByte]
    have hsame : (tier = 0 ↔ other = 0) ↔ other = tier := by omega
    simp only [hsame, List.length_cons]
    by_cases hfirst : other = tier ∧ key = k
    · obtain ⟨rfl, rfl⟩ := hfirst
      rw [if_neg (by omega), if_pos ⟨rfl, rfl⟩, if_pos (by omega)]
      simp
    · rw [if_neg hfirst]
      by_cases hrest : other = tier ∧ key + 1 ≤ k ∧ k < key + 1 + bs.length
      · rw [if_pos hrest, if_pos (by omega)]
        have hindex : k - key = (k - (key + 1)) + 1 := by omega
        rw [hindex, List.getD_cons_succ]
      · rw [if_neg hrest, if_neg (by omega)]

/-- Settles O25: a write to a frame is one write for each byte. -/
theorem frameWriteReadsBack : Obligations.FrameWriteReadsBack :=
  fun m _ key _ bs htier hother k => memByte_memWrite bs m htier hother key k

/-! The scratchpad (R135, R157, R481). -/

/-- The tile after one byte of a scratchpad write. -/
def spadPut (x : Tile) (a : Nat) (b : Byte) : Tile :=
  { x with spad := smSet 0 x.spad (a % spadSize) (mixByte x a b)
           badPar := smErase x.badPar (a % spadSize / 64)
           loose := if isLoose x a then { x.loose with count := x.loose.count + 1 } else x.loose }

theorem spadWrite_cons (x : Tile) (a : Nat) (b : Byte) (bs : List Byte) : spadWrite x a (b :: bs) = spadWrite (spadPut x a b) (a + 1) bs := rfl

theorem spadPut_slots (x : Tile) (a : Nat) (b : Byte) : (spadPut x a b).loose.slots = x.loose.slots := by
  show (if isLoose x a then { x.loose with count := x.loose.count + 1 } else x.loose).slots = _
  split <;> rfl

theorem isLoose_of_not_mem {x : Tile} {a : Nat} (ha : a < spadSize) (h : a / 4096 ∉ x.loose.slots) : isLoose x a = false := by
  simp [isLoose, Nat.mod_eq_of_lt ha, h]

/-- A byte written to an address reads back where its slot is not loose. -/
theorem smGet_spadPut {x : Tile} {a k : Nat} (b : Byte) (ha : a < spadSize) :
    smGet 0 (spadPut x a b).spad k = if a = k then mixByte x a b else smGet 0 x.spad k := by
  rw [spadPut, Nat.mod_eq_of_lt ha]
  exact smGet_smSet ..

/-- R481: a byte that is written holds the new value or what it held. -/
theorem mixByte_cases {x : Tile} {a : Nat} (b : Byte) (ha : a < spadSize) : mixByte x a b = smGet 0 x.spad a ∨ mixByte x a b = b := by
  unfold mixByte
  rw [Nat.mod_eq_of_lt ha]
  split
  · exact .inl rfl
  · exact .inr rfl

theorem mixByte_of_not_loose {x : Tile} {a : Nat} (b : Byte) (h : isLoose x a = false) : mixByte x a b = b := by
  simp [mixByte, h]

/-- A byte of a slot that is not loose reads back what was written to it. -/
theorem smGet_spadWrite (bs : List Byte) {x : Tile} {a k : Nat} (hfit : a + bs.length ≤ spadSize) (hslot : k / 4096 ∉ x.loose.slots) :
    smGet 0 (spadWrite x a bs).spad k = if a ≤ k ∧ k < a + bs.length then bs.getD (k - a) 0 else smGet 0 x.spad k := by
  induction bs generalizing x a with
  | nil => rw [spadWrite, if_neg (by simp)]
  | cons b bs ih =>
    simp only [List.length_cons] at hfit ⊢
    have ha : a < spadSize := by omega
    rw [spadWrite_cons, ih (by omega) (by rw [spadPut_slots]; exact hslot), smGet_spadPut b ha]
    by_cases hfirst : a = k
    · subst hfirst
      rw [if_neg (by omega), if_pos rfl, if_pos (by omega), mixByte_of_not_loose b (isLoose_of_not_mem ha hslot)]
      simp
    · rw [if_neg hfirst]
      by_cases hrest : a + 1 ≤ k ∧ k < a + 1 + bs.length
      · have hindex : k - a = (k - (a + 1)) + 1 := by omega
        rw [if_pos hrest, if_pos (by omega), hindex, List.getD_cons_succ]
      · rw [if_neg hrest, if_neg (by omega)]

/-- Any byte keeps what it held or holds what was written to it. -/
theorem smGet_spadWrite_cases (bs : List Byte) {x : Tile} {a : Nat} (hfit : a + bs.length ≤ spadSize) (k : Nat) :
    smGet 0 (spadWrite x a bs).spad k = smGet 0 x.spad k ∨
      a ≤ k ∧ k < a + bs.length ∧ smGet 0 (spadWrite x a bs).spad k = bs.getD (k - a) 0 := by
  induction bs generalizing x a with
  | nil => exact .inl rfl
  | cons b bs ih =>
    simp only [List.length_cons] at hfit ⊢
    have ha : a < spadSize := by omega
    rw [spadWrite_cons]
    obtain hkept | ⟨hlo, hhi, hnew⟩ := ih (x := spadPut x a b) (a := a + 1) (by omega)
    · rw [hkept, smGet_spadPut b ha]
      by_cases hfirst : a = k
      · subst hfirst
        rw [if_pos rfl]
        obtain hold | hnew := mixByte_cases (x := x) b ha
        · exact .inl hold
        · exact .inr ⟨Nat.le_refl _, by omega, by simpa using hnew⟩
      · exact .inl (if_neg hfirst)
    · have hindex : k - a = (k - (a + 1)) + 1 := by omega
      exact .inr ⟨by omega, by omega, by rw [hnew, hindex, List.getD_cons_succ]⟩

/-- A write never marks a word's parity bad. -/
theorem badPar_spadWrite_of_good (bs : List Byte) {x : Tile} {a j : Nat} (h : smGet 0 x.badPar j = 0) :
    smGet 0 (spadWrite x a bs).badPar j = 0 := by
  induction bs generalizing x a with
  | nil => exact h
  | cons b bs ih =>
    rw [spadWrite_cons]
    refine ih ?_
    show smGet 0 (smErase x.badPar (a % spadSize / 64)) j = 0
    rw [smGet_smErase, h, ite_self]

/-- R157: a word that a byte is written to has good parity. -/
theorem badPar_spadWrite (bs : List Byte) {x : Tile} {a k : Nat} (hfit : a + bs.length ≤ spadSize) (hlo : a ≤ k) (hhi : k < a + bs.length) :
    smGet 0 (spadWrite x a bs).badPar (k / 64) = 0 := by
  induction bs generalizing x a with
  | nil => exact absurd hhi (by simpa using hlo)
  | cons b bs ih =>
    simp only [List.length_cons] at hfit hhi
    rw [spadWrite_cons]
    by_cases hfirst : a = k
    · subst hfirst
      refine badPar_spadWrite_of_good bs ?_
      show smGet 0 (smErase x.badPar (a % spadSize / 64)) (a / 64) = 0
      rw [smGet_smErase, Nat.mod_eq_of_lt (by omega), if_pos rfl]
    · exact ih (by omega) (by omega) (by omega)

/-- Settles O26: a write that does not wrap is one write for each byte, each with the byte's choice in a loose slot and fresh parity. -/
theorem scratchpadWriteReadsBack : Obligations.ScratchpadWriteReadsBack := by
  intro x a k bs hfit _
  exact ⟨smGet_spadWrite bs hfit, smGet_spadWrite_cases bs hfit k, badPar_spadWrite bs hfit⟩

end Sys2Proof.Machine
end

section
/-! SUPPORT. The mailbox commands (O36 to O40, R456): a command is a chain of checks before an effect. A check that does not fail passes to the
next; whatever ends the chain with another status than OK left the state as it was. -/

namespace Sys2Proof.Machine

/-- R456: an answer of another status than OK carries the state as it was and no results. -/
def RefusesCleanly (s : State) (k : CmdOut) : Prop := k.status ≠ 0 → k.st = s ∧ k.res = []

namespace RefusesCleanly

theorem done {s t : State} {res : List Byte} : RefusesCleanly s (cmdDone t res) := fun h => absurd rfl h

theorem refuse {s : State} {st : Nat} : RefusesCleanly s (cmdRefuse s st) := fun _ => ⟨rfl, rfl⟩

theorem check {s : State} {bad : Bool} {st : Nat} {k : CmdOut} (hk : RefusesCleanly s k) : RefusesCleanly s (cmdCheck s bad st k) := by
  cases bad
  · exact hk
  · exact refuse

theorem admitted {s : State} {start : Bool} {k : CmdOut} (hk : RefusesCleanly s k) : RefusesCleanly s (cmdAdmit s start k) := hk.check.check

theorem ctx {s : State} {p c : Nat} {k : CmdOut} (hk : RefusesCleanly s k) : RefusesCleanly s (cmdCtx s p c k) := hk.check.check.check.admitted

theorem run {s : State} {k : CmdOut} (hk : RefusesCleanly s k) (hup : kilnUp s = true) (hst : (cmdRun s k).kiln.respSt ≠ 0) :
    cmdRun s k = { s with kiln := { s.kiln with resp := [], respSt := (cmdRun s k).kiln.respSt } } := by
  rw [cmdRun_of_kilnUp hup] at hst ⊢
  obtain ⟨hs, hres⟩ := hk hst
  rw [hs, hres]

end RefusesCleanly

open RefusesCleanly in
theorem refusesCleanly_bar2Window {s : State} {p page : Nat} : RefusesCleanly s (cmdBar2Window s p page) := by
  refine admitted ?_
  split
  · exact done
  · exact done.check.check

open RefusesCleanly in
theorem refusesCleanly_ctxCreate {s : State} {p : Nat} {a : CtxArgs} : RefusesCleanly s (cmdCtxCreate s p a) := by
  refine admitted (check (check (check (check (check ?_)))))
  cases freeCtx s with
  | none => exact refuse
  | some c => exact done

open RefusesCleanly in
/-- Every mailbox command is a chain of checks before one effect. -/
theorem exec_mailbox {i : Instr} (s : State) (h : Sys2Proof.isMailbox i = true) :
    ∃ k, exec i s = .next (cmdRun s k) ∧ RefusesCleanly s k := by
  unfold Sys2Proof.isMailbox at h
  split at h
  · exact ⟨cmdInfo s, rfl, done.admitted⟩
  · next utc => exact ⟨cmdTimeSet s utc.toNat, rfl, done.admitted⟩
  · exact ⟨cmdRestart s, rfl, done.admitted⟩
  · exact ⟨cmdFullStart s, rfl, done.admitted⟩
  · next kind off => exact ⟨cmdDefectRead s kind.toNat off.toNat, rfl, done.check.admitted⟩
  · next t w => exact ⟨cmdActivate s t w.toNat, rfl, done.check.check.admitted⟩
  · exact ⟨cmdActivateCancel s, rfl, done.admitted⟩
  · next p a => exact ⟨cmdAttach s p.val a, rfl, done.check.check.check.admitted⟩
  · next p => exact ⟨cmdDetach s p.val, rfl, done.check.admitted⟩
  · next p page => exact ⟨cmdBar2Window s p.val page.toNat, rfl, refusesCleanly_bar2Window⟩
  · next mask => exact ⟨cmdTraceConfig s mask, rfl, done.admitted⟩
  · next p n m mode gang =>
      exact ⟨cmdPartConfig s p.val n.toNat m.toNat mode.toNat gang.toNat, rfl, done.check.check.check.check.check.admitted⟩
  · next p n => exact ⟨cmdPartPowerOn s p.val n.toNat, rfl, done.check.check.check.admitted⟩
  · next p n => exact ⟨cmdPartPowerOff s p.val n.toNat, rfl, done.check.check.check.check.admitted⟩
  · next p cap n mode stp =>
      exact ⟨cmdPowerPolicy s p.val cap.toNat n.toNat mode.toNat stp.toNat, rfl, done.check.check.check.admitted⟩
  · next p t => exact ⟨cmdResetPart s p.val 1 t.toNat false, rfl, done.check.check.check.check.check.admitted⟩
  · next p t => exact ⟨cmdResetPart s p.val 2 t.toNat false, rfl, done.check.check.check.check.check.admitted⟩
  · next p t => exact ⟨cmdResetPart s p.val 3 t.toNat false, rfl, done.check.check.check.check.check.admitted⟩
  · next p t => exact ⟨cmdResetAll s p.val 4 t.toNat, rfl, done.check.check.check.check.admitted⟩
  · next p t => exact ⟨cmdResetAll s p.val 5 t.toNat, rfl, done.check.check.check.check.admitted⟩
  · next p a => exact ⟨cmdCtxCreate s p.val a, rfl, refusesCleanly_ctxCreate⟩
  · next p c => exact ⟨cmdCtxPause s p.val c.toNat, rfl, done.ctx⟩
  · next p c => exact ⟨cmdCtxResume s p.val c.toNat, rfl, done.check.ctx⟩
  · next p c => exact ⟨cmdCtxDestroy s p.val c.toNat, rfl, done.ctx⟩
  · next p c a => exact ⟨cmdCtxRestore s p.val c.toNat a, rfl, done.check.ctx⟩
  · next p first count part tier writable =>
      exact ⟨cmdTmapMap s p.val first.toNat count.toNat part.toNat tier.toNat writable.toNat, rfl,
        done.check.check.check.check.check.check.check.admitted⟩
  · next p first count => exact ⟨cmdTmapUnmap s p.val first.toNat count.toNat, rfl, done.check.check.check.check.admitted⟩
  · next p first count => exact ⟨cmdTmapRead s p.val first.toNat count.toNat, rfl, done.check.check.admitted⟩
  · next a => exact ⟨cmdFabricAssign s a, rfl, done.check.check.check.admitted⟩
  · next l => exact ⟨cmdLinkDisable s l.toNat, rfl, done.check.admitted⟩
  · next l => exact ⟨cmdLinkEnable s l.toNat, rfl, done.check.admitted⟩
  · next b => exact ⟨cmdBladeRelease s b.toNat, rfl, done.check.admitted⟩
  · next c m => exact ⟨cmdFailureRate s c.toNat m.toNat, rfl, done.check.check.admitted⟩
  · next p k ent => exact ⟨cmdCordSetup s p.val k.toNat ent, rfl, done.check.check.check.check.admitted.check⟩
  · next p k => exact ⟨cmdCordRead s p.val k.toNat, rfl, done.check.check.check.admitted⟩
  · next p a => exact ⟨cmdRankReplace s p.val a, rfl, done.check.check.check.check.admitted⟩
  · next p a => exact ⟨cmdEmberSetup s p.val a, rfl, done.check.check.check.check.check.admitted⟩
  · next p a => exact ⟨cmdDigestSetup s p.val a, rfl, done.check.check.check.check.admitted⟩
  · next p c page => exact ⟨cmdRefillDone s p.val c.toNat page.toNat, rfl, done.check.check.check.admitted⟩
  · next p c => exact ⟨cmdForceCopy s p.val c.toNat, rfl, done.ctx⟩
  · next p a => exact ⟨cmdLockstepStart s p.val a, rfl, done.check.check.check.admitted⟩
  · exact ⟨cmdLockstepStop s, rfl, done.admitted⟩
  · cases h

/-- Settles O36: every mailbox command is a chain of checks before one effect, and only the effect changes the state. -/
theorem refusedCommandsChangeNothing : Obligations.RefusedCommandsChangeNothing := by
  intro i s t hi hup ht hst
  obtain ⟨k, hexec, hk⟩ := exec_mailbox s hi
  obtain rfl : cmdRun s k = t := Host.Outcome.next.inj (hexec.symm.trans ht)
  exact hk.run hup hst

end Sys2Proof.Machine
end

section
/-! SUPPORT. A mailbox command whose every check passes answers OK with its effect (O37 to O40, R456, R457). -/

namespace Sys2Proof.Machine

theorem cmdCheck_of_passes {s : State} {bad : Bool} (h : bad = false) (st : Nat) (k : CmdOut) : cmdCheck s bad st k = k := by
  rw [h]
  rfl

/-- R372, R396, R456: at Stage 8, and not busy, Kiln admits a command of either class. -/
theorem cmdAdmit_of_takesAny {s : State} (h : takesAny s) (start : Bool) (k : CmdOut) : cmdAdmit s start k = k := by
  obtain ⟨⟨-, hfree⟩, hready⟩ := h
  simp [cmdAdmit, cmdCheck, Nat.not_lt.mpr hfree, hready]

/-- A command that comes to its effect answers OK. -/
theorem answers {s t : State} {k : CmdOut} {res : List Byte} (hup : kilnUp s = true) (hk : k = cmdDone t res) :
    (.next (cmdRun s k) : Host.Outcome State Fault Refusal) = .next (answered t res) := by
  rw [hk, cmdRun_of_kilnUp hup]
  rfl

theorem cmdPartPowerOn_eq {s : State} {p n : Nat} (h : takesAny s) (hn : n < 8) (hon : (partOf s n).on = true) (hp : (partOf s n).port = p)
    (htask : partTask s n = false) :
    cmdPartPowerOn s p n = cmdDone (if (partOf s n).powered then partPowered (setPart s n { partOf s n with draining := false }) n 0
      else if (partOf s n).powering then s
      else if cannotPower s n then partPowered s n 0x0B
      else startPart s n) [] := by
  simp [cmdPartPowerOn, cmdAdmit_of_takesAny h, cmdCheck, foreignPart, noPart, hn, hon, hp, htask]

theorem cmdPartPowerOff_eq {s : State} {p n : Nat} (h : takesAny s) (hn : n < 8) (hon : (partOf s n).on = true) (hp : (partOf s n).port = p)
    (htask : partTask s n = false) (hidle : idleForPower s n = true) :
    cmdPartPowerOff s p n = cmdDone (if (partOf s n).powered then setPart s n { partOf s n with draining := true }
      else if (partOf s n).powering then partPowered (partOff s n) n 0
      else partPowered s n 0) [] := by
  simp [cmdPartPowerOff, cmdAdmit_of_takesAny h, cmdCheck, foreignPart, noPart, hn, hon, hp, htask, hidle]

/-- R456: what a command that names a context of its own port, on which no task works, comes to. -/
theorem cmdCtx_of_owned {s : State} {p c : Nat} (h : takesAny s) (hlive : ctxLive s c = true) (hp : (ctxOf s c).port = p)
    (htask : ctxTask s c = false) (k : CmdOut) : cmdCtx s p c k = k := by
  simp [cmdCtx, cmdAdmit_of_takesAny h, cmdCheck, foreignCtx, hlive, hp, htask]

theorem partDrained_of_drained {s : State} {n : Nat} (hon : (partOf s n).on = true) (hdrain : (partOf s n).draining = true)
    (hempty : queuesEmpty s n = true) :
    partDrained s n = if (partOf s n).powered then partPowered (partOff s n) n 0 else partOff s n := by
  simp [partDrained, hon, hdrain, hempty]

/-- Settles O37: the checks of each command pass by its hypotheses, and what is left is its effect. -/
theorem moduleAndPartitionCommandsComplete : Obligations.ModuleAndPartitionCommandsComplete := by
  intro s port
  refine ⟨fun h => ?_, fun h => ?_, fun n hstat hon hdrain hempty => ?_⟩
  · obtain ⟨hup, hfree⟩ := h
    have start (k : CmdOut) : cmdAdmit s true k = k := cmdAdmit_start hfree k
    refine ⟨answers hup (start _), fun utc => answers hup (start _), answers hup (start _), answers hup (start _), fun kind off hk ho => ?_,
      fun t window hlo hhi hstaged => ?_, fun hact => ?_⟩
    · exact answers hup (by simp [cmdDefectRead, start, cmdCheck, Nat.not_lt.mpr hk, Nat.not_le.mpr ho])
    · exact answers hup (by simp [cmdActivate, start, cmdCheck, Nat.not_lt.mpr hlo, Nat.not_lt.mpr hhi, hstaged])
    · exact answers hup (by simp [cmdActivateCancel, start, hact])
  · have hup : kilnUp s = true := h.1.1
    have admitted (k : CmdOut) : cmdAdmit s false k = k := cmdAdmit_of_takesAny h false k
    refine ⟨?_, fun hnone => ?_, ?_, fun page hpage hforeign => ?_, fun mask => answers hup (admitted _), ?_, ?_, ?_⟩
    · intro a x r hev hlog htrace hhost rev rlog rtrace
      have hother : (x.st != 0 && x.hostId != a.hostId) = false := by
        rcases hhost with hst | hid
        · simp [hst]
        · simp [hid]
      exact answers hup (by simp only [cmdAttach, admitted]; simp [cmdCheck, hev, hlog, htrace, rev, rlog, rtrace, hother, x, r] at hother ⊢)
    · exact answers hup (by simp [cmdDetach, admitted, cmdCheck, hnone])
    · exact answers hup (by simp [cmdBar2Window, admitted])
    · have hset : page.toNat ≠ 0xFFFFFFFF := by omega
      have hin : decide (2 ^ 24 ≤ page.toNat) = false := decide_eq_false (Nat.not_le.mpr hpage)
      exact answers hup (by simp only [cmdBar2Window, admitted, cmdCheck, if_neg hset, hforeign, hin]; rfl)
    · intro n m mode gang htask hforeign hn hmode hgang hidle htaken
      have hbusy : ((partOf s n.toNat).on && !(partCtxs s n.toNat).isEmpty) = false := by
        cases hon : (partOf s n.toNat).on
        · rfl
        · simp [hidle hon]
      refine ⟨fun hm hrect hgangs => answers hup ?_, fun hm hon => answers hup ?_⟩
      · have hm' : m.toNat ≠ 0 := fun h0 => hm (BitVec.eq_of_toNat_eq h0)
        have hshape : (m.toNat != 0 && (!isRect m.toNat || (mode.toNat == 1 && !gangsOk gang.toNat m.toNat))) = false := by
          by_cases h1 : mode = 1
          · simp [hrect, hgangs h1]
          · have h1' : mode.toNat ≠ 1 := fun e => h1 (BitVec.eq_of_toNat_eq e)
            simp [hrect, h1']
        simp only [cmdPartConfig, admitted, cmdCheck, htask, hforeign, hbusy, htaken, hshape]
        simp [Nat.not_le.mpr hn, Nat.not_lt.mpr hmode, Nat.not_lt.mpr hgang, hm']
      · simp only [cmdPartConfig, admitted, cmdCheck, htask, hforeign, hbusy, htaken]
        simp [Nat.not_le.mpr hn, Nat.not_lt.mpr hmode, Nat.not_lt.mpr hgang, hm, hon]
    · intro n hn hon hp htask q
      have eqOn := cmdPartPowerOn_eq h hn hon hp htask
      have eqOff := cmdPartPowerOff_eq h hn hon hp htask
      simp only [q]
      refine ⟨fun h1 h2 h3 => ?_, fun h1 => ?_, fun h1 h2 h3 => ?_, fun h1 hidle => ?_, fun h1 h2 hidle => ?_, fun h1 h2 hidle => ?_⟩
      · exact answers hup (eqOn.trans (by simp [h1, h2, h3]))
      · exact answers hup (eqOn.trans (by simp [h1]))
      · exact answers hup (eqOn.trans (by simp [h1, h2, h3]))
      · exact answers hup ((eqOff hidle).trans (by simp [h1]))
      · exact answers hup ((eqOff hidle).trans (by simp [h1, h2]))
      · exact answers hup ((eqOff hidle).trans (by simp [h1, h2]))
    · intro cap n mode stp howned hgood s1
      have hfree : (n.toNat != 0xFF && partTask s n.toNat) = false ∧ (n.toNat != 0xFF && foreignPart s port.val n.toNat) = false := by
        by_cases hn : n.toNat = 0xFF
        · simp [hn]
        · simp [howned hn]
      exact answers hup (by simp only [cmdPowerPolicy, admitted, cmdCheck, hfree, hgood]; rfl)
  · have hexec : exec (.partitionOffDrained n) s = .next (partDrained s n.val) := by
      rw [exec_partitionOffDrained, execPartitionOffDrained, whileKiln, if_neg hstat]
    rw [hexec, partDrained_of_drained hon hdrain hempty]
    exact ⟨fun hp => by rw [if_pos hp], fun hp => by rw [hp]; rfl⟩

end Sys2Proof.Machine
end

section
/-! SUPPORT. The commands about contexts, the Tier Map, the fabric and the resets (O38, O39, O40). -/

namespace Sys2Proof.Machine

/-- Settles O38: the checks of each command pass by its hypotheses, and what is left is its effect. -/
theorem contextAndMapCommandsComplete : Obligations.ContextAndMapCommandsComplete := by
  intro s port h
  have hup : kilnUp s = true := h.1.1
  have admitted (k : CmdOut) : cmdAdmit s false k = k := cmdAdmit_of_takesAny h false k
  refine ⟨?_, ?_, ?_, ?_, ?_, ?_⟩
  · intro a c htask hforeign hcord hgood hsub hcpl hpin hfree
    have hcordFree : (a.cord != 0xFFFF && cordTask s a.cord.toNat) = false ∧ (a.cord != 0xFFFF && foreignCord s port.val a.cord.toNat) = false := by
      by_cases hnone : a.cord = 0xFFFF
      · simp [hnone]
      · simp [hcord hnone]
    exact answers hup (by simp only [cmdCtxCreate, admitted, cmdCheck, htask, hforeign, hcordFree, hgood, hsub, hcpl, hpin, hfree]; rfl)
  · intro c hlive hport htask x
    have pass (k : CmdOut) : cmdCtx s port.val c.toNat k = k := cmdCtx_of_owned h hlive hport htask k
    refine ⟨answers hup (pass _), fun hstable => ?_, fun hrun hst => ?_, fun hrun => ?_, fun a hst => ?_, fun page hpage hforeign => ?_,
      answers hup (pass _)⟩
    · exact answers hup (by simp [cmdCtxResume, pass, cmdCheck, hstable])
    · have hstep : ((ctxOf s c.toNat).run.isSome && (ctxOf s c.toNat).st != .paused) = true := by
        rw [Option.isSome_iff_ne_none.mpr hrun]
        exact bne_iff_ne.mpr hst
      exact answers hup (by simp only [cmdCtxDestroy, pass, hstep]; rfl)
    · have hstep : ((ctxOf s c.toNat).run.isSome && (ctxOf s c.toNat).st != .paused) = false := by
        rw [show (ctxOf s c.toNat).run = none from hrun]
        rfl
      exact answers hup (by simp only [cmdCtxDestroy, pass, hstep]; rfl)
    · have hpaused : ((ctxOf s c.toNat).st != .paused) = false := by rw [show (ctxOf s c.toNat).st = .paused from hst]; rfl
      refine ⟨fun hstep hmb => answers hup ?_, fun hne => answers hup ?_⟩
      · simp only [cmdCtxRestore, pass, cmdCheck_of_passes hpaused]
        rw [if_pos ⟨hstep, hmb⟩]
      · simp only [cmdCtxRestore, pass, cmdCheck_of_passes hpaused]
        rw [if_neg hne]
    · have hin : decide (2 ^ 24 ≤ page.toNat) = false := decide_eq_false (Nat.not_le.mpr hpage)
      have hown : foreignCtx s port.val c.toNat = false := by simp [foreignCtx, hport]
      exact answers hup (by simp only [cmdRefillDone, admitted, cmdCheck, htask, hown, hforeign, hlive, hin]; rfl)
  · intro c m hlive htask
    exact answers hup (by simp only [cmdFailureRate, admitted, cmdCheck, htask, hlive]; rfl)
  · intro first count part tier writable htask hforeign hpart htier hddr hwr hfit hnone hroom
    have hpages : foreignPages s port.val first.toNat count.toNat = false := by rw [foreignPages, hnone]; rfl
    have hbad : (noPart s part.toNat || decide (1 < tier.toNat) || decide (1 < writable.toNat) || decide (2 ^ 24 < first.toNat + count.toNat))
        = false := by
      rw [hpart, decide_eq_false (Nat.not_lt.mpr htier), decide_eq_false (Nat.not_lt.mpr hwr), decide_eq_false (Nat.not_lt.mpr hfit)]
      rfl
    have hfitted : (tier.toNat == 1 && !ddrFitted s) = false := by
      by_cases h1 : tier.toNat = 1
      · rw [hddr h1]; simp
      · simp [h1]
    have hframes : decide (freeFrames s.mem tier.toNat (ddrFitted s) < count.toNat) = false := decide_eq_false (Nat.not_lt.mpr hroom)
    exact answers hup (by simp only [cmdTmapMap, admitted, cmdCheck, htask, hforeign, hpages, hbad, hfitted, hnone, hframes]; rfl)
  · intro first count hfit hown hrings
    have hforeign : foreignPages s port.val first.toNat count.toNat = false :=
      List.any_eq_false.mpr (fun e he => by simp [(hown e he).2])
    have hhere : decide (2 ^ 24 < first.toNat + count.toNat) = false := decide_eq_false (Nat.not_lt.mpr hfit)
    have hparts : (mappedIn s first.toNat count.toNat).any (fun e => !(ownedParts s port.val).contains (tePart e.2)) = false :=
      List.any_eq_false.mpr (fun e he => by simp [(hown e he).1])
    have hring : (allRingPages s).any (fun n => decide (first.toNat ≤ n) && decide (n < first.toNat + count.toNat)) = false :=
      List.any_eq_false.mpr (fun n hn => by simpa using hrings n hn)
    exact answers hup (by simp only [cmdTmapUnmap, admitted, cmdCheck, hforeign, hhere, hparts, hring]; rfl)
  · intro first count hlo hhi hfit hforeign
    have hbad : (decide (count.toNat < 1) || decide (56 < count.toNat) || decide (2 ^ 24 < first.toNat + count.toNat)) = false := by
      rw [decide_eq_false (Nat.not_lt.mpr hlo), decide_eq_false (Nat.not_lt.mpr hhi), decide_eq_false (Nat.not_lt.mpr hfit)]
      rfl
    exact answers hup (by simp only [cmdTmapRead, admitted, cmdCheck, hforeign, hbad]; rfl)

theorem linkDisable_answers {s : State} (h : takesAny s) (port : Fin 2) {l : Byte} (hl : l.toNat < 96) :
    exec (.linkDisable port l) s = .next (answered (linkStep s l.toNat disableLink) []) :=
  answers h.1.1 (by simp [cmdLinkDisable, cmdAdmit_of_takesAny h, cmdCheck, Nat.not_le.mpr hl])

theorem linkEnable_answers {s : State} (h : takesAny s) (port : Fin 2) {l : Byte} (hl : l.toNat < 96) :
    exec (.linkEnable port l) s = .next (answered (linkStep s l.toNat (fun p => enableLink p s.clock (linkLit s.lk l.toNat))) []) :=
  answers h.1.1 (by simp [cmdLinkEnable, cmdAdmit_of_takesAny h, cmdCheck, Nat.not_le.mpr hl])

/-- Settles O39: the checks of each command pass by its hypotheses, and what is left is its effect. -/
theorem fabricCommandsComplete : Obligations.FabricCommandsComplete := by
  intro s port h
  have hup : kilnUp s = true := h.1.1
  have admitted (k : CmdOut) : cmdAdmit s false k = k := cmdAdmit_of_takesAny h false k
  refine ⟨fun a hgood hidle hmap => ?_, fun l hl => ⟨linkDisable_answers h port hl, linkEnable_answers h port hl⟩, fun b hb => ?_,
    ?_, fun k hk htask hforeign => ?_, fun a hlive htask hforeign hcords hlen hok => ?_,
    fun a hoff hstr hforeign => ?_, ?_,
    fun a hstr hen hforeign hon => ?_, ?_, answers hup (admitted _)⟩
  · have hsched : (liveCtxs s).any (isScheduled s) = false :=
      List.any_eq_false.mpr (fun c hc => by simp [isScheduled, hidle c hc])
    have hmapped : (a.explicit != 0 && !mapOk a.addr (a.sxm.toNat + 1) (a.sym.toNat + 1) (a.szm.toNat + 1) (assignEntry a.map.toNat))
        = false := by
      by_cases h0 : a.explicit = 0
      · simp [h0]
      · simp [hmap h0]
    exact answers hup (by simp only [cmdFabricAssign, admitted, cmdCheck_of_passes hgood, cmdCheck_of_passes hsched, cmdCheck_of_passes hmapped])
  · exact answers hup (by simp [cmdBladeRelease, admitted, cmdCheck, Nat.not_le.mpr hb])
  · intro k ent c hlo hhi hk htask hforeign hvalid
    have hreserved : (bits ent.toNat 184 4 != 0 || bits ent.toNat 0 128 != 0) = false := by simp [hlo, hhi]
    have hbusy : (cordTask s k.toNat || (c.valid && partTask s c.part)) = false := by
      cases hv : c.valid
      · simp [htask]
      · simp [htask, (hvalid hv).1]
    have hown : (foreignCord s port.val k.toNat || (c.valid && foreignPart s port.val c.part)) = false := by
      cases hv : c.valid
      · simp [hforeign]
      · simp [hforeign, (hvalid hv).2.1]
    have hrange : (decide (4096 ≤ k.toNat) || (c.valid && (noPart s c.part || c.btiles == 0 || decide (2048 < c.btiles)
        || decide (hbmFrames ≤ c.mframe)))) = false := by
      rw [decide_eq_false (Nat.not_le.mpr hk)]
      cases hv : c.valid
      · rfl
      · obtain ⟨-, -, hp, hb1, hb2, hf, -⟩ := hvalid hv
        simp [hp, Nat.not_lt.mpr hb2, Nat.not_le.mpr hf, Nat.ne_of_gt hb1]
    have hshape : (c.valid && !cordSetupOk s.fab s.mem c (partSize s c.part)) = false := by
      cases hv : c.valid
      · rfl
      · obtain ⟨-, -, -, -, -, -, hset⟩ := hvalid hv
        simp [hset]
    have hcmd : cmdCordSetup s port.val k.toNat ent
        = cmdDone (if cordBusy s k.toNat then { s with kiln := { s.kiln with cordWait := s.kiln.cordWait ++ [(k.toNat, c)] } }
            else writeCord s k.toNat c) [] := by
      simp only [cmdCordSetup, admitted, cmdCheck_of_passes hreserved, c] at hbusy hown hrange hshape ⊢
      simp only [cmdCheck_of_passes hbusy, cmdCheck_of_passes hown, cmdCheck_of_passes hrange, cmdCheck_of_passes hshape]
    exact ⟨fun hfree => answers hup (by rw [hcmd, hfree]; rfl), fun hwait => answers hup (by rw [hcmd, hwait]; rfl)⟩
  · exact answers hup (by simp [cmdCordRead, admitted, cmdCheck, htask, hforeign, Nat.not_le.mpr hk])
  · have htasks : a.cords.any (fun k => cordTask s k.toNat) = false := List.any_eq_false.mpr (fun k hk => by simp [(hcords k hk).1])
    have howned : a.cords.any (fun k => foreignCord s port.val k.toNat) = false := List.any_eq_false.mpr (fun k hk => by simp [(hcords k hk).2.1])
    have hrange : a.cords.any (fun k => decide (4096 ≤ k.toNat)) = false :=
      List.any_eq_false.mpr (fun k hk => by simp [Nat.not_le.mpr (hcords k hk).2.2])
    exact answers hup (by simp [cmdRankReplace, admitted, cmdCheck, htask, htasks, hforeign, howned, hlive, hrange, Nat.not_lt.mpr hlen, hok])
  · have hargs : emberArgsBad s a = false := by simp [emberArgsBad, hoff, Nat.not_le.mpr hstr]
    exact answers hup (by simp [cmdEmberSetup, admitted, cmdCheck, hoff, hforeign, hargs])
  · intro a c pages hon htask hgood hvalid hember hstr hcord hbuf0 hbuf1 hin0 hin1
    simp only [c, pages] at hvalid hember hbuf0 hbuf1 hin0 hin1
    exact answers hup (by
      simp [cmdEmberSetup, admitted, cmdCheck, hon, htask, hgood, hvalid, hember, hstr, hcord, hbuf0, hbuf1, hin0, hin1])
  · have hcord : ((a.enable == 1) && cordTask s a.vcord.toNat) = false ∧ ((a.enable == 1) && foreignCord s port.val a.vcord.toNat) = false
        ∧ ((a.enable == 1) && (decide (4096 ≤ a.vcord.toNat) || a.every == 0)) = false
        ∧ ((a.enable == 1) && !voteShape (cordOf s.fab a.vcord.toNat)) = false := by
      by_cases h1 : a.enable = 1
      · obtain ⟨htask, hcord, hv, hevery, hvote⟩ := hon h1
        rw [htask, hcord, hvote, decide_eq_false (Nat.not_le.mpr hv), beq_eq_false_iff_ne.mpr hevery]
        simp
      · rw [beq_eq_false_iff_ne.mpr h1]
        simp
    obtain ⟨htask, hown, hargs, hvote⟩ := hcord
    exact answers hup (by
      simp only [cmdDigestSetup, admitted, cmdCheck, htask, hown, hargs, hvote, hforeign, decide_eq_false (Nat.not_le.mpr hstr),
        decide_eq_false (Nat.not_lt.mpr hen)]
      rfl)
  · intro a htask hforeign hpart hlink hlog y mine
    have hrange : (noPart s a.part.toNat || decide (96 ≤ a.link.toNat) || decide (12 < a.logsz.toNat)) = false := by
      rw [hpart, decide_eq_false (Nat.not_le.mpr hlink), decide_eq_false (Nat.not_lt.mpr hlog)]
      rfl
    have hmine : ownSide s a.part.toNat = mine := rfl
    have hcmd : cmdLockstepStart s port.val a = cmdDone (if a.theirs != mine || mapRole (mapOf s.fab a.link.toNat) != 0 then lockRefused s port.val
        else { s with kiln := { s.kiln with ls := { s.kiln.ls with
          want := some ⟨a.part.toNat, a.link.toNat, a.logsz.toNat, port.val, a.partner, a.key⟩ } } }) [] := by
      simp only [cmdLockstepStart, admitted, cmdCheck_of_passes htask, cmdCheck_of_passes hforeign, cmdCheck_of_passes hrange, hmine]
    refine ⟨fun heq hrole => answers hup ?_, fun hbad => answers hup ?_⟩
    · rw [hcmd, heq, hrole]
      simp
    · have hrefuse : (a.theirs != mine || mapRole (mapOf s.fab a.link.toNat) != 0) = true := by simpa using hbad
      rw [hcmd, hrefuse]
      rfl

theorem cmdResetPart_of_allowed {s : State} {p level target n : Nat} (h : takesAny s) (htask : (level == 3 && partTask s target) = false)
    (htarget : targetPart s level target = some n) (hforeign : foreignPart s p n = false) (hover : resetOverlaps s level target = false)
    (hheld : resetHeld s level target = false) (selftest : Bool) :
    cmdResetPart s p level target selftest = cmdDone (openReset s level target selftest p) [] := by
  simp [cmdResetPart, cmdAdmit_of_takesAny h, cmdCheck, htask, htarget, hforeign, hover, hheld]

theorem cmdResetAll_of_allowed {s : State} {p level selftest : Nat} (h : takesAny s) (hflag : selftest ≤ 1) (hmay : mayReset s p level = true)
    (hover : resetOverlaps s level 0 = false) (hheld : resetHeld s level 0 = false) :
    cmdResetAll s p level selftest = cmdDone (openReset s level 0 (selftest == 1) p) [] := by
  simp [cmdResetAll, cmdAdmit_of_takesAny h, cmdCheck, Nat.not_lt.mpr hflag, hmay, hover, hheld]

/-- Settles O40: the checks of an order pass by its hypotheses; the oldest job decides what is applied or cancelled. -/
theorem resetsAreOrderedAndApplied : Obligations.ResetsAreOrderedAndApplied := by
  intro s port
  refine ⟨fun h => ⟨fun target n => ⟨?_, ?_, ?_⟩, fun selftest hflag => ?_⟩, fun j js found hstat hjobs => ?_⟩
  · exact fun htarget hforeign hover hheld => answers h.1.1 (cmdResetPart_of_allowed h rfl htarget hforeign hover hheld false)
  · exact fun htarget hforeign hover hheld => answers h.1.1 (cmdResetPart_of_allowed h rfl htarget hforeign hover hheld false)
  · exact fun htarget htask hforeign hover hheld => answers h.1.1 (cmdResetPart_of_allowed (level := 3) h htask htarget hforeign hover hheld false)
  · have hone : (selftest.toNat == 1) = (selftest == 1) := by simp [BEq.beq, BitVec.toNat_inj.symm]
    rw [← hone]
    exact ⟨fun hmay hover hheld => answers h.1.1 (cmdResetAll_of_allowed h hflag hmay hover hheld),
      fun hmay hover hheld => answers h.1.1 (cmdResetAll_of_allowed h hflag hmay hover hheld)⟩
  · have happly : exec (.resetApply found) s = .next (if !scopeQuiet s j then s else resetEnd (resetEffect s j found) j) := by
      rw [exec_resetApply, execResetApply, whileKiln, if_neg hstat, resetApply, hjobs]
    have hcancel : exec .resetMoverCancel s = .next (if (resetParts s j.level j.target).isEmpty then
        cancelTiles s (fun t => j.tiles.contains t) none else (resetParts s j.level j.target).foldl cancelPart s) := by
      rw [exec_resetMoverCancel, execResetMoverCancel, whileKiln, if_neg hstat, resetCancel, hjobs]
    rw [happly, hcancel]
    refine ⟨fun hq => by rw [hq]; rfl, fun hq => by rw [hq]; rfl, fun hnone => by rw [hnone]; rfl, fun hsome => ?_⟩
    rw [if_neg (by simpa using hsome)]

end Sys2Proof.Machine
end

section
/-! SUPPORT. What reaches a tile from outside (O18, O19, O52): tokens, flits and limits; START and HALT tell the partners; Kiln's control
messages. -/

namespace Sys2Proof.Machine

/-- Settles O18: each event is one update of its tile, by the branches of its definition. -/
theorem tileEventsAct : Obligations.TileEventsAct := by
  intro s t d x n
  refine ⟨fun k ks hwire => ?_, fun hst hcyc hdone => ?_, fun hlong hstall => ?_, ?_⟩
  · refine congrArg (fun z => Host.Outcome.next (setTile s t.val z)) ?_
    have hw : smGet [] (tileOf s t.val).tokWire (dirNum d) = k :: ks := hwire
    simp only [tokenReceive, hw]
    simp only [Bool.not_eq_true]
    rfl
  · refine congrArg (fun z => Host.Outcome.next (setTile s t.val z)) ?_
    have hrun : (tileOf s t.val).st = .run := hst
    rw [cycleLimit, if_pos ⟨hst, hcyc, Bool.eq_false_iff.mp hdone⟩, tileFault, hrun]
    rfl
  · exact congrArg (fun z => Host.Outcome.next (setTile s t.val z)) (if_pos ⟨hlong, Bool.eq_false_iff.mp hstall⟩)
  · intro lg f fs hwire y
    have hw : smGet [] (tileOf s t.val).wire (dirNum d) = f :: fs := hwire
    refine ⟨congrArg (fun z => Host.Outcome.next (setTile s t.val z)) ?_, fun bad hbad =>
      congrArg (fun z => Host.Outcome.next (setTile s t.val z)) ?_⟩
    · simp only [flitReceive, hw]
      rfl
    · have hne : ¬ bad.val % 16 = 0 := fun h0 => hbad (Fin.ext (by have := bad.isLt; simp only [Fin.val_zero]; omega))
      simp only [flitReceive, hw]
      rw [if_neg hne]

/-! Tokens to the partners. -/

/-- A token k that its partner sent in direction d is under way to tile y. -/
def tokenTo (d : Dir) (k : BeatTok) (y : Tile) : Tile :=
  { y with tokWire := smSet [] y.tokWire (dirNum (dirOpp d)) (smGet [] y.tokWire (dirNum (dirOpp d)) ++ [k]) }

/-- Tile t of s sends k in a direction. -/
def tellPartner (s : State) (t : Nat) (k : BeatTok) (x : State) (d : Dir) : State :=
  match partnerOf s t d with
  | some u => updTile x u (tokenTo d k)
  | none => x

theorem neighbour_ne {t u : Nat} {d : Dir} (h : neighbour t d = some u) : u ≠ t := by
  cases d <;> simp only [neighbour, Option.ite_none_left_eq_some, Option.some.injEq, reduceCtorEq] at h <;> omega

theorem neighbour_inj {t u : Nat} {d d' : Dir} (hd : neighbour t d = some u) (hd' : neighbour t d' = some u) : d = d' := by
  cases d <;> cases d' <;> simp only [neighbour, Option.ite_none_left_eq_some, Option.some.injEq, reduceCtorEq] at hd hd' ⊢ <;> omega

theorem neighbour_of_partnerOf {s : State} {t u : Nat} {d : Dir} (h : partnerOf s t d = some u) : neighbour t d = some u := by
  unfold partnerOf at h
  split at h
  · next v hv =>
      split at h
      · rw [hv, h]
      · cases h
  · cases h

theorem mem_partnerDirs {s : State} {t u : Nat} {d : Dir} (h : partnerOf s t d = some u) : d ∈ partnerDirs s t := by
  have hd : d ∈ meshDirs := by
    have hn := neighbour_of_partnerOf h
    cases d
    case x => cases hn
    all_goals decide
  exact List.mem_filter.mpr ⟨hd, by rw [h]; rfl⟩

theorem partnerDirs_nodup (s : State) (t : Nat) : (partnerDirs s t).Nodup := List.Nodup.filter _ (by decide)

theorem tileOf_tellPartner {s : State} {t u : Nat} {d : Dir} (k : BeatTok) (x : State) (h : partnerOf s t d = some u) :
    tileOf (tellPartner s t k x d) u = tokenTo d k (tileOf x u) := by
  simp [tellPartner, h]

theorem tileOf_tellPartner_of_ne {s : State} {t u : Nat} {d : Dir} (k : BeatTok) (x : State) (h : partnerOf s t d ≠ some u) :
    tileOf (tellPartner s t k x d) u = tileOf x u := by
  unfold tellPartner
  split
  · next v hv => rw [tileOf_updTile, if_neg (fun (e : v = u) => h (e ▸ hv))]
  · rfl

theorem tileOf_tellPartners_of_ne {s : State} {t u : Nat} (k : BeatTok) (ds : List Dir) (x : State)
    (h : ∀ d ∈ ds, partnerOf s t d ≠ some u) : tileOf (ds.foldl (tellPartner s t k) x) u = tileOf x u := by
  induction ds generalizing x with
  | nil => rfl
  | cons d ds ih =>
    rw [List.foldl_cons, ih _ (fun d' hd' => h d' (List.mem_cons_of_mem _ hd')),
      tileOf_tellPartner_of_ne k x (h d List.mem_cons_self)]

theorem tileOf_tellPartners {s : State} {t u : Nat} {d : Dir} (k : BeatTok) (h : partnerOf s t d = some u) {ds : List Dir} (hn : ds.Nodup)
    (hd : d ∈ ds) (x : State) : tileOf (ds.foldl (tellPartner s t k) x) u = tokenTo d k (tileOf x u) := by
  induction ds generalizing x with
  | nil => cases hd
  | cons d' ds ih =>
    rw [List.foldl_cons]
    obtain ⟨hfresh, hn⟩ := List.nodup_cons.mp hn
    by_cases hde : d' = d
    · subst hde
      rw [tileOf_tellPartners_of_ne k ds _ ?_, tileOf_tellPartner k x h]
      intro f hf he
      exact hfresh (neighbour_inj (neighbour_of_partnerOf h) (neighbour_of_partnerOf he) ▸ hf)
    · have hne : partnerOf s t d' ≠ some u := fun he => hde (neighbour_inj (neighbour_of_partnerOf he) (neighbour_of_partnerOf h))
      rw [ih hn ((List.mem_cons.mp hd).resolve_left (fun heq => hde heq.symm)), tileOf_tellPartner_of_ne k x hne]

theorem tellPartner_tiles_only (s : State) (t : Nat) (k : BeatTok) (x : State) (d : Dir) :
    tellPartner s t k x d = { x with tiles := (tellPartner s t k x d).tiles } := by
  unfold tellPartner
  split <;> rfl

theorem tellPartners_tiles_only (s : State) (t : Nat) (k : BeatTok) (ds : List Dir) (x : State) :
    ds.foldl (tellPartner s t k) x = { x with tiles := (ds.foldl (tellPartner s t k) x).tiles } := by
  induction ds generalizing x with
  | nil => rfl
  | cons d ds ih =>
    rw [List.foldl_cons, ih, tellPartner_tiles_only s t k x d]

/-- R199: what START leaves at the tile, its partners and the others. -/
theorem startTile_eq (s : State) (t : Nat) : startTile s t = if (tileOf s t).st ≠ .idle then s
    else (partnerDirs s t).foldl (tellPartner s t ⟨0, false⟩) (updTile s t tileStart) := rfl

/-- R200: HALT of a tile that has ended a beat and waits at its gate. -/
theorem haltTile_at_gate {s : State} {t : Nat} (hrun : (tileOf s t).st = .run) (hheld : beatHeld (tileOf s t) (partnerDirs s t) = true)
    (hq : (tileOf s t).confQ = []) :
    haltTile s t = (partnerDirs s t).foldl (tellPartner s t ⟨(tileOf s t).cyc / 32, true⟩)
      (setTile s t (tileHalt (tileOf s t) ((tileOf s t).cyc / 32 - 1))) := by
  have hreq : tileHaltReq (tileOf s t) (partnerDirs s t) = (tileHalt (tileOf s t) ((tileOf s t).cyc / 32 - 1), true) := by
    simp [tileHaltReq, hrun, hheld, hq]
  simp only [haltTile, hreq]
  rfl

theorem haltTile_in_beat {s : State} {t : Nat} (hrun : (tileOf s t).st = .run)
    (hopen : beatHeld (tileOf s t) (partnerDirs s t) = false ∨ (tileOf s t).confQ ≠ []) :
    haltTile s t = setTile s t { tileOf s t with haltReq := true } := by
  have hreq : tileHaltReq (tileOf s t) (partnerDirs s t) = ({ tileOf s t with haltReq := true }, false) := by
    rcases hopen with h | h
    · simp [tileHaltReq, hrun, h]
    · simp [tileHaltReq, hrun, h]
  simp only [haltTile, hreq]
  rfl

theorem startBeginsAStep : Sys2Proof.StartBeginsAStep := by
  intro s t x
  refine ⟨fun hno => congrArg Host.Outcome.next ?_, fun hidle hpow => ⟨_, congrArg Host.Outcome.next (if_pos hpow), ?_⟩⟩
  · rcases hno with hst | hoff
    · rw [startTile_eq, if_pos hst, ite_self]
    · rw [hoff]
      rfl
  · have hidle' : (tileOf s t.val).st = .idle := hidle
    rw [startTile_eq, if_neg (not_not_intro hidle')]
    have hself : tileOf ((partnerDirs s t.val).foldl (tellPartner s t.val ⟨0, false⟩) (updTile s t.val tileStart)) t.val = tileStart x := by
      rw [tileOf_tellPartners_of_ne _ _ _ (fun d _ hd => neighbour_ne (neighbour_of_partnerOf hd) rfl), tileOf_updTile, if_pos rfl]
    refine ⟨?_, fun d u hd => ?_, fun u hu hother => ?_, tellPartners_tiles_only _ _ _ _ _⟩
    · simp only [hself, tileStart, hidle]
      simp
    · rw [tileOf_tellPartners _ hd (partnerDirs_nodup s t.val) (mem_partnerDirs hd), tileOf_updTile,
        if_neg (fun e => neighbour_ne (neighbour_of_partnerOf hd) e.symm)]
      rfl
    · rw [tileOf_tellPartners_of_ne _ _ _ (fun d _ => hother d), tileOf_updTile, if_neg (fun e => hu e.symm)]

theorem abortAndHaltStopATile : Sys2Proof.AbortAndHaltStopATile := by
  intro s t x
  refine ⟨fun hoff => ⟨congrArg Host.Outcome.next ?_, congrArg Host.Outcome.next ?_⟩, fun hrun hpow => congrArg Host.Outcome.next ?_,
    fun hrun hpow hopen => congrArg Host.Outcome.next ?_, fun hrun hpow hheld hq => ⟨_, congrArg Host.Outcome.next (if_pos hpow), ?_⟩⟩
  · rw [hoff]
    rfl
  · rw [hoff]
    rfl
  · rw [if_pos hpow, updTile, tileAbort, if_pos hrun]
  · rw [if_pos hpow, haltTile_in_beat hrun hopen]
  · rw [haltTile_at_gate hrun hheld hq]
    have hself : tileOf ((partnerDirs s t.val).foldl (tellPartner s t.val ⟨(tileOf s t.val).cyc / 32, true⟩)
        (setTile s t.val (tileHalt (tileOf s t.val) ((tileOf s t.val).cyc / 32 - 1)))) t.val = tileHalt x (x.cyc / 32 - 1) := by
      rw [tileOf_tellPartners_of_ne _ _ _ (fun d _ hd => neighbour_ne (neighbour_of_partnerOf hd) rfl), tileOf_setTile, if_pos rfl]
    refine ⟨?_, fun d u hd => ?_, tellPartners_tiles_only _ _ _ _ _⟩
    · simp only [hself]
      exact ⟨rfl, rfl, rfl, rfl, rfl, rfl⟩
    · rw [tileOf_tellPartners _ hd (partnerDirs_nodup s t.val) (mem_partnerDirs hd), tileOf_setTile,
        if_neg (fun e => neighbour_ne (neighbour_of_partnerOf hd) e.symm)]
      simp [tokenTo, x]

/-- Settles O52: a tile's own part and what its partners get, by the two lemmas above. -/
theorem tilesStartAndStop : Obligations.TilesStartAndStop := ⟨startBeginsAStep, abortAndHaltStopATile⟩

end Sys2Proof.Machine
end

section
/-! SUPPORT. Control messages (O19, R170 to R172): the fields of a message are the digits of one number, so a field is read back by dividing. -/

namespace Sys2Proof.Machine

/-- R170: the number whose bits are a control message. -/
def ctlNum (k : CtlType) (inward : Bool) (t : Nat) (bcast : Bool) (p : Nat) : Nat :=
  ctlCode k * 2 ^ 120 + b2n inward * 2 ^ 119 + t / 64 % 32 * 2 ^ 114 + t % 64 * 2 ^ 108 + b2n bcast * 2 ^ 107 + p % 2 ^ 96

theorem ctlMsg_eq (k : CtlType) (inward : Bool) (t : Nat) (bcast : Bool) (p : Nat) :
    ctlMsg k inward t bcast p = BitVec.ofNat 128 (ctlNum k inward t bcast p) := rfl

theorem b2n_le_one (b : Bool) : b2n b ≤ 1 := by cases b <;> decide

theorem ctlCode_lt (k : CtlType) : ctlCode k < 8 := by cases k <;> decide

theorem ctlNum_lt (k : CtlType) (inward : Bool) (t : Nat) (bcast : Bool) (p : Nat) : ctlNum k inward t bcast p < 2 ^ 128 := by
  have := b2n_le_one inward
  have := b2n_le_one bcast
  have := ctlCode_lt k
  unfold ctlNum
  omega

/-- A field of a number's bits is the number divided down to the field. -/
theorem extractLsb'_ofNat_of_lt {n : Nat} (h : n < 2 ^ 128) (start len : Nat) :
    (BitVec.ofNat 128 n).extractLsb' start len = BitVec.ofNat len (n / 2 ^ start) := by
  apply BitVec.eq_of_toNat_eq
  rw [BitVec.extractLsb'_toNat, BitVec.toNat_ofNat, BitVec.toNat_ofNat, Nat.mod_eq_of_lt h, Nat.shiftRight_eq_div_pow]

theorem getLsbD_ofNat_of_odd {n i : Nat} (hi : i < 128) {b : Bool} (h : n / 2 ^ i % 2 = b2n b) : (BitVec.ofNat 128 n).getLsbD i = b := by
  rw [BitVec.getLsbD_ofNat, decide_eq_true hi, Bool.true_and, Nat.testBit_eq_decide_div_mod_eq, h]
  cases b <;> rfl

theorem ctlMsg_fields (k : CtlType) (inward : Bool) {t : Nat} (ht : t < 2048) (bcast : Bool) (p : Nat) :
    let m := ctlMsg k inward t bcast p
    m.extractLsb' 120 8 = BitVec.ofNat 8 (ctlCode k) ∧ m.getLsbD 119 = inward ∧ m.extractLsb' 114 5 = BitVec.ofNat 5 (t / 64)
      ∧ m.extractLsb' 108 6 = BitVec.ofNat 6 (t % 64) ∧ m.getLsbD 107 = bcast ∧ m.extractLsb' 0 96 = BitVec.ofNat 96 p := by
  intro m
  have hm : m = BitVec.ofNat 128 (ctlNum k inward t bcast p) := ctlMsg_eq ..
  have hlt := ctlNum_lt k inward t bcast p
  have h1 := b2n_le_one inward
  have h2 := b2n_le_one bcast
  rw [hm, extractLsb'_ofNat_of_lt hlt, extractLsb'_ofNat_of_lt hlt, extractLsb'_ofNat_of_lt hlt, extractLsb'_ofNat_of_lt hlt]
  refine ⟨?_, getLsbD_ofNat_of_odd (by decide) ?_, ?_, ?_, getLsbD_ofNat_of_odd (by decide) ?_, ?_⟩
  · exact congrArg _ (by unfold ctlNum; omega)
  · unfold ctlNum; omega
  · refine BitVec.eq_of_toNat_eq ?_
    rw [BitVec.toNat_ofNat, BitVec.toNat_ofNat]
    unfold ctlNum; omega
  · refine BitVec.eq_of_toNat_eq ?_
    rw [BitVec.toNat_ofNat, BitVec.toNat_ofNat]
    unfold ctlNum; omega
  · unfold ctlNum; omega
  · refine BitVec.eq_of_toNat_eq ?_
    rw [BitVec.toNat_ofNat, BitVec.toNat_ofNat]
    unfold ctlNum; omega

/-- An update that a second time changes nothing, made of every tile of a list. -/
theorem tileOf_foldl_updTile {f : Tile → Tile} (hf : ∀ x, f (f x) = f x) (l : List Nat) (s : State) (u : Nat) :
    tileOf (l.foldl (fun x v => updTile x v f) s) u = if u ∈ l then f (tileOf s u) else tileOf s u := by
  induction l generalizing s with
  | nil => simp
  | cons v l ih =>
    rw [List.foldl_cons, ih, tileOf_updTile]
    by_cases hv : v = u
    · simp [hv, hf]
    · simp [hv, Ne.symm hv]

theorem mem_ctlPath {t u : Nat} (hu : u < 2048) :
    u ∈ ctlPath t ↔ u % 64 = t % 64 ∧ (if t / 64 < 16 then u / 64 ≤ t / 64 else t / 64 ≤ u / 64) := by
  unfold ctlPath
  split
  · simp only [List.mem_map, List.mem_range]
    constructor
    · rintro ⟨r, hr, rfl⟩
      omega
    · rintro ⟨hcol, hrow⟩
      exact ⟨u / 64, by omega, by omega⟩
  · simp only [List.mem_map, List.mem_range]
    constructor
    · rintro ⟨r, hr, rfl⟩
      omega
    · rintro ⟨hcol, hrow⟩
      exact ⟨31 - u / 64, by omega, by omega⟩

theorem writeTile_reg {s : State} {t : Nat} {off : Fin 1024} {v : Word} (hctrl : off.val ≠ 0x00C) (hhalt : off.val ≠ 0x378) :
    writeTile s t (.reg off) v = setTile s t (tileRegWrite (tileOf s t) off.val v) := by
  simp only [writeTile, if_neg hctrl, if_neg hhalt]
  rfl

theorem tileOf_crossCtl (s : State) (t u : Nat) (m : BitVec 128) : tileOf (crossCtl s t m) u = tileOf s u := rfl

theorem execRegWrite_reg (s : State) (t : Fin 2048) (off : Fin 1024) (v : Word) :
    execRegWrite t (.reg off) ⟨v, false⟩ s = .next (if tilePowered s t.val then
      writeTile (crossCtl s t.val (ctlMsg .regWrite true t.val false (regPayload off.val v.toNat))) t.val (.reg off) v else s) := by
  unfold execRegWrite
  generalize ctlMsg .regWrite true t.val false = msg
  rfl

/-- R170, R171: a write to one tile of a powered partition. -/
theorem exec_regWrite_reg {s : State} {t : Fin 2048} (hpow : tilePowered s t.val = true) {off : Fin 1024} {n : Nat} (hoff : off.val = n)
    (hctrl : n ≠ 0x00C) (hhalt : n ≠ 0x378) (v : Word) :
    exec (.regWrite t (.reg off) ⟨v, false⟩) s
      = .next (setTile (crossCtl s t.val (ctlMsg .regWrite true t.val false (regPayload n v.toNat))) t.val
          (tileRegWrite (tileOf s t.val) n v)) := by
  subst hoff
  rw [exec_regWrite, execRegWrite_reg, if_pos hpow, writeTile_reg hctrl hhalt, tileOf_crossCtl]

theorem updTile_crossCtl (s : State) (t : Nat) (m : BitVec 128) (f : Tile → Tile) :
    updTile (crossCtl s t m) t f = setTile (crossCtl s t m) t (f (tileOf s t)) := rfl

theorem updTile_crossCtl_drawFree (s : State) (t : Nat) (m : BitVec 128) (f : Tile → Tile) :
    updTile (crossCtl (drawFree s).2 t m) t f = setTile (crossCtl (drawFree s).2 t m) t (f (tileOf s t)) := rfl

/-- R172: a register value reaches Kiln. -/
theorem takeRegData_crossCtl (s : State) (t : Nat) (m : BitVec 128) (f : Tile → Tile) (r : Nat × Nat × Word) :
    { updTile (crossCtl s t m) t f with kiln := { (updTile (crossCtl s t m) t f).kiln with regIn := some r } }
      = { setTile (crossCtl s t m) t (f (tileOf s t)) with kiln := { s.kiln with regIn := some r } } := rfl

theorem exec_regData_of_cons {s : State} {t : Fin 2048} {r : Nat × Word} {rs : List (Nat × Word)} (hn : (tileOf s t.val).notices = [])
    (hr : (tileOf s t.val).regReads = r :: rs) :
    exec (.regData t) s = .next { setTile (crossCtl s t.val (ctlMsg .regData false t.val false (regPayload r.1 r.2.toNat))) t.val
      { tileOf s t.val with regReads := rs } with kiln := { s.kiln with regIn := some (t.val, r.1, r.2) } } := by
  rw [exec_regData, execRegData, hn, hr]
  exact congrArg Host.Outcome.next (takeRegData_crossCtl s t.val _ _ (t.val, r.1, r.2))

theorem exec_notify_of_cons {s : State} {t : Fin 2048} {m : Notice} {ms : List Notice} (hm : (tileOf s t.val).notices = m :: ms)
    (hstat : s.kiln.stat ≠ 2) :
    exec (.notify t) s = .next (kilnNotice (setTile (crossCtl (drawFree s).2 t.val (ctlMsg .notify false t.val false
      (noticePayload m (drawFree s).1))) t.val { tileOf s t.val with notices := ms }) t.val m) := by
  rw [exec_notify, execNotify, whileKiln, if_neg hstat, hm]
  exact congrArg (fun y => Host.Outcome.next (kilnNotice y t.val m)) (updTile_crossCtl_drawFree s t.val _ _)

/-- Settles O19: what each message carries (ctlMsg_fields), and what it does where it arrives. -/
theorem controlMessagesReachTheTile : Obligations.ControlMessagesReachTheTile := by
  intro s t v
  dsimp only
  refine ⟨?_, fun hpow => ⟨fun slot st => ?_, ?_, ?_, ?_, fun hmsb => ⟨?_, ?_, ?_⟩, ⟨_, rfl, fun u => ?_⟩, fun off => ?_⟩, fun hoff tgt bcast off => ?_,
    fun hn => ?_, fun hn r rs hr => ?_, fun m ms hm hstat => ?_, fun hstat => ?_⟩
  · rintro k inward bcast p m rfl
    obtain ⟨h1, h2, h3, h4, h5, h6⟩ := ctlMsg_fields k inward t.isLt bcast p
    exact ⟨h1, h2, h3, h4, h5, h6, smGet_smSet_same ..⟩
  · rw [exec_regWrite, execRegWrite, if_pos hpow]
    generalize ctlMsg .regWrite true t.val false = msg
    rfl
  · exact exec_regWrite_reg hpow rfl (by decide) (by decide) v
  · exact exec_regWrite_reg hpow rfl (by decide) (by decide) v
  · exact exec_regWrite_reg hpow rfl (by decide) (by decide) v
  · exact (exec_regWrite_reg hpow rfl (by decide) (by decide) v).trans (congrArg (fun y => Host.Outcome.next (setTile _ _ y)) (if_pos hmsb))
  · exact (exec_regWrite_reg hpow rfl (by decide) (by decide) v).trans (congrArg (fun y => Host.Outcome.next (setTile _ _ y)) (if_pos hmsb))
  · exact (exec_regWrite_reg hpow rfl (by decide) (by decide) v).trans (congrArg (fun y => Host.Outcome.next (setTile _ _ y)) (if_pos hmsb))
  · rw [if_pos hpow]
    generalize ctlMsg .regWrite true t.val true = msg
    have hfold := tileOf_foldl_updTile (f := fun y => { y with step := v }) (fun _ => rfl) (ctlPath t.val)
      (crossCtl s t.val (msg (regPayload 0x010 v.toNat))) u.val
    simp only [mem_ctlPath u.isLt] at hfold
    rw [tileOf_crossCtl] at hfold
    exact hfold
  · rw [exec_regRead, execRegRead, if_pos hpow]
    rw [updTile_crossCtl]
  · rw [exec_regWrite, execRegWrite, exec_regRead, execRegRead, hoff]
    exact ⟨rfl, rfl⟩
  · rw [exec_regData, execRegData]
    cases hx : (tileOf s t.val).notices with
    | nil => exact absurd hx hn
    | cons a as => rfl
  · exact exec_regData_of_cons hn hr
  · exact exec_notify_of_cons hm hstat
  · rw [exec_notify, execNotify, whileKiln, if_pos hstat]

end Sys2Proof.Machine
end

section
/-! SUPPORT. The inbound path of a tile and the ring's side of it (O21, O22, O55). -/

namespace Sys2Proof.Machine

/-! Headers (R153 to R155). -/

/-- R153: the write that the inbound path takes up, refused or not. -/
def takenUp (x : Tile) (d : Nat) (h : InHdr) (data : List Byte) (refused : Bool) : Tile := { x with
  inw := some ⟨h.nwords, 64 * ((winOf x h.win).basew + h.offset / 64), (winOf x h.win).tagged && !refused, (winOf x h.win).fillw, d, refused,
    h.src, h.sender⟩
  dq := smSet [] x.dq d (.later data :: (smGet [] x.dq d).drop 1) }

theorem inboundTake_accepted {x : Tile} {d : Nat} {h : InHdr} {data : List Byte} {ms : List MWord} (hin : x.inw = none)
    (hq : firstQueue x isFirst = some (d, .first h data, ms)) {rst : Bool} (hrst : rst = false) (hok : windowCheck x h = .ok) :
    inboundTake x rst = (takenUp x d h data false, none) := by
  simp only [inboundTake, hin, hq, hrst, hok]
  rfl

theorem inboundTake_refused {x : Tile} {d : Nat} {h : InHdr} {data : List Byte} {ms : List MWord} (hin : x.inw = none)
    (hq : firstQueue x isFirst = some (d, .first h data, ms)) {rst : Bool} {st : WinStatus}
    (hst : (if rst then .resetting else windowCheck x h) = st) (hno : st ≠ .ok) :
    inboundTake x rst = (countRefusal (takenUp x d h data true) st, some (h, st)) := by
  have hne : (st != .ok) = true := bne_iff_ne.mpr hno
  simp only [inboundTake, hin, hq, hst, hne]
  rfl

theorem exec_inboundWrite_ok {s : State} {t : Fin 2048} {y : Tile}
    (h : inboundTake (tileOf s t.val) (tileResetting s t.val) = (y, none)) : exec (.inboundWrite t) s = .next (setTile s t.val y) := by
  simp only [exec_inboundWrite, execInboundWrite, h]

/-- R155: a refused write of a tile is reported to that tile. -/
theorem exec_inboundWrite_refused {s : State} {t : Fin 2048} {y : Tile} {h : InHdr} {st : WinStatus} (hsrc : h.src = .tile)
    (ht : inboundTake (tileOf s t.val) (tileResetting s t.val) = (y, some (h, st))) :
    exec (.inboundWrite t) s
      = .next (updTile (setTile s t.val y) h.sender (fun u => { u with nackIn := u.nackIn ++ [(winCode st, h.win)] })) := by
  simp only [exec_inboundWrite, execInboundWrite, ht, reportRefusal, hsrc]

theorem inboundWriteIsCheckedOnce : Sys2Proof.InboundWriteIsCheckedOnce := by
  intro s t d h data ms x w taken hin hq
  refine ⟨fun hrst => ⟨fun hok => ?_, fun hsrc => ⟨fun hno => ?_, fun hno => ?_, fun hno => ?_⟩⟩, fun hrst hsrc => ?_⟩
  · exact exec_inboundWrite_ok (inboundTake_accepted hin hq hrst hok)
  · have key := exec_inboundWrite_refused hsrc (inboundTake_refused (st := .closed) hin hq (by rw [hrst]; exact hno) (by decide))
    exact key
  · have key := exec_inboundWrite_refused hsrc (inboundTake_refused (st := .denied) hin hq (by rw [hrst]; exact hno) (by decide))
    exact key
  · have key := exec_inboundWrite_refused hsrc (inboundTake_refused (st := .range) hin hq (by rw [hrst]; exact hno) (by decide))
    exact key
  · have key := exec_inboundWrite_refused hsrc (inboundTake_refused (st := .resetting) hin hq (by rw [hrst]; rfl) (by decide))
    exact key

/-! Words (R142, R145, R154). -/

/-- R269: a write of a tile reports no end to the ring. -/
theorem landed_tile {w : InWrite} (h : w.src = .tile) (b : Option InWrite) : landed (some w) b = none := by
  cases b with
  | none => simp [landed, h]
  | some v => rfl

theorem exec_inboundWord_tile {s : State} {t : Fin 2048} {w : InWrite} (hw : (tileOf s t.val).inw = some w) (hsrc : w.src = .tile) :
    exec (.inboundWord t) s = .next (setTile s t.val (inboundWord (tileOf s t.val) (tileAbsorbs s t.val))) := by
  simp only [exec_inboundWord, execInboundWord, hw, landed_tile hsrc]

theorem inboundWordLandsOrWaits : Sys2Proof.InboundWordLandsOrWaits := by
  intro s t x
  refine ⟨?_, fun st win rest hn => ?_⟩
  · intro w data ms hw htried hsrc hdq slot missed y
    have hw' : (tileOf s t.val).inw = some w := hw
    have htried' : (tileOf s t.val).inTried = false := htried
    have hdq' : smGet [] (tileOf s t.val).dq w.port = .later data :: ms := hdq
    have htag' (b : Bool) (h : inboundOk x w.tagged slot = b) : inboundOk (tileOf s t.val) w.tagged (w.addr / 4096 % 1024) = b := h
    rw [exec_inboundWord_tile hw hsrc]
    refine ⟨fun hdrain hfree => ?_, fun hland hused => ?_, fun hacc habs htag => ?_, fun hacc hfree htag => ⟨fun hconf => ?_, fun hconf => ?_⟩⟩
    all_goals refine congrArg (fun z => Host.Outcome.next (setTile s t.val z)) ?_
    all_goals simp only [inboundWord, hw', htried', hdq', Bool.false_eq_true, if_false]
    · have hgo : (!w.refused && !tileAbsorbs s t.val && !inboundOk (tileOf s t.val) w.tagged (w.addr / 4096 % 1024)) = false
          ∧ (w.refused || !inboundOk (tileOf s t.val) w.tagged (w.addr / 4096 % 1024)) = true := by
        rcases hdrain with hr | ⟨habs, htag⟩
        · simp [hr]
        · simp [habs, htag' _ htag]
      rw [if_neg (Bool.eq_false_iff.mp hgo.1), if_neg (Bool.eq_false_iff.mp hfree), if_pos hgo.2]
    · have hgo : (!w.refused && !tileAbsorbs s t.val && !inboundOk (tileOf s t.val) w.tagged (w.addr / 4096 % 1024)) = false := by
        rcases hland with hr | htag
        · simp [hr]
        · simp [htag' _ htag]
      rw [if_neg (Bool.eq_false_iff.mp hgo), if_pos hused]
      rfl
    · rw [if_pos (by simp [hacc, habs, htag' _ htag])]
      rfl
    · rw [if_neg (by simp [htag' _ htag]), if_neg (Bool.eq_false_iff.mp hfree), if_neg (by simp [hacc, htag' _ htag]), if_pos hconf]
      rfl
    · rw [if_neg (by simp [htag' _ htag]), if_neg (Bool.eq_false_iff.mp hfree), if_neg (by simp [hacc, htag' _ htag]),
        if_neg (Bool.eq_false_iff.mp hconf)]
      rfl
  · have hn' : (tileOf s t.val).nackIn = (st, win) :: rest := hn
    refine congrArg (fun z => Host.Outcome.next (setTile s t.val z)) ?_
    simp only [takeNack, hn']
    rfl

/-- Settles O55: headers, then words. -/
theorem inboundWritesAreCheckedAndLand : Obligations.InboundWritesAreCheckedAndLand :=
  ⟨inboundWriteIsCheckedOnce, inboundWordLandsOrWaits⟩

end Sys2Proof.Machine
end

section
/-! SUPPORT. Pull reads, deliveries and the ring's words and requests (O21, O22). -/

namespace Sys2Proof.Machine

/-- R137: nothing keeps a pull read waiting: its word is read, and the scratchpad stays. -/
theorem pullRead_data {x : Tile} {a : Nat} (hfree : x.inUsed = false) (hready : wordReady x = false) (hconf : inboundConflict x a = false)
    (hpar : smGet 0 x.badPar (a / 64 % 65536) = 0) : pullRead x a = ({ x with inUsed := true }, .data (spadRead x a 64)) := by
  simp only [pullRead, hfree, hready, hconf, hpar]
  rfl

theorem pullStep_data {s : State} {t : Nat} {p : PullXfer} {x : Tile} {bs : List Byte}
    (hp : s.ring.pulls.find? (fun q => (pullAt q).1 == t && decide (q.got.length < q.need) && !q.gone) = some p)
    (hr : pullRead (tileOf s t) (pullAt p).2 = (x, .data bs)) (hmore : p.got.length + 1 < p.need) :
    pullStep s t = { setTile s t x with ring := { s.ring with
      pulls := s.ring.pulls.map (fun z => if z.id = p.id then { p with got := p.got ++ [bs] } else z) } } := by
  have hlen : (p.got ++ [bs]).length < p.need := by simpa using hmore
  simp only [pullStep, hp, hr, if_pos hlen]
  rfl

theorem deliverStep_of_queued {s : State} {t : Nat} (h : (firstQueue (tileOf s t) isDelivery).isSome = true) :
    deliverStep s t = updTile s t deliveryWord := by rw [deliverStep, if_pos h]

/-- R156: a delivery word that no static access keeps from its bank lands at its place. -/
theorem deliveryWord_lands {x : Tile} {d a w u : Nat} {last : Bool} {data : List Byte} {ms : List MWord}
    (hq : firstQueue x isDelivery = some (d, .delivery a w last u data, ms)) (hfree : x.inUsed = false)
    (hconf : inboundConflict x (a + 64 * w) = false) :
    deliveryWord x = (let y := landDelivery { x with dq := smSet [] x.dq d ms } a w data
      if last then finishDelivery y (a / 4096) else y) := by
  simp only [deliveryWord, hfree, hq, hconf]
  rfl

/-- Settles O21: a pull read by the three things that may keep it waiting, a delivery word by its bank. -/
theorem pullsAndDeliveriesProceed : Obligations.PullsAndDeliveriesProceed := by
  intro s t x
  refine ⟨fun p hp hfree hready hconf hpar hmore => ?_, ?_⟩
  · exact congrArg Host.Outcome.next (pullStep_data hp (pullRead_data hfree hready hconf hpar) hmore)
  · intro d a w last u data ms hq hfree hconf y
    have hq' : (firstQueue (tileOf s t.val) isDelivery).isSome = true := by rw [show firstQueue (tileOf s t.val) isDelivery = _ from hq]; rfl
    have hland := deliveryWord_lands hq hfree hconf
    refine congrArg Host.Outcome.next ((deliverStep_of_queued hq').trans ?_)
    refine congrArg (setTile s t.val) (hland.trans ?_)
    rfl

/-! The ring (R174, R175, R214, R220). -/

/-- R175: a port whose turn of the IR cycle is not over builds in it. -/
theorem edgeTurn_of_turn {s : State} {e : Nat} (h : ∀ at_ p, s.ring.fillAt = some (at_, p) → at_ = s.clock → p ≤ e) :
    edgeTurn s e = { s with ring := { s.ring with fillAt := some (s.clock, e) } } := by
  cases hf : s.ring.fillAt with
  | none =>
    simp only [edgeTurn, hf]
    rfl
  | some cp =>
    have hgo : ¬ (cp.1 = s.clock ∧ e < cp.2) := fun ⟨hc, hp⟩ => Nat.not_lt.mpr (h cp.1 cp.2 hf hc) hp
    simp only [edgeTurn, hf, if_neg hgo]
    rfl

theorem fillQuarter_of_entry_zero {s : State} {e cyc idx q : Nat} (h : smGet 0 s.ring.tables ((512 * e + idx) * 4 + q) = 0) :
    fillQuarter s e cyc idx q = (s, none) := by
  simp only [fillQuarter, edgeTarget, h, ite_self]

theorem fillQuarter_of_entry {s : State} {e cyc idx q t : Nat} (hopen : quarterBlocked e cyc q = false)
    (h : smGet 0 s.ring.tables ((512 * e + idx) * 4 + q) = t + 1) : fillQuarter s e cyc idx q = takeWord s e t := by
  simp only [fillQuarter, edgeTarget, h, hopen]
  rfl

theorem quarterBlocked_iff {e cyc : Nat} {q : Fin 4} : quarterBlocked e cyc q.val = true ↔ e < 128 ∧ q = 2 ∧ cyc % 16 = 11 := by
  simp [quarterBlocked, Fin.ext_iff, and_assoc]

theorem takeWord_none {s : State} {e t : Nat} (h : ∀ x ∈ s.ring.ready, x.tile = t → x.port ≠ none ∧ x.port ≠ some e) :
    takeWord s e t = (s, none) := by
  have hnone : s.ring.ready.find? (fun x => x.tile == t && (x.port == none || x.port == some e)) = none := by
    rw [List.find?_eq_none]
    intro x hx
    by_cases ht : x.tile = t
    · simp [(h x hx ht).1, (h x hx ht).2]
    · simp [ht]
  simp only [takeWord, hnone]

theorem takeWord_more {s : State} {e t : Nat} {x : RingXfer} {w v : MWord} {ws : List MWord}
    (h : s.ring.ready.find? (fun x => x.tile == t && (x.port == none || x.port == some e)) = some x) (hw : x.words = w :: v :: ws) :
    takeWord s e t = ({ s with ring := { s.ring with ready := s.ring.ready.map (fun z =>
      if z.id = x.id then { x with words := v :: ws, port := some e } else z) } }, some w) := by
  simp only [takeWord, h, takeFrom, hw]
  rfl

/-- R220: the data of a PUTM that nothing removed reaches memory. -/
theorem visible_of_translated {s : State} {id tier key : Nat} {x : PullXfer}
    (hx : s.ring.pulls.find? (fun y => y.id == id && y.op == 1 && decide (y.need ≤ y.got.length)) = some x) (hgone : x.gone = false)
    (htr : translateRange s.mem (dVa x.d) (64 * x.need) (tileParts s x.d.tile) true = .ok tier key) :
    visible s id = moverDone (lockItem { s with
      ring := { s.ring with pulls := s.ring.pulls.filter (fun y => y.id != id) }
      mem := vaWrite s.mem (dVa x.d) x.got.flatten } x.d 1 x.got.flatten) x.mover 1 x.d 0 x.enter x.bound := by
  simp only [visible, hx, htr, hgone]
  rfl

/-- Settles O22: the port's turn, the four quarters by the table's entry, the oldest descriptor, the visibility point. -/
theorem ringMovesWordsAndRequests : Obligations.RingMovesWordsAndRequests := by
  intro s e
  refine ⟨?_, ?_, fun d ds hq => ?_, fun id x tier key hx hgone htr => congrArg Host.Outcome.next (visible_of_translated hx hgone htr)⟩
  · intro cyc t x hrun hcyc hnew hturn s0 idx a b c d
    have hturn' : edgeTurn s e.val = s0 := edgeTurn_of_turn hturn
    have hbuilt : (smGet [] x.wire (dirNum .x) ++ smGet [] x.inbuf (dirNum .x)).any (fun f => decide (cyc ≤ f.cyc)) = false :=
      List.any_eq_false.mpr (fun f hf => by simpa using hnew f hf)
    have hgo : ¬ (x.st ≠ .run ∨ cyc < x.cyc
        ∨ (smGet [] x.wire (dirNum .x) ++ smGet [] x.inbuf (dirNum .x)).any (fun f => decide (cyc ≤ f.cyc)) = true) := by
      rw [hbuilt, hrun]
      simpa using hcyc
    refine congrArg Host.Outcome.next ?_
    simp only [edgeFill, hturn']
    exact if_neg hgo
  · intro q cyc idx entry
    refine ⟨fun he hq hc => ?_, fun hzero => fillQuarter_of_entry_zero hzero, fun t hopen hentry => ?_⟩
    · rw [fillQuarter, if_pos (quarterBlocked_iff.mpr ⟨he, hq, hc⟩)]
    · have hopen' : quarterBlocked e.val cyc q.val = false :=
        Bool.eq_false_iff.mpr (fun hb => by obtain ⟨he, hq, hc⟩ := quarterBlocked_iff.mp hb; exact hopen he hq hc)
      rw [fillQuarter_of_entry hopen' hentry]
      exact ⟨takeWord_none, fun x w v ws hx hw => takeWord_more hx hw⟩
  · rw [exec_moverRequest, execMoverRequest, moverEnter, hq]
    rfl

end Sys2Proof.Machine
end

section
/-! SUPPORT. The movers' starts and refusals, migrations, and memory errors (O23, O24, O57). -/

namespace Sys2Proof.Machine

/-! Starts (R217, R222, R278). -/

theorem deliver_of_reachable {s : State} {d : MDesc} (hpow : tilePowered s d.tile = true) (hedge : edgeNames s d.tile = true)
    (m op : Nat) (ws : List (List Byte)) (enter bound : Nat) :
    deliver s m op d ws enter bound = ringAdd s d.tile (fun _ => deliveryWords d ws) (.deliver m op d enter bound) := by
  simp only [deliver, hpow, hedge]
  rfl

theorem moverWrite_of_accepted {s : State} {h : InHdr} (hok : targetRefusal s (64 * h.trow + h.tcol) = none) (m op : Nat) (d : MDesc)
    (ws rest : List (List Byte)) (enter bound : Nat) :
    moverWrite s m op d h ws rest enter bound
      = ringAdd s (64 * h.trow + h.tcol) (fun id => writeWords { h with sender := id } ws) (.mwrite m op d rest enter bound) := by
  simp only [moverWrite, hok]

theorem moverPick_op {s : State} {m pos op enter : Nat} {d : MDesc} (h : moverPick s m pos op = some (d, enter)) : dOp d = op := by
  unfold moverPick at h
  simp only at h
  split at h
  · cases h
  · split at h
    · next hok =>
        cases h
        exact hok.1
    · cases h

theorem moverCord_starts {s : State} {m pos enter cop : Nat} {d : MDesc} (hp : moverPick s m pos 6 = some (d, enter))
    (hu : cordUsable s d = true) (hc : dCop d = cop) :
    moverCord s m pos cop = startPull (moverDrop s m pos) m d d.tile d.addr enter 0 := by
  simp only [moverCord, hp, hu, if_neg (not_not_intro hc)]
  rfl

/-- R222: a MIGRATE that passes every check. -/
theorem moverMigrate_starts {s : State} {m pos enter tier key f : Nat} {fs : List Nat} {d : MDesc}
    (hp : moverPick s m pos 5 = some (d, enter)) (htr : translate (seenMem s.mem) (dVa d) (tileParts s d.tile) true = .ok tier key)
    (hfit : dTdst d = 1 → ddrFitted s = true) (hstill : teMoving (tmapGet s.mem (dVa d / 2 ^ 18)) = false)
    (htier : dTdst d ≠ teTier (tmapGet s.mem (dVa d / 2 ^ 18))) (hq : freeQueue s.mem (dTdst d) = f :: fs) :
    moverMigrate s m pos = (let e := tmapGet s.mem (dVa d / 2 ^ 18)
      let s2 := tmapTurn (moverDrop s m pos) m
      { s2 with mem := { tmapSetBy (setFreeQueue s2.mem (dTdst d) fs) m (dVa d / 2 ^ 18)
          (teMake (teWritable e) (tePart e) (teTier e) true (teFrame e)) with
        migr := s2.mem.migr ++ [⟨dVa d / 2 ^ 18, teTier e, teFrame e, dTdst d, f, .mover m d enter⟩] } }) := by
  have hddr : ¬ (dTdst d = 1 ∧ ¬ ddrFitted s = true) := fun ⟨h1, hno⟩ => hno (hfit h1)
  simp only [moverMigrate, hp, htr, if_neg hddr, hstill, if_neg htier, hq]
  rfl

theorem moversStartTheirOperations : Sys2Proof.MoversStartTheirOperations := by
  intro s m pos d enter s1 va n pulled
  refine ⟨fun tier key hp htr hpow hedge => ?_, fun tier key hp htr hok => ?_, fun tier key hp htr => ?_, fun hp => ?_, fun hp hok => ?_,
    fun hp hu => ?_, fun tier key f fs hp htr hfit hstill htier hq => ?_⟩
  · rw [exec_get, execGet, moverGet, hp]
    simp only [show translateRange (seenMem s.mem) (dVa d) (64 * dWords d) (tileParts s d.tile) false = .ok tier key from htr]
    exact congrArg Host.Outcome.next (deliver_of_reachable hpow hedge ..)
  · rw [exec_getw, execGetw, moverGetw, hp]
    simp only [show translateRange (seenMem s.mem) (dVa d) (64 * dWords d) (tileParts s d.tile) false = .ok tier key from htr]
    exact congrArg Host.Outcome.next (moverWrite_of_accepted hok ..)
  · have hop : dOp d = 1 := moverPick_op hp
    rw [exec_putm, execPutm, moverPutm, hp]
    simp only [show translateRange (seenMem s.mem) (dVa d) (64 * dWords d) (tileParts s d.tile) true = .ok tier key from htr]
    rfl
  · rw [exec_cget, execCget, moverCget, hp]
    rfl
  · rw [exec_cput, execCput, moverCput, hp]
    simp only [hok]
    rfl
  · exact ⟨fun hc => congrArg Host.Outcome.next (moverCord_starts hp hu hc), fun hc =>
      congrArg Host.Outcome.next (moverCord_starts hp hu hc), fun hc => congrArg Host.Outcome.next (moverCord_starts hp hu hc)⟩
  · exact congrArg Host.Outcome.next (moverMigrate_starts hp htr hfit hstill htier hq)

/-- R211, R218: the refusal of a transfer of one of the statuses of R211. -/
theorem refuseXfer_untranslated {s : State} {st : Nat} (hst : isTransStatus st = true) (m op : Nat) (d : MDesc) (hop : op ≠ 5) :
    refuseXfer s m op d st = (let s1 := setMover s m (movError (moverOf s m) st op d.tile)
      let page := failPage (seenMem s.mem) (dVa d) (64 * dWords d) (tileParts s d.tile) (op == 1)
      let s2 := { s1 with mem := tmapFault s1.mem page st m ((partOfTile s d.tile).getD 0) }
      failTileStep (updTile s2 d.tile (fun t => slotEnd t op (dSlot d) true)) d.tile st) := by
  have h5 : (op == 1 || op == 5) = (op == 1) := by simp [hop]
  simp only [refuseXfer, hst, if_neg hop, h5, refusalEffect]
  rfl

theorem untranslatedTransferIsRefused : Sys2Proof.UntranslatedTransferIsRefused := by
  intro s m pos d enter st s1 refused hst
  have htrans : isTransStatus st = true := by
    rcases hst with rfl | rfl | rfl <;> rfl
  refine ⟨fun hp htr => ?_, fun hp htr => ?_, fun hp htr => ?_⟩
  · rw [exec_get, execGet, moverGet, hp]
    simp only [htr]
    exact congrArg Host.Outcome.next (refuseXfer_untranslated htrans m.val 0 d (by decide))
  · rw [exec_getw, execGetw, moverGetw, hp]
    simp only [htr]
    exact congrArg Host.Outcome.next (refuseXfer_untranslated htrans m.val 2 d (by decide))
  · rw [exec_putm, execPutm, moverPutm, hp]
    simp only [htr]
    exact congrArg Host.Outcome.next (refuseXfer_untranslated htrans m.val 1 d (by decide))

/-- Settles O57: the starts of each operation, and the refusal of an address that does not translate. -/
theorem moversStartOrRefuse : Obligations.MoversStartOrRefuse := ⟨moversStartTheirOperations, untranslatedTransferIsRefused⟩

/-! Migrations (R212, R213, R222). -/

theorem kilnReturn_tmap (m : MemState) (tier frame : Nat) : (kilnReturn m tier frame).tmap = m.tmap := by
  unfold kilnReturn
  split
  · rfl
  · split <;> rfl

theorem tmapGet_unmapNow (m : MemState) (page : Nat) (zero : Bool) : tmapGet (unmapNow m page zero) page = 0 := by
  rw [unmapNow, tmapGet, kilnReturn_tmap]
  exact (tmapGet_tmapSet _ page page 0).trans (if_pos rfl)

theorem unmapWaiting_of_waits {m : MemState} {page : Nat} {u : Nat × Bool} (h : m.unmapWait.find? (fun u => u.1 == page) = some u) :
    unmapWaiting m page = unmapNow { m with unmapWait := m.unmapWait.filter (fun v => v.1 != page) } page u.2 := by
  simp only [unmapWaiting, h]

/-- R213: an unmap of a moving page waits. -/
theorem unmapPage_of_moving {s : State} {page : Nat} (hv : teValid (tmapGet s.mem page) = true) (hm : teMoving (tmapGet s.mem page) = true)
    (zero : Bool) : unmapPage s page zero = { s with mem := { s.mem with
      unmapWait := s.mem.unmapWait.filter (fun u => u.1 != page) ++ [(page, zero || s.mem.unmapWait.contains (page, true))] } } := by
  simp only [unmapPage, hv, hm]
  rfl

/-- R222: the copy that a tile's MIGRATE asked for ends where no write to the page is on its way. -/
theorem copyDone_mover {s : State} {page m enter : Nat} {g : Migr} {d : MDesc}
    (hg : s.mem.migr.find? (fun g => g.page == page && g.who != .retire) = some g) (hw : g.who = .mover m d enter)
    (hq : pageQuiet s page = true) : copyDone s page false = moverCopyDone s g m d enter := by
  simp only [copyDone, hg, hq, hw]
  rfl

/-- R212: the mover's turn among the Tier Map updates of the cycle is not over. -/
theorem tmapTurn_of_turn {s : State} {m : Nat} (h : s.mem.tmapBy ≤ m + 1) : tmapTurn s m = s := if_neg (Nat.not_lt.mpr h)

theorem migrSwitch_mover {s : State} {g : Migr} {m enter : Nat} {d : MDesc} (hw : g.who = .mover m d enter) (hturn : s.mem.tmapBy ≤ m + 1)
    (bad : List Nat) :
    migrSwitch s g bad = { s with mem := unmapWaiting { tmapSetBy (copyFrame s.mem g bad) m g.page
      (migrEntry (copyFrame s.mem g bad) g) with migr := (copyFrame s.mem g bad).migr.erase g } g.page } := by
  have hp : migrParty g = m := by simp [migrParty, hw]
  simp only [migrSwitch, hp, tmapTurn_of_turn hturn]

/-- Settles O23: the end of a copy, its release, the unmap that waits for it, and the refill. -/
theorem migrationSwitchesTheFrame : Obligations.MigrationSwitchesTheFrame := by
  intro s page
  refine ⟨?_, fun r hr => ?_, fun zero hv hm => ?_, fun u hu => ?_, fun tier frames hlow hstat => ?_⟩
  · intro g m d enter hg hw hq hturn m1 m2
    have hpage : g.page = page := by
      have hfound := List.find?_some hg
      simp only [Bool.and_eq_true, beq_iff_eq] at hfound
      exact hfound.1
    subst hpage
    refine congrArg (fun z => Host.Outcome.next (drainPorts z)) ?_
    rw [copyDone_mover hg hw hq, moverCopyDone, migrSwitch_mover hw hturn]
    rfl
  · rw [exec_oldFrameRelease, execOldFrameRelease, hr]
  · rw [unmapPage_of_moving hv hm]
    refine ⟨rfl, ?_⟩
    simp
  · rw [unmapWaiting_of_waits hu]
    exact ⟨rfl, tmapGet_unmapNow ..⟩
  · rw [exec_freeQueueRefill, execFreeQueueRefill, whileKiln, if_neg hstat, if_pos hlow]

/-! Memory errors (R224 to R228). -/

theorem pagesOf_countUe (m : MemState) (tier f : Nat) : pagesOf (countUe m tier f) tier f = pagesOf m tier f := by
  unfold pagesOf countUe setMemDev
  split <;> rfl

theorem pagesOf_countCe (m : MemState) (tier f n : Nat) : pagesOf (countCe m tier f n) tier f = pagesOf m tier f := by
  unfold pagesOf countCe setMemDev
  split <;> rfl

theorem countUe_scrubBad (m : MemState) (tier f : Nat) : (countUe m tier f).scrubBad = m.scrubBad := by
  unfold countUe setMemDev
  split <;> rfl

theorem frameBad_unmapped {s : State} {tier f : Nat} (h : pagesOf s.mem tier f = []) (corrected : Bool) :
    frameBad s tier f corrected = retire s tier f := by simp only [frameBad, h]

theorem frameBad_mapped {s : State} {tier f page : Nat} {ps : List Nat} (h : pagesOf s.mem tier f = page :: ps) (corrected : Bool) :
    frameBad s tier f corrected = startRetire s page (if corrected then .kiln else .retire) := by simp only [frameBad, h]

/-- R225: what Kiln and the reduction engines do with an error that they meet is nothing but the path of its frame. -/
theorem memUncorrectable_kiln (s : State) {who : UeWho} (hw : who = .kiln ∨ ∃ g, who = .engine g) (tier f : Nat) :
    memUncorrectable s who tier f = frameBad { s with mem := countUe s.mem tier f } tier f false := by
  rcases hw with rfl | ⟨g, rfl⟩ <;> rfl

theorem foldl_add_eq_sum (l : List (Nat × Nat × Nat × Nat)) (k : Nat) :
    l.foldl (fun k e => k + e.2.2.2) k = k + (l.map (·.2.2.2)).sum := by
  induction l generalizing k with
  | nil => rfl
  | cons e l ih => rw [List.foldl_cons, ih, List.map_cons, List.sum_cons, Nat.add_assoc]

/-- R227: the corrected errors of a frame within 24 hours, with n more. -/
theorem ceOver_reportCe (s : State) (tier f n : Nat) :
    ceOver (reportCe s tier f n) tier f = decide (8 ≤ (((s.mem.ceLog.filter (fun e => decide (s.clock < e.2.2.1 + 138240000000000))).filter
      (fun e => e.1 == tier && e.2.1 == f)).map (·.2.2.2)).sum + n) := by
  unfold ceOver reportCe
  simp only [List.filter_append, foldl_add_eq_sum, List.map_append, List.sum_append]
  simp

theorem exec_correctedErrorLimit_eq {s : State} {tier : Fin 2} {f : Nat} (hf : f < tierFrames tier.val (ddrFitted s)) (n : Nat) :
    exec (.correctedErrorLimit tier ⟨f, n⟩) s = .next (if !ceOver (reportCe s tier.val f n) tier.val f || isRetired s.mem tier.val f
      then reportCe s tier.val f n else frameBad (reportCe s tier.val f n) tier.val f true) := by
  rw [exec_correctedErrorLimit, execCorrectedErrorLimit, if_neg (Nat.not_le.mpr hf)]

theorem exec_correctedErrorLimit_over {s : State} {tier : Fin 2} {f n : Nat} (hf : f < tierFrames tier.val (ddrFitted s))
    (hover : ceOver (reportCe s tier.val f n) tier.val f = true) (hnew : isRetired s.mem tier.val f = false) :
    exec (.correctedErrorLimit tier ⟨f, n⟩) s = .next (frameBad (reportCe s tier.val f n) tier.val f true) := by
  rw [exec_correctedErrorLimit_eq hf, hover, hnew]
  rfl

theorem exec_memUncorrectable_kiln {s : State} {who : UeWho} (hw : who = .kiln ∨ ∃ g, who = .engine g) {tier : Fin 2} {f : Nat}
    (hf : f < tierFrames tier.val (ddrFitted s)) :
    exec (.memUncorrectable who tier f) s
      = .next (drainPorts (frameBad { s with mem := countUe s.mem tier.val f } tier.val f false)) := by
  rw [exec_memUncorrectable, execMemUncorrectable, if_neg (Nat.not_le.mpr hf), memUncorrectable_kiln s hw]

/-- Settles O24: what is counted, then the path of the frame, mapped or not. -/
theorem memoryErrorsRetireFrames : Obligations.MemoryErrorsRetireFrames := by
  intro s tier f hf su day total sc
  refine ⟨fun n hfew => ?_, fun hnone => ⟨fun who hw => ?_, ?_, fun n hmany hnew => ?_⟩, fun page ps hpages => ⟨fun who hw => ?_, fun n hmany hnew => ?_,
    fun hidle => ?_, fun c hc => ?_⟩, fun page bad g hg hq hstat => ?_, fun page hnone => ?_, fun page c hone hrun => ?_, fun page c r hone hrun hcord => ?_,
    fun page c r k hone hrun hcord => ?_⟩
  · rw [exec_correctedErrorLimit_eq hf]
    have hstay : (!ceOver (reportCe s tier.val f n) tier.val f || isRetired s.mem tier.val f) = true := by
      rcases hfew with h | h
      · rw [ceOver_reportCe, decide_eq_false (Nat.not_le.mpr h)]
        rfl
      · rw [h, Bool.or_true]
    rw [if_pos hstay]
    rfl
  · rw [exec_memUncorrectable_kiln hw hf, frameBad_unmapped ((pagesOf_countUe ..).trans hnone)]
  · rw [exec_scrubError, execScrubError, if_neg (Nat.not_le.mpr hf), hnone]
  · rw [exec_correctedErrorLimit_over hf ((ceOver_reportCe ..).trans (decide_eq_true hmany)) hnew,
      frameBad_unmapped ((pagesOf_countCe s.mem tier.val f n).trans hnone)]
    rfl
  · rw [exec_memUncorrectable_kiln hw hf, frameBad_mapped ((pagesOf_countUe ..).trans hpages)]
    rfl
  · rw [exec_correctedErrorLimit_over hf ((ceOver_reportCe ..).trans (decide_eq_true hmany)) hnew,
      frameBad_mapped ((pagesOf_countCe s.mem tier.val f n).trans hpages)]
    rfl
  · rw [exec_scrubError, execScrubError, if_neg (Nat.not_le.mpr hf), hpages]
    simp only [hidle]
    rfl
  · rw [exec_scrubError, execScrubError, if_neg (Nat.not_le.mpr hf), hpages]
    simp only [hc, Option.isSome_some, countUe_scrubBad, if_true]
  · rw [exec_retirementCopy, execRetirementCopy, whileKiln, if_neg hstat, retirementCopy, hg]
    simp only [hq]
    rfl
  · rw [exec_tmapEccError, execTmapEccError, hnone]
    rfl
  · rw [exec_tmapEccError, execTmapEccError, hone]
    have hno : ¬ (ctxOf s c).run.isSome = true := by simp [hrun]
    simp only [List.foldl_cons, List.foldl_nil, if_neg hno]
    rfl
  · rw [exec_tmapEccError, execTmapEccError, hone]
    simp only [List.foldl_cons, List.foldl_nil, hrun, hcord]
    rfl
  · rw [exec_tmapEccError, execTmapEccError, hone]
    simp only [List.foldl_cons, List.foldl_nil, hrun, hcord]
    rfl

end Sys2Proof.Machine
end

section
/-! SUPPORT. The states of a link port (O53, O54): each event is one change of its port, or of the ports of a laser or blade, and what follows
such a change on the module depends on the new ports alone. -/

namespace Sys2Proof.Machine

theorem next_linkStep {s : State} {l : Nat} {f : LinkPort → LinkPort} {p : LinkPort} (h : f (portOf s.lk l) = p) :
    (.next (linkStep s l f) : Host.Outcome State Fault Refusal) = Sys2Proof.portNow s l p := by
  subst h
  rfl

theorem linksStep_congr {s : State} {f g : LinkState → LinkState} (h : f s.lk = g s.lk) (ls : List Nat) : linksStep s ls f = linksStep s ls g := by
  simp only [linksStep, updLinks, h]

theorem isUpOrPaused_iff (p : LinkPort) : isUpOrPaused p = true ↔ p.st = 3 ∨ p.st = 4 := by
  simp [isUpOrPaused, lsUp, lsPaused]

theorem linkLit_of_lasers {k : LinkState} {l : Nat} (h : ∀ w < 4, laserLit k l w = true) : linkLit k l = true :=
  List.all_eq_true.mpr (fun w hw => h w (List.mem_range.mp hw))

/-- R256: a retrain, or the fence in its place. -/
theorem retrain_eq (p : LinkPort) (clock : Nat) : retrain p clock =
    (let r := p.retrains.filter (fun t => decide (clock < t + 96000000000))
     let held := p.leftUp || p.st == 3 || p.st == 4
     if 6 ≤ r.length then
        sendOwn { p with
          retrains := r, st := 5, fenceLeft := 600, fenceAt := clock, peerFence := false, leftUp := held
          dark := 0, resync := false, noSignal := false } (.fence 600)
      else { Sys2Proof.calmPort p with
        st := 1, leftUp := held, fullTrain := p.savedSet.isNone, retrains := r ++ [clock], total := min (p.total + 1) 0x3FFF }) := rfl

theorem retrainOrFence : Sys2Proof.RetrainOrFence := by
  intro s l p r held after
  have hafter : retrain p s.clock = after := retrain_eq p s.clock
  refine ⟨fun hst => ⟨next_linkStep ?_, next_linkStep ?_⟩, fun hst hno => next_linkStep ?_⟩
  · exact (if_pos hst).trans hafter
  · exact (if_pos hst).trans hafter
  · exact (if_pos ⟨hst, hno⟩).trans hafter

theorem trainingComplete_ok {p : LinkPort} (hst : p.st = lsTraining) {rtt : Nat} (h : rtt ≤ 512) :
    trainingComplete p true rtt = { p with st := 2, rtt := rtt, saved := !p.fullTrain, cause := 0 } := by
  rw [trainingComplete, if_neg (not_not_intro hst), if_neg (by decide), if_neg (Nat.not_lt.mpr h)]
  rfl

theorem trainingComplete_long {p : LinkPort} (hst : p.st = lsTraining) {rtt : Nat} (h : 512 < rtt) :
    trainingComplete p true rtt = { p with st := 6, rtt := min rtt 1023, saved := !p.fullTrain } := by
  rw [trainingComplete, if_neg (not_not_intro hst), if_neg (by decide), if_pos h]
  rfl

theorem trainingComplete_failed {p : LinkPort} (hst : p.st = lsTraining) (rtt : Nat) : trainingComplete p false rtt =
    if p.fullTrain then { Sys2Proof.calmPort p with st := 0, cause := 1, saved := false }
    else { p with fullTrain := true, saved := false } := by
  have hleft : (p.leftUp || p.st == lsUp || p.st == lsPaused) = p.leftUp := by simp [hst, lsTraining, lsUp, lsPaused]
  rw [trainingComplete, if_neg (not_not_intro hst), if_pos (by decide), goDown, hleft]
  rfl

theorem trainingEndsInItsState : Sys2Proof.TrainingEndsInItsState := by
  intro s l p calm
  refine ⟨fun hup hst hcause hlit => next_linkStep ?_, fun hst hno => next_linkStep ?_, fun hup ok rtt => ?_, fun hup hst rtt => ?_,
    fun hst => next_linkStep ?_, fun hst => next_linkStep ?_⟩
  · exact if_pos ⟨hup, hst, hcause, linkLit_of_lasers hlit⟩
  · refine if_neg (fun ⟨_, _, hcause, hlit⟩ => ?_)
    rcases hno with h | h
    · exact hcause h
    · exact Bool.false_ne_true (h.symm.trans hlit)
  · rw [exec_trainingComplete, execTrainingComplete, hup]
    rfl
  · have hexec (ok : Bool) : exec (.trainingComplete l ok rtt) s = Sys2Proof.portNow s l.val (trainingComplete p ok rtt) := by
      rw [exec_trainingComplete, execTrainingComplete, if_pos hup]
      exact next_linkStep rfl
    refine ⟨fun h => ?_, fun h => ?_, fun hfull => ?_, fun hfull => ?_⟩
    · rw [hexec, trainingComplete_ok hst h]
    · rw [hexec, trainingComplete_long hst h]
    · rw [hexec, trainingComplete_failed hst, if_pos hfull]
    · rw [hexec, trainingComplete_failed hst, if_neg (Bool.eq_false_iff.mp hfull)]
  · exact if_pos hst
  · have hleft : (p.leftUp || p.st == lsUp || p.st == lsPaused) = true := by simp [hst, lsUp]
    refine (if_pos hst).trans ?_
    simp only [goDown]
    rw [show ((portOf s.lk l.val).leftUp || (portOf s.lk l.val).st == lsUp || (portOf s.lk l.val).st == lsPaused) = true from hleft]
    rfl

/-- Settles O53: each change of a port by the branch of its definition that its state takes. -/
theorem linksTrainRetrainAndFence : Obligations.LinksTrainRetrainAndFence := ⟨retrainOrFence, trainingEndsInItsState⟩

/-! Lasers (R239 to R242). -/

/-- R240: an active laser whose spare is free and works is replaced. -/
theorem laserFail_spare {k : LinkState} {b laser : Nat} (hact : laser < 16) (hp : (bladeOf k b).present = true)
    (hf : (bladeOf k b).lfail.testBit laser = false) (hu : (bladeOf k b).spareUsed.testBit (laser % 4) = false)
    (hb : (bladeOf k b).spareBad.testBit (laser % 4) = false) :
    laserFail k b laser = updPorts (setBlade k b { bladeOf k b with
        lfail := (bladeOf k b).lfail + 2 ^ laser, spareUsed := (bladeOf k b).spareUsed + 2 ^ (laser % 4)
        spareFor := smSet 0 (bladeOf k b).spareFor (laser % 4) laser }) (laserLinks b laser) (fun p => laserPause p (laser % 4)) := by
  simp only [laserFail, hp, hf, hu, hb, if_neg (Nat.not_le.mpr hact)]
  rfl

/-- R242: an active laser whose spare is used or has failed leaves its links dark. -/
theorem laserFail_dark {k : LinkState} {b laser : Nat} (hact : laser < 16) (hp : (bladeOf k b).present = true)
    (hf : (bladeOf k b).lfail.testBit laser = false)
    (h : (bladeOf k b).spareUsed.testBit (laser % 4) = true ∨ (bladeOf k b).spareBad.testBit (laser % 4) = true) :
    laserFail k b laser
      = updPorts (setBlade k b { bladeOf k b with lfail := (bladeOf k b).lfail + 2 ^ laser }) (laserLinks b laser) noLight := by
  have hor : ((bladeOf k b).spareUsed.testBit (laser % 4) || (bladeOf k b).spareBad.testBit (laser % 4)) = true := by simpa using h
  simp only [laserFail, hp, hf, hor, if_neg (Nat.not_le.mpr hact)]
  rfl

theorem laserFail_of_spare {k : LinkState} {b w : Nat} (hp : (bladeOf k b).present = true) (hb : (bladeOf k b).spareBad.testBit w = false) :
    laserFail k b (16 + w) = (let k1 := setBlade k b { bladeOf k b with spareBad := (bladeOf k b).spareBad + 2 ^ w }
      if (bladeOf k b).spareUsed.testBit w then updPorts k1 (laserLinks b (smGet 0 (bladeOf k b).spareFor w)) noLight else k1) := by
  simp only [laserFail, hp, if_pos (Nat.le_add_right 16 w), Nat.add_sub_cancel_left, hb]
  rfl

theorem failLinks_active (s : State) (b : Nat) {laser : Nat} (h : laser < 16) : failLinks s b laser = laserLinks b laser :=
  if_neg (Nat.not_le.mpr h)

theorem failLinks_spare (s : State) (b w : Nat) : failLinks s b (16 + w) = laserLinks b (smGet 0 (bladeOf s.lk b).spareFor w) := by
  rw [failLinks, if_pos (Nat.le_add_right 16 w), Nat.add_sub_cancel_left]

theorem laserPause_eq (w : Nat) : (fun p => laserPause p w)
    = fun q => if q.st = 3 ∨ q.st = 4 then { q with st := 4, dark := q.dark ||| 2 ^ w, resync := false } else q := by
  funext q
  simp only [laserPause, isUpOrPaused_iff]
  rfl

/-- R242: what a failed laser does to its module, from what it does to the links. -/
theorem exec_laserFail_eq {s : State} {b : Fin 6} {laser : Fin 20} {ls : List Nat} {k : LinkState} (hls : failLinks s b.val laser.val = ls)
    (hk : laserFail s.lk b.val laser.val = k) (wear : Bool) :
    exec (.laserFail b laser wear) s = .next (logSwap s (linksStep s ls (fun _ => k)) b.val laser.val wear) := by
  rw [exec_laserFail, execLaserFail, hls]
  exact congrArg (fun y => Host.Outcome.next (logSwap s y b.val laser.val wear)) (linksStep_congr hk ls)

theorem unpause_eq (p : LinkPort) (clock : Nat) (hst : p.st = 4) (hsig : p.noSignal = false) :
    unpause p clock = if p.dark = 0 ∧ p.resync = false then resendAll { p with st := 3 } clock else p := by
  simp only [unpause, hst, hsig, lsPaused, Bool.not_eq_true]
  simp
  rfl

theorem unpause_resynced (p : LinkPort) (clock : Nat) (hst : p.st = 4) (hres : p.resync = false) :
    unpause p clock = if p.dark = 0 ∧ p.noSignal = false then resendAll { p with st := 3 } clock else p := by
  simp only [unpause, hst, hres, lsPaused, Bool.not_eq_true]
  simp
  rfl

theorem signalAndLaserEvents : Sys2Proof.SignalAndLaserEvents := by
  intro s
  refine ⟨fun l => ?_, fun b laser wear => ?_, fun b w wear => ?_⟩
  · intro p owed
    refine ⟨fun hst => next_linkStep ?_, fun h3 h4 => next_linkStep ?_, fun hst => next_linkStep ?_, fun hst hres => ?_, fun hres => ?_⟩
    · exact if_pos ((isUpOrPaused_iff p).mpr hst)
    · exact if_neg (fun h => ((isUpOrPaused_iff p).mp h).elim h3 h4)
    · exact unpause_eq _ s.clock hst rfl
    · rw [exec_resyncDone, execResyncDone, if_pos hres]
      exact next_linkStep (unpause_resynced _ s.clock hst rfl)
    · rw [exec_resyncDone, execResyncDone, if_neg (Bool.eq_false_iff.mp hres)]
  · intro x w fed hp hf
    refine ⟨fun hu hb => ?_, fun hdark => ?_⟩
    · have key := exec_laserFail_eq (laser := ⟨laser.val, by omega⟩) (failLinks_active s b.val laser.isLt)
        (laserFail_spare laser.isLt hp hf hu hb) wear
      rw [laserPause_eq] at key
      exact key
    · have key := exec_laserFail_eq (laser := ⟨laser.val, by omega⟩) (failLinks_active s b.val laser.isLt)
        (laserFail_dark laser.isLt hp hf hdark) wear
      exact key
  · intro x was served
    refine ⟨fun hp hb => ?_, fun hu => ?_, fun hu => ?_⟩
    · have key := exec_laserFail_eq (laser := ⟨16 + w.val, by omega⟩) (failLinks_spare s b.val w.val) (laserFail_of_spare hp hb) wear
      exact key
    · rw [exec_spareLaserStable, execSpareLaserStable, if_pos hu]
      rfl
    · rw [exec_spareLaserStable, execSpareLaserStable, if_neg (Bool.eq_false_iff.mp hu)]

/-! Blades (R243, R259, R474). -/

theorem exec_bladeInserted_eq {s : State} {b : Fin 6} {k : LinkState}
    (hk : bladeInserted s.lk b.val (useSaved s) (kilnTrains s) = k) :
    exec (.bladeInserted b) s = .next (linksStep s (bladeLinks b.val) (fun _ => k)) := by
  rw [exec_bladeInserted, execBladeInserted]
  exact congrArg Host.Outcome.next (linksStep_congr hk _)

theorem exec_bladeDrawn_eq {s : State} {b : Fin 6} {k : LinkState} (hk : bladeDrawn s.lk b.val = k) :
    exec (.bladeDrawn b) s = .next (linksStep s (bladeLinks b.val) (fun _ => k)) := by
  rw [exec_bladeDrawn, execBladeDrawn]
  exact congrArg Host.Outcome.next (linksStep_congr (f := fun k => bladeDrawn k b.val) (g := fun _ => k) hk _)

theorem bladesComeAndGo : Sys2Proof.BladesComeAndGo := by
  intro s b ls x whole
  refine ⟨?_, fun hp hs hup hstage => ?_, fun hp hs hno => ?_, fun hp hs => ?_, fun hp => ?_, fun hp => ?_, fun hp => ?_⟩
  · have hdrawn : bladeDrawn s.lk b.val = updPorts (setBlade s.lk b.val { x with present := false, stuck := false }) ls
        (fun p => if p.st = 7 then p else { Sys2Proof.calmPort p with st := 0, cause := 2, leftUp := p.leftUp || p.st == 3 || p.st == 4 }) :=
      congrArg (updPorts _ _) (funext fun p => rfl)
    have key := exec_bladeDrawn_eq hdrawn
    exact key
  · have htrains : kilnTrains s = true := by simp [kilnTrains, hup, hstage]
    refine exec_bladeInserted_eq ?_
    rw [bladeInserted, if_neg (Bool.eq_false_iff.mp hp), if_neg (Bool.eq_false_iff.mp hs), htrains]
    exact congrArg (updPorts _ _) (funext fun p => rfl)
  · have htrains : kilnTrains s = false := by
      rcases hno with h | h
      · simp [kilnTrains, h]
      · simp [kilnTrains, h]
    refine exec_bladeInserted_eq ?_
    rw [bladeInserted, if_neg (Bool.eq_false_iff.mp hp), if_neg (Bool.eq_false_iff.mp hs), htrains]
    exact congrArg (updPorts _ _) (funext fun p => rfl)
  · refine exec_bladeInserted_eq ?_
    rw [bladeInserted, if_neg (Bool.eq_false_iff.mp hp), if_pos hs]
    rfl
  · refine exec_bladeInserted_eq ?_
    rw [bladeInserted, if_pos hp]
  · rw [exec_bladeSeatTimeout, execBladeSeatTimeout, updLinks, if_neg (Bool.eq_false_iff.mp hp)]
  · rw [exec_bladeSeatTimeout, execBladeSeatTimeout, updLinks, if_pos hp]

/-- Settles O54: what each event makes of the blade's record and of the ports that it lights. -/
theorem lightLasersAndBlades : Obligations.LightLasersAndBlades := ⟨signalAndLaserEvents, bladesComeAndGo⟩

end Sys2Proof.Machine
end

section
/-! SUPPORT. What a port sends and admits, and what it does with a received frame (O58, O59). -/

namespace Sys2Proof.Machine

/-! Sending (R241, R248 to R250, R256, R257, R311). -/

theorem exec_flitBoundary_up {s : State} {l : Fin 96} (hst : (portOf s.lk l.val).st = 3) :
    exec (.flitBoundary l) s
      = .next (noteStamp (updLink s l.val (fun y => flitBoundary y ⟨s.clock, ftimeNs s.fab, s.fab.addr⟩)) l.val) := by
  rw [exec_flitBoundary, execFlitBoundary, if_pos (show (portOf s.lk l.val).st = lsUp from hst)]

theorem exec_flitBoundary_paused {s : State} {l : Fin 96} (hst : (portOf s.lk l.val).st = 4) :
    exec (.flitBoundary l) s = .next (if (portOf s.lk l.val).dark = 0 ∧ (portOf s.lk l.val).resync = false then
      updLink s l.val (fun y => sendFrame y idleFlit) else s) := by
  have hpaused : (portOf s.lk l.val).st = lsPaused := hst
  have hup : lsPaused ≠ lsUp := by decide
  have hfence : lsPaused ≠ lsFenced := by decide
  simp only [exec_flitBoundary, execFlitBoundary, if_neg hup, if_neg hfence, hpaused, true_and, Bool.not_eq_true]

theorem sendOwn_of_room {p : LinkPort} (h : p.retry.length < 512) (k : Packet) :
    sendOwn p k = sendNumbered p 0 ⟨0, 0, some k, 0⟩ := if_pos (by simp [retryRoom, h])

theorem peerUnreached_of_none_up {s : State} {l : Nat} (hk : (portOf s.lk l).known = true)
    (h : ∀ i < 96, (portOf s.lk i).known = true → (portOf s.lk i).peerUnit = (portOf s.lk l).peerUnit → (portOf s.lk i).st ≠ 3) :
    peerUnreached s l = true := by
  simp only [peerUnreached, hk, Bool.true_and, List.all_eq_true, List.mem_range]
  intro i hi
  by_cases hki : (portOf s.lk i).known = true
  · by_cases hu : (portOf s.lk i).peerUnit = (portOf s.lk l).peerUnit
    · have hst : (portOf s.lk i).st ≠ lsUp := h i hi hki hu
      simp [hst]
    · simp [hu]
  · simp [hki]

theorem takeRx_nil {s : State} {l : Nat} (h : (portOf s.lk l).rxPkts = []) (k : Packet) : takeRx s l k = s := by
  rw [takeRx, h]

theorem keepsTraffic_iff (n : Nat) : keepsTraffic n = true ↔ n = 3 ∨ n = 4 := by simp [keepsTraffic, lsUp, lsPaused]

theorem portsSendAndGiveUp : Sys2Proof.PortsSendAndGiveUp := by
  intro s l p x
  refine ⟨fun hst => ?_, fun hst => ?_, fun hst hdark hres => ?_, fun hst hwait => ?_, fun hst => ?_, fun k hroom => sendOwn_of_room hroom k,
    fun vc hst hheld => next_linkStep (if_pos ⟨hst, by simpa using hheld⟩), fun hleft h3 h4 => ?_, fun secs hrx hst hsecs => ?_, fun hstat hknown hnone => ?_,
    fun hunknown => ?_⟩
  · rw [exec_flitBoundary_up hst]
    rfl
  · have hremain : fenceRemaining p s.clock = p.fenceLeft - (s.clock - p.fenceAt) / 1600000000 := if_pos hst
    rw [exec_flitBoundary, execFlitBoundary]
    simp only [show (portOf s.lk l.val).st = lsFenced from hst, if_true, updLink, ← hremain]
    rfl
  · rw [exec_flitBoundary_paused hst, if_pos ⟨hdark, hres⟩]
    rfl
  · rw [exec_flitBoundary_paused hst, if_neg (fun ⟨hd, hr⟩ => hwait.elim (fun h => h hd) (fun h => Bool.false_ne_true (hr.symm.trans h)))]
  · rw [exec_identRecordSend, execIdentRecordSend, updLink, if_pos (show (portOf s.lk l.val).st = lsIdent from hst)]
  · have hkeep : keepsTraffic (portOf s.lk l.val).st = false :=
      Bool.eq_false_iff.mpr (fun h => ((keepsTraffic_iff _).mp h).elim h3 h4)
    rw [exec_retryBufferExpiry, execRetryBufferExpiry, if_pos (by simp [show (portOf s.lk l.val).leftUp = true from hleft, hkeep])]
    rfl
  · rw [exec_fence, execFence, takeRx_nil hrx]
    refine next_linkStep (if_pos ⟨hsecs, ?_⟩)
    rcases hst with h | h | h | h <;> rw [show (portOf s.lk l.val).st = _ from h] <;> decide
  · rw [exec_peerLost, execPeerLost, whileKiln, if_neg hstat, if_pos (peerUnreached_of_none_up hknown hnone)]
  · have hno : peerUnreached s l.val = false := by simp [peerUnreached, show (portOf s.lk l.val).known = false from hunknown]
    rw [exec_peerLost, execPeerLost, whileKiln, hno]
    exact congrArg Host.Outcome.next (ite_self s)

/-! Admission (R253, R255, R264, R265). -/

theorem takeIdent_in_ident {s : State} {l : Nat} {r : IdentRec} (hst : (portOf s.lk l).st = 2) (hpeer : wrongSaved (portOf s.lk l) r = false)
    (hlock : lockstepWaits (learnPeer s l r) l r = none) :
    takeIdent s l r = if admitOk (learnPeer s l r).fab l r then admitLink (learnPeer s l r) l else miswired (learnPeer s l r) l r := by
  have hident : ¬ (portOf s.lk l).st ≠ lsIdent := not_not_intro hst
  simp only [takeIdent, if_neg hident, hpeer, hlock]
  rfl

theorem identAdmitsTheNamedPeer : Sys2Proof.IdentAdmitsTheNamedPeer := by
  intro s l r p hrx
  refine ⟨fun hno => ?_, ?_⟩
  · rw [exec_ident, execIdent, takeRx_nil hrx]
    rcases hno with h | h
    · rw [h]
      rfl
    · have hstay : takeIdent s l.val r = s := if_pos h
      simp only [hstay, ite_self]
  · intro hup hst hpeer s1 hlock
    rw [exec_ident, execIdent, takeRx_nil hrx]
    simp only [hup, if_true]
    rw [takeIdent_in_ident hst hpeer hlock]
    exact ⟨fun hok => congrArg Host.Outcome.next (if_pos hok), fun hbad => congrArg Host.Outcome.next (if_neg (Bool.eq_false_iff.mp hbad))⟩

/-- Settles O58: the choice at a flit boundary by the port's state, and the admission of a peer by its record. -/
theorem portsSendAndAdmit : Obligations.PortsSendAndAdmit := ⟨portsSendAndGiveUp, identAdmitsTheNamedPeer⟩

/-! Receiving (R244, R246, R247, R249, R267). -/

@[simp] theorem setVc_st (p : LinkPort) (vc : Nat) (v : LinkVc) : (setVc p vc v).st = p.st := by
  unfold setVc
  split
  · rfl
  · split <;> rfl

@[simp] theorem takeAck_st (p : LinkPort) (vc ack : Nat) : (takeAck p vc ack).st = p.st := by
  unfold takeAck
  cases heldOf p vc with
  | nil => rfl
  | cons h hs =>
    simp only
    split
    · exact setVc_st ..
    · rfl

@[simp] theorem takeCredits_st (p : LinkPort) (vc n : Nat) : (takeCredits p vc n).st = p.st := by
  unfold takeCredits
  split
  · exact setVc_st ..
  · rfl

theorem takesFlit_of_up {p : LinkPort} (h : p.st = 3) (f : LFlit) : takesFlit p f = true := by
  unfold takesFlit
  split <;> simp [h, lsUp]

theorem readsLine_of_up {p : LinkPort} (h : p.st = 3) : readsLine p = true := by simp [readsLine, h, lsUp]

/-- R249: a flit in order. -/
theorem takeFlit_in_order {p : LinkPort} {f : LFlit} (hst : p.st = 3) (hvc : f.vc < 3) (hseq : f.seq = ((vcOf p f.vc).rxSeq + 1) % 4096) :
    takeFlit p f = (setVc p f.vc { vcOf p f.vc with rxSeq := f.seq, discard := false, freed := (vcOf p f.vc).freed + 1 }, some f) := by
  have hgo : ¬ (3 ≤ f.vc ∨ ¬ takesFlit p f = true) := fun h => h.elim (Nat.not_le.mpr hvc) (fun h => h (takesFlit_of_up hst f))
  simp only [takeFlit, if_neg hgo, if_pos hseq]

/-- R249: a flit out of order that is not read as it comes. -/
theorem takeFlit_out_of_order {p : LinkPort} {f : LFlit} (hst : p.st = 3) (hvc : f.vc < 3) (hseq : f.seq ≠ ((vcOf p f.vc).rxSeq + 1) % 4096)
    (hread : readAtOnce f = false) :
    takeFlit p f = (if (vcOf p f.vc).discard = true ∨ 2048 ≤ seqDist (vcOf p f.vc).rxSeq f.seq ∨ f.seq = (vcOf p f.vc).rxSeq then p
      else oweNak p f.vc, none) := by
  have hgo : ¬ (3 ≤ f.vc ∨ ¬ takesFlit p f = true) := fun h => h.elim (Nat.not_le.mpr hvc) (fun h => h (takesFlit_of_up hst f))
  simp only [takeFlit, if_neg hgo, if_neg hseq, hread]
  rfl

theorem readAtOnce_of_other {f : LFlit} (hi : ∀ r, f.pkt ≠ some (.ident r)) (hf : ∀ t, f.pkt ≠ some (.fence t)) : readAtOnce f = false := by
  unfold readAtOnce
  split
  · next r h => exact absurd h (hi r)
  · next t h => exact absurd h (hf t)
  · rfl

theorem exec_linkFlitReceive_kept {s : State} {l : Fin 96} {f : LFrame} {e : LineErr} {p : LinkPort}
    (h : receiveFrame (portOf s.lk l.val) (readLine f e).1 (readLine f e).2 s.clock = (p, none)) :
    exec (.linkFlitReceive l ⟨f, e⟩) s = Sys2Proof.portNow s l.val p := by
  simp only [exec_linkFlitReceive, execLinkFlitReceive, h]
  rfl

theorem exec_linkFlitReceive_passed {s : State} {l : Fin 96} {f : LFrame} {e : LineErr} {p : LinkPort} {g : LFlit}
    (h : receiveFrame (portOf s.lk l.val) (readLine f e).1 (readLine f e).2 s.clock = (p, some g)) :
    exec (.linkFlitReceive l ⟨f, e⟩) s = .next (crossFlit (linkStep s l.val (fun _ => p)) l.val g) := by
  simp only [exec_linkFlitReceive, execLinkFlitReceive, h]

/-- R246, R249: a good frame of a class in use whose acknowledgement is no NAK. -/
theorem receiveFrame_good {p : LinkPort} {g : LFrame} {n : Nat} (hst : p.st = 3) (hcls : g.cls < 11) (hnak : g.nak = false) (clock : Nat) :
    receiveFrame p g (.good n) clock
      = takeFlit (takeCredits (takeAck { p with fec := satAdd32 p.fec n } g.ackVc g.ackSeq) g.crVc g.credits) g.flit := by
  simp only [receiveFrame, readsLine_of_up hst, if_neg (Nat.not_le.mpr hcls), hnak]
  rfl

theorem receiveFrame_reserved {p : LinkPort} {g : LFrame} (hst : p.st = 3) (hcls : 11 ≤ g.cls) (n clock : Nat) :
    receiveFrame p g (.good n) clock = ({ p with fec := satAdd32 p.fec n, bad := satAdd32 p.bad 1 }, none) := by
  simp only [receiveFrame, readsLine_of_up hst, if_pos hcls]
  rfl

theorem receiveFrame_bad {p : LinkPort} (hst : p.st = 3) (g : LFrame) (ok : Bool) (clock : Nat) :
    receiveFrame p g (.bad ok) clock = (takeBad p g ok, none) := by
  simp only [receiveFrame, readsLine_of_up hst]
  rfl

theorem framesAreReadInOrder : Sys2Proof.FramesAreReadInOrder := by
  intro s l f g e n p p1 q
  refine ⟨fun hclean => ?_, fun hst hread => ⟨fun hcls => ?_, fun hcls hnak hvc => ?_⟩, fun hst hread hvc => ?_, ?_⟩
  · obtain ⟨flips, ok⟩ := e
    obtain rfl : flips = [] := hclean
    exact readLine_clean f ok
  · exact exec_linkFlitReceive_kept (by rw [hread]; exact receiveFrame_reserved hst hcls n s.clock)
  · have hq : q.st = 3 := by simp [q, p1, hst]
    have hrec : receiveFrame (portOf s.lk l.val) (readLine f e).1 (readLine f e).2 s.clock = takeFlit q g.flit := by
      rw [hread]
      exact receiveFrame_good hst hcls hnak s.clock
    refine ⟨fun hseq => exec_linkFlitReceive_passed (hrec.trans (takeFlit_in_order hq hvc hseq)), fun hseq hi hf => ⟨fun hd hdist hne => ?_, fun hold => ?_⟩⟩
    · have hgap : ¬ ((vcOf q g.flit.vc).discard = true ∨ 2048 ≤ seqDist (vcOf q g.flit.vc).rxSeq g.flit.seq
          ∨ g.flit.seq = (vcOf q g.flit.vc).rxSeq) := by
        rintro (h | h | h)
        · exact Bool.false_ne_true (hd.symm.trans h)
        · exact Nat.not_le.mpr hdist h
        · exact hne h
      exact exec_linkFlitReceive_kept (hrec.trans ((takeFlit_out_of_order hq hvc hseq (readAtOnce_of_other hi hf)).trans
        (by rw [if_neg hgap]; rfl)))
    · exact exec_linkFlitReceive_kept (hrec.trans ((takeFlit_out_of_order hq hvc hseq (readAtOnce_of_other hi hf)).trans (by rw [if_pos hold])))
  · refine exec_linkFlitReceive_kept ?_
    rw [hread]
    refine (receiveFrame_bad hst g true s.clock).trans ?_
    simp only [takeBad, if_pos hvc]
    rfl
  · intro hst hread owed
    refine exec_linkFlitReceive_kept ?_
    rw [hread]
    exact receiveFrame_bad hst g false s.clock

/-! The crossbar (R249, R272). -/

theorem passFlit_more {s : State} {l : Nat} {c : CutPkt} {i : Nat} (h : i + 1 < packetFlits c.out) :
    passFlit s l c i = { s with lk := setPort s.lk c.link (portFlit (portOf s.lk c.link) c.vc c.out i) } := if_pos h

theorem crossbarTakesFlits : Sys2Proof.CrossbarTakesFlits := by
  intro s l k vc seq i
  refine ⟨fun hb => ?_, fun m v dtr hb hlock hroute hlen hsame => ?_, fun c hb hi hc hmore => ?_⟩
  · simp only [crossFlit, hb]
    rfl
  · have hpartner : onPartner s l = false := hlock
    simp only [crossFlit, hb, hpartner, hroute]
    exact passFlit_more (by rw [hsame]; exact hlen)
  · simp only [crossFlit, hb, if_neg hi, hc]
    exact passFlit_more hmore

/-- Settles O59: the receipt of a frame, then the crossbar. -/
theorem receivedFlitsInOrder : Obligations.ReceivedFlitsInOrder := ⟨framesAreReadInOrder, crossbarTakesFlits⟩

end Sys2Proof.Machine
end

section
/-! SUPPORT. Packets, completions, time and barriers of the fabric (O27 to O30). -/

namespace Sys2Proof.Machine

/-! Taking what a port has received changes the port only. -/

@[simp] theorem takeRx_fab (s : State) (l : Nat) (k : Packet) : (takeRx s l k).fab = s.fab := by
  unfold takeRx
  split
  · split <;> rfl
  · rfl

@[simp] theorem takeRx_clock (s : State) (l : Nat) (k : Packet) : (takeRx s l k).clock = s.clock := by
  unfold takeRx
  split
  · split <;> rfl
  · rfl

@[simp] theorem takeRxCompl_clock (s : State) (x : Compl) : (takeRxCompl s x).clock = s.clock := by
  unfold takeRxCompl
  split <;> rfl

/-! Bulk packets (R267 to R284). -/

theorem exec_bulkRow (cls : PClass) (l : Fin 96) (h : PktHdr) (ws : List (List Byte)) (s : State) :
    exec (Sys2Proof.bulkRow cls l h ws) s = .next (bulkOn s l.val cls h ws) := by
  cases cls <;> rfl

theorem bulkOn_partner {s : State} {l : Nat} (hl : (portOf s.lk l).lockstep = true) (cls : PClass) (h : PktHdr) (ws : List (List Byte)) :
    bulkOn s l cls h ws = takeRx s l (.bulk cls h ws) := if_pos hl

theorem bulkOn_other {s : State} {l : Nat} (hl : (portOf s.lk l).lockstep = false) (cls : PClass) (h : PktHdr) (ws : List (List Byte)) :
    bulkOn s l cls h ws = receiveBulk (takeRx s l (.bulk cls h ws)) cls h ws := if_neg (Bool.eq_false_iff.mp hl)

theorem receiveBulk_link {s : State} {cls : PClass} {h : PktHdr} {ws : List (List Byte)} {k vc : Nat} {dtr : Bool}
    (hr : routePacket s (.bulk cls h ws) = .link k vc dtr) :
    receiveBulk s cls h ws = pushLink s k vc (.bulk cls { h with dtr := dtr } ws) := by
  rw [receiveBulk, hr]

theorem receiveBulk_refuse {s : State} {cls : PClass} {h : PktHdr} {ws : List (List Byte)} {st : Nat}
    (hr : routePacket s (.bulk cls h ws) = .refuse st) : receiveBulk s cls h ws = answer s h st := by
  rw [receiveBulk, hr]

theorem receiveBulk_here {s : State} {cls : PClass} {h : PktHdr} {ws : List (List Byte)}
    (hr : routePacket s (.bulk cls h ws) = .here) : receiveBulk s cls h ws = arriveBulk s cls h ws := by
  rw [receiveBulk, hr]

theorem arriveWrite_noCord {s : State} {h : PktHdr} (hc : cordHere s h .write = false) (ws : List (List Byte)) :
    arriveWrite s h ws = answer s h 0x29 := by
  simp [arriveWrite, hc]

theorem arriveWrite_lands {s : State} {h : PktHdr} (hc : cordHere s h .write = true)
    (ht : targetRefusal s (64 * h.trow + h.tcol) = none) (ws : List (List Byte)) :
    arriveWrite s h ws = ringWrite s h ws (.packet .write h ws) := by
  simp [arriveWrite, hc, ht]

theorem arriveWrite_refused {s : State} {h : PktHdr} {st : Nat} (hc : cordHere s h .write = true)
    (ht : targetRefusal s (64 * h.trow + h.tcol) = some st) (ws : List (List Byte)) :
    arriveWrite s h ws = answer s h st := by
  simp [arriveWrite, hc, ht]

/-- The state of a member that has forwarded its copies of a GATHER (R279). -/
def gatherForwarded (s : State) (h : PktHdr) (ws : List (List Byte)) : State :=
  let copies := gatherCopies s (cordOf s.fab h.cord) h ws (forwardPhases h.phase)
  copies.foldl (fun x q => forwardCopy x h q) (updFab s (fun f => { f with
    gathers := f.gathers ++ [⟨h.src, h.cord, h.srank, h.tag, true, copies.length, 0⟩] }))

theorem arriveGather_lands {s : State} {h : PktHdr} {ws : List (List Byte)} (hc : cordHere s h .gather = true)
    (ht : targetRefusal (gatherForwarded s h ws) (64 * h.trow + h.tcol) = none) :
    arriveGather s h ws = ringWrite (gatherForwarded s h ws) h ws (.packet .gather h ws) := by
  rw [gatherForwarded] at ht
  simp only [arriveGather, hc, Bool.not_true, Bool.false_eq_true, if_false, ht, gatherForwarded]

section Reductions
variable {s : State} {h : PktHdr}

theorem arriveRed_noCord (hv : (cordOf s.fab h.cord).valid = false) (cls : PClass) (ws : List (List Byte)) :
    arriveRed s cls h ws = answer s h 0x29 := by
  simp [arriveRed, hv]

theorem arriveRed_resetting (hv : (cordOf s.fab h.cord).valid = true) (hr : partResetting s (cordOf s.fab h.cord).part = true)
    (cls : PClass) (ws : List (List Byte)) : arriveRed s cls h ws = answer s h 0x22 := by
  simp [arriveRed, hv, hr]

theorem arriveRed_off (hv : (cordOf s.fab h.cord).valid = true) (hr : partResetting s (cordOf s.fab h.cord).part = false)
    (hp : (partOf s (cordOf s.fab h.cord).part).powered = false) (cls : PClass) (ws : List (List Byte)) :
    arriveRed s cls h ws = answer s h 0x21 := by
  simp [arriveRed, hv, hr, hp]

section Engine
variable (hv : (cordOf s.fab h.cord).valid = true) (hr : partResetting s (cordOf s.fab h.cord).part = false)
  (hp : (partOf s (cordOf s.fab h.cord).part).powered = true)
include hv hr hp

theorem arriveRed_refused {cls : PClass} {ws : List (List Byte)} {st : Nat}
    (ht : (redTake s.fab.red (cordOf s.fab h.cord) cls h ws s.clock).2 = .refused st) :
    arriveRed s cls h ws = answer (updFab s (fun f => { f with
      red := (redTake s.fab.red (cordOf s.fab h.cord) cls h ws s.clock).1 })) h st := by
  simp [arriveRed, hv, hr, hp, ht]

theorem arriveRed_taken {cls : PClass} {ws : List (List Byte)}
    (ht : (redTake s.fab.red (cordOf s.fab h.cord) cls h ws s.clock).2 = .added
      ∨ (redTake s.fab.red (cordOf s.fab h.cord) cls h ws s.clock).2 = .duplicate) :
    arriveRed s cls h ws = redFinish (answer (updFab s (fun f => { f with
      red := (redTake s.fab.red (cordOf s.fab h.cord) cls h ws s.clock).1 })) h 0) (cordOf s.fab h.cord) h := by
  rcases ht with ht | ht <;> simp [arriveRed, hv, hr, hp, ht]

end Engine
end Reductions

theorem arriveBulk_red {cls : PClass} (hcls : cls = .contrib ∨ cls = .part) (s : State) (h : PktHdr) (ws : List (List Byte)) :
    arriveBulk s cls h ws = arriveRed s cls h ws := by
  rcases hcls with rfl | rfl <;> rfl

/-- Settles O27: the partner link hands nothing up; otherwise by the route, and at the destination by the class. -/
theorem bulkPacketsAreForwardedOrTaken : Obligations.BulkPacketsAreForwardedOrTaken := by
  intro cls l h ws s p s1 tile c
  rw [exec_bulkRow]
  refine ⟨fun hl => congrArg _ (bulkOn_partner hl cls h ws), fun hl => ?_⟩
  rw [bulkOn_other hl]
  refine ⟨fun k vc dtr hr => congrArg _ (receiveBulk_link hr), fun st hr => congrArg _ (receiveBulk_refuse hr), fun hr => ?_⟩
  rw [receiveBulk_here hr]
  refine ⟨?_, ?_, ?_, ?_, fun hcls hv hres => ?_, fun hcls hv hres hp => ?_, fun hcls hv hres hp => ?_, fun hcls hv => ?_⟩
  · rintro rfl hc
    exact congrArg _ (arriveWrite_noCord hc ws)
  · rintro rfl hc ht
    exact congrArg _ (arriveWrite_lands hc ht ws)
  · rintro rfl hc st ht
    exact congrArg _ (arriveWrite_refused hc ht ws)
  · rintro rfl hc
    intro copies s2 ht
    exact congrArg _ (arriveGather_lands hc ht)
  · rw [arriveBulk_red hcls]
    exact congrArg _ (arriveRed_resetting hv hres cls ws)
  · rw [arriveBulk_red hcls]
    exact congrArg _ (arriveRed_off hv hres hp cls ws)
  · rw [arriveBulk_red hcls]
    exact ⟨fun st ht => congrArg _ (arriveRed_refused hv hres hp ht), fun ht => congrArg _ (arriveRed_taken hv hres hp ht)⟩
  · rw [arriveBulk_red hcls]
    exact congrArg _ (arriveRed_noCord hv cls ws)

/-! Completions, resends and stalled slots (R269, R284). -/

theorem takeCompl_final {s : State} {x : Compl} {o : OutPkt} (ho : s.fab.out.find? (answersPkt x) = some o)
    (h22 : x.status ≠ 0x22) (h28 : x.status ≠ 0x28) : takeCompl s x = packetDone s o x.status := by
  simp [takeCompl, ho, h22, h28]

theorem takeCompl_resent {s : State} {x : Compl} {o : OutPkt} (ho : s.fab.out.find? (answersPkt x) = some o)
    (hst : x.status = 0x22 ∨ x.status = 0x28) (hgone : isGone s o.xfer = false) (hfirst : o.refused = none) :
    takeCompl s x = updFab s (fun f => { f with
      out := f.out.map (fun y => if y = o then { y with refused := some (s.clock, x.status), again := true } else y) }) := by
  have hretry : (x.status = 0x22 ∨ x.status = 0x28) ∧ ¬ isGone s o.xfer = true := ⟨hst, by simp [hgone]⟩
  simp only [takeCompl, ho, if_pos hretry, hfirst]

section Arrives
variable {s : State} {x : Compl}

theorem exec_compl_partner (h : complOnPartner s x = true) : exec (.compl x) s = .next (takeRxCompl s x) := by
  rw [exec_compl, execCompl, if_pos h]

theorem exec_compl_here (h : complOnPartner s x = false) (hd : x.dst = s.fab.addr) :
    exec (.compl x) s = .next (takeCompl (takeRxCompl s x) x) := by
  rw [exec_compl, execCompl, if_neg (Bool.eq_false_iff.mp h), if_pos hd]

theorem exec_compl_on (h : complOnPartner s x = false) (hd : x.dst ≠ s.fab.addr) :
    exec (.compl x) s = .next (sendCtl (takeRxCompl s x) (.compl [x])) := by
  rw [exec_compl, execCompl, if_neg (Bool.eq_false_iff.mp h), if_neg hd]

end Arrives

theorem exec_packetRetry_of_waiting {s : State} {i : Nat} {o : OutPkt} {r : Nat × Nat} (ho : s.fab.out[i]? = some o)
    (hagain : o.again = true) (hr : o.refused = some r) (expired : Bool) :
    exec (.packetRetry i expired) s = .next (if expired then packetDone s o r.2
      else injectBulk (updFab s (fun f => { f with
        out := f.out.map (fun x => if x = o then { x with again := false } else x) })) o.pkt) := by
  rw [exec_packetRetry, execPacketRetry, ho]
  simp only [hagain, hr]

/-- Settles O28: a completion by where it arrives and what it answers, a resend by its time, a stalled slot. -/
theorem completionsRetriesAndStalls : Obligations.CompletionsRetriesAndStalls := by
  intro s
  refine ⟨fun x h => exec_compl_partner h, fun x h hd => exec_compl_on h hd, fun x o h hd ho => ⟨fun h22 h28 => ?_, fun hst hg hfirst => ?_⟩,
    fun i o r ho hagain hr => ?_, fun k slot o ho => ?_⟩
  · rw [exec_compl_here h hd, takeCompl_final ho h22 h28]
  · rw [exec_compl_here h hd, takeCompl_resent ho hst hg hfirst, takeRxCompl_clock]
  · exact ⟨exec_packetRetry_of_waiting ho hagain hr true, exec_packetRetry_of_waiting ho hagain hr false⟩
  · rw [exec_redSlotStall, execRedSlotStall, ho]

/-! Line state and fabric time (R271, R288, R289). -/

theorem linkstate_exec {s : State} {l : Fin 96} (hl : (portOf s.lk l.val).lockstep = false) (dst src : BitVec 16) (dim : Fin 3) (m : LineMask) :
    exec (.linkstate l dst src dim m) s =
      .next (if dst = s.fab.addr then
          updFab (takeRx s l.val (.lineState dst src dim.val m.mask.toNat m.dtr)) (fun f =>
            { f with lines := smSet 0 f.lines (32 * dim.val + coord src dim.val) m.mask.toNat })
        else sendCtl (takeRx s l.val (.lineState dst src dim.val m.mask.toNat m.dtr)) (.lineState dst src dim.val m.mask.toNat m.dtr)) := by
  rw [exec_linkstate, execLinkstate]
  exact congrArg _ (if_neg (Bool.eq_false_iff.mp hl))

theorem exec_linkstateTimer_three (s : State) : exec .linkstateTimer s = .next (sendLine (sendLine (sendLine s 0) 1) 2) := by
  rw [exec_linkstateTimer, execLinkstateTimer, show List.range 3 = [0, 1, 2] from rfl]
  simp only [List.foldl_cons, List.foldl_nil]

theorem exec_timeExchange_of_below {s : State} (ha : s.fab.addrOn = true) (hr : s.fab.root = false) (root : BitVec 16) :
    exec (.timeExchange root) s = .next (sendCtl (updFab s (fun f => { f with t1 := none, depth := addrDepth f.addr root }))
      (.time (timeParent s.fab root) s.fab.addr 0 0 0 false false)) := by
  simp [exec_timeExchange, execTimeExchange, ha, hr]

theorem exec_timeExchange_of_root {s : State} (h : s.fab.addrOn = false ∨ s.fab.root = true) (root : BitVec 16) :
    exec (.timeExchange root) s = .next s := by
  rcases h with h | h <;> simp [exec_timeExchange, execTimeExchange, h]

section Stamps
variable (p : LinkPort) (x : LineNow) (dst src : BitVec 16) (t1 t2 t3 : Nat) (dtr : Bool)

theorem stampPkt_time_sent : stampPkt p x (.time dst x.addr t1 t2 t3 false dtr) = .time dst x.addr x.ns t2 t3 false dtr := by
  simp [stampPkt]

theorem stampPkt_time_answered : stampPkt p x (.time dst x.addr t1 t2 t3 true dtr) = .time dst x.addr t1 t2 x.ns true dtr := by
  simp [stampPkt]

theorem stampPkt_time_other (h : src ≠ x.addr) (a : Bool) :
    stampPkt p x (.time dst src t1 t2 t3 a dtr) = .time dst src t1 t2 t3 a dtr := by
  simp [stampPkt, h]

end Stamps

/-- What a TIME packet of a link other than the partner's does (R288). -/
theorem time_exec {s : State} {l : Fin 96} (hl : (portOf s.lk l.val).lockstep = false) (dst src : BitVec 16) (x : TimeStamps) :
    exec (.time l dst src x) s =
      let k : Packet := .time dst src x.t1 x.t2 x.t3 x.answer x.dtr
      let s1 := takeRx s l.val k
      .next (if dst ≠ s.fab.addr then sendCtl s1 k
        else if x.answer then timeAnswer s1 l.val x else sendCtl s1 (.time src dst x.t1 (ftimeNs s1.fab) 0 true false)) := by
  rw [exec_time, execTime]
  exact congrArg _ (if_neg (Bool.eq_false_iff.mp hl))

theorem timeAnswer_of_sent {s : State} {x : TimeStamps} (h : s.fab.t1 = some x.t1) (l : Nat) :
    timeAnswer s l x =
      let o : Int := (((x.t2 : Int) - x.t1) + ((x.t3 : Int) - ftimeNs s.fab)) / 2
      updFab s (fun f => { f with
        t1 := none, ftValid := true, parent := l, offset := o, stepped := true
        rate := newRate f o s.clock, period := sinceExchange f s.clock, acc := 0, lastX := some s.clock
        ftime := if f.stepped = false ∧ 0 < o then f.ftime + o.toNat * 16000 else f.ftime
        corr := if f.stepped = false ∧ 0 < o then 0 else o * 16000 }) := by
  rw [timeAnswer, if_neg (not_not.mpr h)]
  refine congrArg (updFab s) (funext fun f => ?_)
  by_cases hstep : f.stepped = false ∧ 0 < timeOffset x (ftimeNs s.fab)
  · have hcond : (!f.stepped && decide (0 < timeOffset x (ftimeNs s.fab))) = true := by simp [hstep]
    have hstep' := hstep
    rw [timeOffset] at hstep'
    simp only [hcond, if_true, if_pos hstep']
    rfl
  · have hcond : ¬ (!f.stepped && decide (0 < timeOffset x (ftimeNs s.fab))) = true := by simpa using hstep
    have hstep' := hstep
    rw [timeOffset] at hstep'
    simp only [if_neg hcond, if_neg hstep']
    rfl

/-- Settles O29: each packet by its destination, and the parent's answer by the field it sets. -/
theorem lineStateAndFabricTime : Obligations.LineStateAndFabricTime := by
  intro s l dst src
  refine ⟨fun dim mask dtr hl => ?_, exec_linkstateTimer_three s, fun root ha hr => exec_timeExchange_of_below ha hr root,
    fun h root => exec_timeExchange_of_root h root, fun p x t1 t2 t3 dtr => ⟨stampPkt_time_sent .., stampPkt_time_answered ..,
      fun h a => stampPkt_time_other _ _ _ _ _ _ _ _ h a⟩, fun x hl => ?_, fun hr => ?_, fun hr => ?_⟩
  · intro k
    rw [linkstate_exec hl]
    exact ⟨fun hd => congrArg _ (if_pos hd), fun hd => congrArg _ (if_neg hd)⟩
  · intro k s1
    rw [time_exec hl]
    refine ⟨fun hd => congrArg _ (if_pos hd), fun ha hd => ?_, fun ha hd h1 => ?_⟩
    · exact congrArg _ ((if_neg (not_not.mpr hd)).trans (if_neg (Bool.eq_false_iff.mp ha)))
    · exact congrArg _ ((if_neg (not_not.mpr hd)).trans ((if_pos ha).trans (timeAnswer_of_sent h1 l.val)))
  · rw [exec_ftimeSyncLost, execFtimeSyncLost, if_neg (Bool.eq_false_iff.mp hr)]
  · rw [exec_ftimeSyncLost, execFtimeSyncLost, if_pos hr]

/-! Barrier channels (R170, R172, R286). -/

theorem mayArrive_of_tiles {s : State} {cord ch : Nat} (hv : (cordOf s.fab cord).valid = true) (hphase : (barOf s.fab cord ch).phase = 0)
    (hw : waitsOver s (barOf s.fab cord ch) = true) (hk : isKilnChannel s cord ch = false)
    (hn : (cordOf s.fab cord).btiles ≤ (barOf s.fab cord ch).count) : mayArrive s cord ch = true := by
  simp [mayArrive, hv, hphase, hw, hk, hn]

theorem exec_barArrive_of_tile {s : State} {t : Fin 2048} {cord : Fin 4096} {ch : Fin 4} (hv : (cordOf s.fab cord.val).valid = true)
    (hpart : partOfTile s t.val = some (cordOf s.fab cord.val).part) (hout : smGet [] (tileOf s t.val).barOut ch.val = [])
    (hk : isKilnChannel s cord.val ch.val = false) (count : Fin 4096) :
    exec (.barArrive t cord ch count) s = .next (updBar (updTile (crossCtl s t.val
        (ctlMsg .barArrive false t.val false (barPayload cord.val ch.val count.val))) t.val (fun x => { x with
        barOut := smSet [] x.barOut ch.val [(cord.val, count.val)] })) cord.val ch.val
      (fun b => { b with count := b.count + count.val, waits := moverTags s (cordOf s.fab cord.val).part (some cord.val) })) := by
  have hall : ¬ (!(cordOf s.fab cord.val).valid || partOfTile s t.val != some (cordOf s.fab cord.val).part
      || !(smGet [] (tileOf s t.val).barOut ch.val).isEmpty || isKilnChannel s cord.val ch.val) = true := by
    simp [hv, hpart, hout, hk]
  rw [exec_barArrive, execBarArrive]
  exact congrArg _ (if_neg hall)

/-- What a BARRIER packet of a link other than the partner's does (R286). -/
theorem barrier_exec {s : State} {l : Fin 96} (hl : (portOf s.lk l.val).lockstep = false) (h : PktHdr) (ch : Fin 4) (gen : Fin 256) (k : KRec) :
    exec (.barrier l h ch gen k) s =
      let p : Packet := .barrier h ch.val gen.val k
      .next (if h.dst = s.fab.addr then takeBarrier (takeRx s l.val p) h ch.val gen.val k else sendCtl (takeRx s l.val p) p) := by
  rw [exec_barrier, execBarrier]
  exact congrArg _ (if_neg (Bool.eq_false_iff.mp hl))

/-- A BARRIER packet that the channel has not held yet joins it and moves it on. -/
theorem takeBarrier_new {s : State} {h : PktHdr} {ch gen : Nat} {k : KRec} (hv : (cordOf s.fab h.cord).valid = true)
    (hgen : gen = cordGen (cordOf s.fab h.cord) ch ∨ gen = (cordGen (cordOf s.fab h.cord) ch + 1) % 256)
    (hnew : (barOf s.fab h.cord ch).got.contains ⟨h.phase, h.srank, gen, if isKilnChannel s h.cord ch then some k else none⟩ = false) :
    takeBarrier s h ch gen k = barAdvance (updBar s h.cord ch (fun b => { b with
      got := b.got ++ [⟨h.phase, h.srank, gen, if isKilnChannel s h.cord ch then some k else none⟩] })) h.cord ch 4 := by
  have hall : ¬ (!(cordOf s.fab h.cord).valid
      || !(gen == cordGen (cordOf s.fab h.cord) ch || gen == (cordGen (cordOf s.fab h.cord) ch + 1) % 256)) = true := by
    rcases hgen with hgen | hgen <;> simp [hv, ← hgen]
  simp only [takeBarrier, if_neg hall]
  simp only [updBar, updFab, if_neg (Bool.eq_false_iff.mp hnew)]

theorem barPayload_release (cord ch : Nat) : barPayload cord ch 0 = ch * 2 ^ 94 + cord * 2 ^ 82 := by
  rw [barPayload, Nat.zero_mul, Nat.add_zero]

theorem exec_barRelease_of_done {s : State} {part : Fin 8} {cord : Fin 4096} {ch : Fin 4} (hphase : (barOf s.fab cord.val ch.val).phase = 4)
    (hpart : (cordOf s.fab cord.val).part = part.val) (hk : isKilnChannel s cord.val ch.val = false) :
    exec (.barRelease part cord ch) s = .next (barReset (updTiles ((ctlPorts s part.val).foldl (fun x e =>
        crossCtl x (ctlFar e) (ctlMsg .barRelease true (ctlFar e) true (ch.val * 2 ^ 94 + cord.val * 2 ^ 82))) s)
      (bcastTiles s part.val) (fun _ x => { x with
        barOut := smSet [] x.barOut ch.val ((smGet [] x.barOut ch.val).filter (fun a => a.1 != cord.val))
        barRel := x.barRel ++ [(cord.val, ch.val)] })) cord.val ch.val) := by
  have hall : (barOf s.fab cord.val ch.val).phase = 4 ∧ (cordOf s.fab cord.val).part = part.val
      ∧ ¬ isKilnChannel s cord.val ch.val = true := ⟨hphase, hpart, Bool.eq_false_iff.mp hk⟩
  rw [exec_barRelease, execBarRelease, if_pos hall, barPayload_release]

/-- Settles O30: the tile's arrival, the module's, a packet's and the release, each under its conditions. -/
theorem barriersArriveAndRelease : Obligations.BarriersArriveAndRelease := by
  intro s cord ch c
  refine ⟨fun t count hv hpart hout hk => ?_, fun hv hphase hw hk hn => ?_, fun l h gen k => ?_, fun part hphase hpart hk => ?_⟩
  · exact exec_barArrive_of_tile hv hpart hout hk count
  · rw [exec_moduleArrived, execModuleArrived, if_pos (mayArrive_of_tiles hv hphase hw hk hn), barArrived]
  · intro p hl
    rw [barrier_exec hl]
    refine ⟨fun hd => congrArg _ (if_neg hd), fun hd => ?_⟩
    intro s1 x g hv hgen hnew
    exact congrArg _ ((if_pos hd).trans (takeBarrier_new hv hgen hnew))
  · exact exec_barRelease_of_done hphase hpart hk

end Sys2Proof.Machine
end

section
/-! SUPPORT. Kiln's barriers of a step (O32). -/

namespace Sys2Proof.Machine

/-- While Kiln runs, its firmware acts. -/
theorem whileKiln_of_running {s : State} (h : s.kiln.stat ≠ 2) (t : State) : whileKiln s t = t := if_neg h

section Arrivals
variable {s : State} {c : Nat} {r : StepRun} (hr : (ctxOf s c).run = some r)
include hr

theorem arriveSection_of_done (hp : r.phase = .run) (hs : r.sect ≠ 1) (hst : r.status = 0) (hd : allDone s (ctxOf s c).part r = true) :
    arriveSection s c = arriveJob s c 0 0 0 := by
  simp [arriveSection, hr, hp, hs, hst, hd]

theorem arriveSection_of_status (hp : r.phase = .run) (hs : r.sect ≠ 1) (hst : r.status ≠ 0) :
    arriveSection s c = arriveJob s c 0 r.status r.cause := by
  simp [arriveSection, hr, hp, hs, hst]

theorem arriveCommit_of_done (hp : r.phase = .run) (hs : r.sect = 1) (hst : r.status = 0) (hd : allDone s (ctxOf s c).part r = true)
    (hv : votesOver s (ctxOf s c).part r = true) : arriveCommit s c
      = arriveJob s c 1 (emberVerdict s (ctxOf s c).part r.attempt).1 (emberVerdict s (ctxOf s c).part r.attempt).2 := by
  simp [arriveCommit, hr, hp, hs, hst, hd, hv]

theorem arriveCommit_of_status (hp : r.phase = .run) (hs : r.sect = 1) (hst : r.status ≠ 0) :
    arriveCommit s c = arriveJob s c 1 r.status r.cause := by
  simp [arriveCommit, hr, hp, hs, hst]

section Quiesce
variable (hp : r.phase = .quiesce) (hst : (ctxOf s c).st ≠ .paused)
  (hq : partQuiet (dropAttempt s (ctxOf s c).part) (ctxOf s c).part = true)
  (hrec : recovering (dropAttempt s (ctxOf s c).part) (ctxOf s c).part = false)
include hp hst hq hrec

theorem quiesceDone_of_cord {k : Nat} (hk : (ctxOf s c).cord = some k) (hf : (ctxOf s c).refill = []) :
    quiesceDone s c = arriveJob (dropAttempt s (ctxOf s c).part) c 2 0 0 := by
  simp [quiesceDone, hr, hp, hst, hq, hrec, hk, hf]

theorem quiesceDone_of_refill (hf : (ctxOf s c).refill ≠ []) :
    quiesceDone s c = updRun (dropAttempt s (ctxOf s c).part) c (fun y => { y with phase := .held }) := by
  simp [quiesceDone, hr, hp, hst, hq, hrec, hf]

end Quiesce

theorem floodCtx_of_record {k : Nat} {f : KRec} (hk : (ctxOf s c).cord = some k) (hf : floodRec s k = some f) (hp : r.phase = .run) :
    floodCtx s c = arriveJob s c (if r.sect = 1 then 1 else 0) f.status.val 0x09 := by
  simp [floodCtx, hk, hr, hf, hp]

end Arrivals

theorem waitKind_of_waiting {s : State} {p : Nat} {r : StepRun} {kind : Nat}
    (h : phaseKind r.phase = some kind ∨ (r.phase = .run ∧ voteWaits s p r = true ∧ kind = 3)) : waitKind s p r = some kind := by
  rcases h with h | ⟨hp, hv, rfl⟩
  · rw [waitKind, h]
  · simp [waitKind, hp, hv, phaseKind]

theorem exec_sectionTimeout_of_waiting {s : State} {c : Fin 256} {r : StepRun} {k kind : Nat} (hk : s.kiln.stat ≠ 2)
    (hr : (ctxOf s c.val).run = some r) (hc : (ctxOf s c.val).cord = some k) (hw : waitKind s (ctxOf s c.val).part r = some kind) :
    exec (.sectionTimeout c) s =
      .next (updCtx (postCtx s c.val 0x06 [c.val, r.step.toNat, kind]) c.val (fun y => { y with st := .paused })) := by
  rw [exec_sectionTimeout, execSectionTimeout, whileKiln_of_running hk]
  simp only [hc, hr, hw]

/-! The release of a channel 3 (R299, R317). -/

theorem kilnRelease_vote {s : State} {cord : Nat} {own : KRec} (hm : (barOf s.fab cord 3).mine = some own)
    (hp : (barOf s.fab cord 3).phase = 4) (hk : own.kind = 3) :
    kilnRelease s cord = releaseVote (barReset s cord 3) cord own
      (heldIn (barOf s.fab cord 3) ((cordGen (cordOf s.fab cord) 3 + 255) % 256) 1) := by
  have hphase : ¬ (barOf s.fab cord 3).phase ≠ 4 := not_not.mpr hp
  simp only [kilnRelease, hm, if_neg hphase, if_pos hk]

section JobRelease
variable {s : State} {cord c : Nat} {own : KRec} (hm : (barOf s.fab cord 3).mine = some own) (hp : (barOf s.fab cord 3).phase = 4)
  (hk : own.kind ≠ 3) (hj : jobCtx s cord = some c) (hst : (ctxOf s c).st ≠ .paused)
include hm hp hk hj

theorem kilnRelease_waits (hw : (recordTo (barOf s.fab cord 3) ((cordGen (cordOf s.fab cord) 3 + 255) % 256) 4).status = 0)
    (hkind : own.kind.val ≤ 1) (hs : stepSettled s (ctxOf s c).part = false) : kilnRelease s cord = s := by
  have hphase : ¬ (barOf s.fab cord 3).phase ≠ 4 := not_not.mpr hp
  have hwait : (ctxOf s c).st = .paused ∨ ((recordTo (barOf s.fab cord 3) ((cordGen (cordOf s.fab cord) 3 + 255) % 256) 4).status = 0
      ∧ own.kind.val ≤ 1 ∧ ¬ stepSettled s (ctxOf s c).part = true) := .inr ⟨hw, hkind, Bool.eq_false_iff.mp hs⟩
  simp only [kilnRelease, hm, if_neg hphase, if_neg hk, hj, if_pos hwait]

include hst in
theorem kilnRelease_acts
    (hs : (recordTo (barOf s.fab cord 3) ((cordGen (cordOf s.fab cord) 3 + 255) % 256) 4).status = 0 → own.kind.val ≤ 1 →
      stepSettled s (ctxOf s c).part = true) :
    kilnRelease s cord =
      let k := recordTo (barOf s.fab cord 3) ((cordGen (cordOf s.fab cord) 3 + 255) % 256) 4
      releaseJob (trace (barReset (joinSection s c cord own.kind.val) cord 3) 0x04 c (ctxOf s c).part own.step.toNat
        (own.kind.val * 2 ^ 348 + k.status.val * 2 ^ 346 + k.cause.toNat * 2 ^ 338)) c own.kind.val k := by
  have hphase : ¬ (barOf s.fab cord 3).phase ≠ 4 := not_not.mpr hp
  have hwait : ¬ ((ctxOf s c).st = .paused ∨ ((recordTo (barOf s.fab cord 3) ((cordGen (cordOf s.fab cord) 3 + 255) % 256) 4).status = 0
      ∧ own.kind.val ≤ 1 ∧ ¬ stepSettled s (ctxOf s c).part = true)) := by
    rintro (h | ⟨h0, h1, h2⟩)
    · exact hst h
    · exact h2 (hs h0 h1)
  simp only [kilnRelease, hm, if_neg hphase, if_neg hk, hj, if_neg hwait]

end JobRelease

section Combined
variable (s : State) (c : Nat) (kind : Nat) {k : KRec}

theorem releaseJob_ok_section (h : k.status.val = 0) : releaseJob s c 0 k = afterSection s c := by simp only [releaseJob, h]
theorem releaseJob_ok_commit (h : k.status.val = 0) : releaseJob s c 1 k = commitStep s c := by simp only [releaseJob, h]
theorem releaseJob_ok_quiet (h : k.status.val = 0) : releaseJob s c 2 k = afterQuiet s c := by simp only [releaseJob, h]
theorem releaseJob_replay (h : k.status.val = 1) : releaseJob s c kind k = beginReplay s c k.cause.toNat := by simp only [releaseJob, h]
theorem releaseJob_failed (h : k.status.val = 2) : releaseJob s c kind k = moduleFailed s c k.frank k.cause.toNat := by simp only [releaseJob, h]
theorem releaseJob_fault (h : k.status.val = 3) : releaseJob s c kind k = faultRelease s c k.cause.toNat := by simp only [releaseJob, h]

end Combined

/-- Settles O32: every row runs while Kiln does; the arrivals by the section's state, the release by the combined record. -/
theorem kilnBarriersCoordinateAStep : Obligations.KilnBarriersCoordinateAStep := by
  intro s c r k x hup hr hc
  have hrow0 : exec (.kilnBarrierArrive c 0) s = .next (arriveSection s c.val) := congrArg _ (whileKiln_of_running hup _)
  have hrow1 : exec (.kilnBarrierArrive c 1) s = .next (arriveCommit s c.val) := congrArg _ (whileKiln_of_running hup _)
  have hrow2 : exec (.kilnBarrierArrive c 2) s = .next (quiesceDone s c.val) := congrArg _ (whileKiln_of_running hup _)
  have hquiesce : exec (.quiesceDone c) s = .next (quiesceDone s c.val) := congrArg _ (whileKiln_of_running hup _)
  have hrelease (cord : Fin 4096) : exec (.kilnBarrierRelease cord) s = .next (kilnRelease s cord.val) :=
    congrArg _ (whileKiln_of_running hup _)
  refine ⟨fun hp hs hst hd => hrow0.trans (congrArg _ (arriveSection_of_done hr hp hs hst hd)),
    fun hp hs hst => hrow0.trans (congrArg _ (arriveSection_of_status hr hp hs hst)),
    fun hp hs hst hd hv => hrow1.trans (congrArg _ (arriveCommit_of_done hr hp hs hst hd hv)),
    fun hp hs hst => hrow1.trans (congrArg _ (arriveCommit_of_status hr hp hs hst)),
    congrArg _ (whileKiln_of_running hup _), fun hp hst hq hrec => ⟨fun hf => ?_, fun hf => ?_⟩, fun f hf hp => ?_,
    fun kind hw => exec_sectionTimeout_of_waiting hup hr hc (waitKind_of_waiting hw),
    fun cord own hm hp hk hj hst => ?_, fun cord own hm hp hk => (hrelease cord).trans (congrArg _ (kilnRelease_vote hm hp hk))⟩
  · have hdone := quiesceDone_of_cord hr hp hst hq hrec hc hf
    exact ⟨hquiesce.trans (congrArg _ hdone), hrow2.trans (congrArg _ hdone)⟩
  · exact hquiesce.trans (congrArg _ (quiesceDone_of_refill hr hp hst hq hrec hf))
  · have hrow : exec (.flood c) s = .next (floodCtx s c.val) := congrArg _ (whileKiln_of_running hup _)
    exact hrow.trans (congrArg _ (floodCtx_of_record hr hc hf hp))
  · intro g
    rw [hrelease]
    refine ⟨fun h0 h1 hs => congrArg _ (kilnRelease_waits hm hp hk hj (Fin.ext h0) h1 hs), fun hs => ?_⟩
    intro s1
    rw [kilnRelease_acts hm hp hk hj hst (fun h0 => hs (congrArg Fin.val h0))]
    refine ⟨fun h0 hkind => ?_, fun h0 hkind => ?_, fun h0 hkind => ?_, fun h1 => congrArg _ (releaseJob_replay _ _ _ h1),
      fun h2 => congrArg _ (releaseJob_failed _ _ _ h2), fun h3 => congrArg _ (releaseJob_fault _ _ _ h3)⟩
    · simp only [s1, hkind]
      exact congrArg _ (releaseJob_ok_section _ _ h0)
    · simp only [s1, hkind]
      exact congrArg _ (releaseJob_ok_commit _ _ h0)
    · simp only [s1, hkind]
      exact congrArg _ (releaseJob_ok_quiet _ _ h0)

end Sys2Proof.Machine
end

section
/-! SUPPORT. Power, heat and the pins (O33 to O35). -/

namespace Sys2Proof.Machine

@[simp] theorem syncEmerg_isOn (n : Nat) (p : PwrState) : (syncEmerg n p).isOn = p.isOn := by
  unfold syncEmerg
  split
  · rfl
  · split <;> rfl

theorem updPwr_eq_powerNow (s : State) (f : PwrState → PwrState) : updPwr s f = Sys2Proof.powerNow s (f s.pwr) := rfl

theorem powerNow_isOn (s : State) (w : PwrState) : (Sys2Proof.powerNow s w).pwr.isOn = w.isOn := syncEmerg_isOn _ _

theorem powerDownIf_on {s : State} (h : s.pwr.isOn = true) : powerDownIf s true = powerDown s := by
  rw [powerDownIf, Bool.true_and, if_pos h]

/-! Regions and meters (R189 to R192, R348 to R356). -/

section Regions
variable {s : State} {n : Fin 128}

theorem exec_regionMonitorTick_of_powered (h : (fieldOf s.pwr (regionField n.val)).st = 2) (warn : Bool) :
    exec (.regionMonitorTick n warn) s = .next (Sys2Proof.powerNow s
      (syncVset (monitorTick s.pwr n.val warn (regionPolicy s n.val)) (regionField n.val))) := by
  rw [exec_regionMonitorTick, execRegionMonitorTick, if_pos h, updPwr_eq_powerNow]

theorem exec_oscRecalibration_of_powered (h : (fieldOf s.pwr (regionField n.val)).st = 2) :
    exec (.oscRecalibration n) s =
      .next (Sys2Proof.powerNow s (setRegion s.pwr n.val { regionOf s.pwr n.val with calAt := s.clock })) := by
  rw [exec_oscRecalibration, execOscRecalibration, if_pos h, updPwr_eq_powerNow]

theorem exec_chargeInjectorConnect_of_off (h : (regionOf s.pwr n.val).injOn = false) :
    exec (.chargeInjectorConnect n) s = .next (Sys2Proof.powerNow s (setRegion s.pwr n.val { regionOf s.pwr n.val with
      injOn := true, injEmpty := false, inject := min ((regionOf s.pwr n.val).inject + 1) 0xFFFF })) := by
  rw [exec_chargeInjectorConnect, execChargeInjectorConnect, if_neg (Bool.eq_false_iff.mp h), updPwr_eq_powerNow]

theorem exec_chargeInjectorDisconnect_of_on (h : (regionOf s.pwr n.val).injOn = true) :
    exec (.chargeInjectorDisconnect n) s = .next (Sys2Proof.powerNow s
      (setRegion s.pwr n.val { regionOf s.pwr n.val with injOn := false, injEmpty := true })) := by
  rw [exec_chargeInjectorDisconnect, execChargeInjectorDisconnect, updPwr_eq_powerNow]
  simp only [h, Bool.true_or]

theorem exec_shuntClampEngage_of_off (h : (regionOf s.pwr n.val).clampOn = false) :
    exec (.shuntClampEngage n) s = .next (Sys2Proof.powerNow s (setRegion s.pwr n.val { regionOf s.pwr n.val with
      clampOn := true, clamp := min ((regionOf s.pwr n.val).clamp + 1) 0xFFFF })) := by
  rw [exec_shuntClampEngage, execShuntClampEngage, if_neg (Bool.eq_false_iff.mp h), updPwr_eq_powerNow]

end Regions

/-- A cap tick acts on the partitions first, then traces a change, then posts CAP_UNMET (R352). -/
theorem exec_capLoopTick_eq (watts : Nat) (s : State) :
    exec (.capLoopTick watts) s =
      let r := capTick s.pwr watts ((poweredParts s).map (fun p => !(policyOf s.pwr p).fixed))
      let s1 := capActs (Sys2Proof.powerNow s r.1)
      let s2 := if r.1.ceil ≠ s.pwr.ceil ∨ r.1.hgap ≠ s.pwr.hgap then trace s1 0x0C 0 0 0 (r.1.ceil * 2 ^ 346 + r.1.hgap * 2 ^ 342) else s1
      .next (if r.2 then postAll s2 0x0E [effectiveCap s.pwr, watts] else s2) := rfl

/-- Settles O33: each row's guard holds, and the change of the power side is the row's. -/
theorem monitorsMetersAndCapLoopTick : Obligations.MonitorsMetersAndCapLoopTick := by
  intro s
  refine ⟨fun t low => rfl, fun n => ?_, fun watts => ?_, fun x => rfl⟩
  · intro r
    exact ⟨fun hst => ⟨exec_regionMonitorTick_of_powered hst, exec_oscRecalibration_of_powered hst⟩,
      exec_chargeInjectorConnect_of_off, exec_chargeInjectorDisconnect_of_on, exec_shuntClampEngage_of_off, rfl⟩
  · intro r s1
    rw [exec_capLoopTick_eq]
    refine ⟨fun hc hg hpost => ?_, fun hc hg hpost => ?_, fun hne hpost => ?_⟩
    · have hsame : ¬ (r.1.ceil ≠ s.pwr.ceil ∨ r.1.hgap ≠ s.pwr.hgap) := by simp [hc, hg]
      exact congrArg _ ((if_neg (Bool.eq_false_iff.mp hpost)).trans (if_neg hsame))
    · have hsame : ¬ (r.1.ceil ≠ s.pwr.ceil ∨ r.1.hgap ≠ s.pwr.hgap) := by simp [hc, hg]
      exact congrArg _ ((if_pos hpost).trans (congrArg (postAll · _ _) (if_neg hsame)))
    · exact congrArg _ ((if_neg (Bool.eq_false_iff.mp hpost)).trans (if_pos hne))

/-! The supply and the pins (R336, R337, R342 to R344, R354, R468 to R471). -/

section Pins
variable {s : State}

theorem exec_standbyQualifierStart_of_vin {mv : Nat} (hq : s.pwr.qualifier = false) (hmv : 36000 < mv) :
    exec (.standbyQualifierStart mv) s = .next { s with pwr := { pwrInit with qualifier := true, vinMv := mv } } := by
  simp [exec_standbyQualifierStart, execStandbyQualifierStart, hq, hmv]

theorem exec_pwrEnAssert_of_qualified (hq : s.pwr.qualifier = true) (hh : s.pwr.handshake = false) :
    exec .pwrEnAssert s = .next (Sys2Proof.powerNow s { s.pwr with
      pwrEn := true, mustCycle := s.pwr.mustCycle && !s.pwr.lowSeen, lowSeen := false }) := by
  have hnot : ¬ (!s.pwr.qualifier) = true := by simp [hq]
  rw [exec_pwrEnAssert, execPwrEnAssert, if_neg hnot, if_neg (Bool.eq_false_iff.mp hh), updPwr_eq_powerNow]
  exact congrArg (fun b => Host.Outcome.next (Sys2Proof.powerNow s { s.pwr with
    pwrEn := true, mustCycle := s.pwr.mustCycle && !s.pwr.lowSeen, lowSeen := false, handshake := b })) hh.symm

theorem exec_pwrEnAssert_of_handshake (hq : s.pwr.qualifier = true) (hh : s.pwr.handshake = true) :
    exec .pwrEnAssert s = .next (logFree (Sys2Proof.powerNow s { s.pwr with
      pwrEn := true, mustCycle := s.pwr.mustCycle && !s.pwr.lowSeen, lowSeen := false, handshake := false }) []) := by
  have hnot : ¬ (!s.pwr.qualifier) = true := by simp [hq]
  rw [exec_pwrEnAssert, execPwrEnAssert, if_neg hnot, if_pos hh, updPwr_eq_powerNow]

theorem exec_powerUp_of_qualified (straps : Fin 4) (hq : s.pwr.qualifier = true) (hen : s.pwr.pwrEn = true) (hon : s.pwr.isOn = false)
    (hcycle : s.pwr.mustCycle = false) (hforce : s.pwr.forceOff = false) (hlow : 40000 ≤ s.pwr.vinMv) (hhigh : s.pwr.vinMv ≤ 50000) :
    exec (.powerUp straps) s = .next (setReport { Sys2Proof.powerNow s ((List.range 8).foldl (fun v n =>
        setField v n { fieldOf v n with lact := 64, mact := 4, oact := 8, pact := 8 }) { s.pwr with isOn := true, ceil := 46 }) with
      boot := { bootInit with running := true, began := s.clock, stageAt := s.clock, strap := straps.val } } 0
        (reportWord 0 1 false false 0)) := by
  have hall : (s.pwr.qualifier && s.pwr.pwrEn && !s.pwr.isOn && !s.pwr.mustCycle && !s.pwr.forceOff && decide (40000 ≤ s.pwr.vinMv)
      && decide (s.pwr.vinMv ≤ 50000)) = true := by
    simp [hq, hen, hon, hcycle, hforce, hlow, hhigh]
  rw [exec_powerUp, execPowerUp, if_pos hall, updPwr_eq_powerNow]

theorem exec_pwrEnDeassert_eq (hq : s.pwr.qualifier = true) :
    exec .pwrEnDeassert s =
      let s1 := Sys2Proof.powerNow (ledOff s) { s.pwr with pwrEn := false, lowSeen := true }
      .next (if s.pwr.isOn then updPwr (if kilnUp s1 then (liveCtxs s1).foldl endCtx s1 else s1) (fun w => { w with handshake := true })
        else s1) := by
  have hnot : ¬ (!s.pwr.qualifier) = true := by simp [hq]
  rw [exec_pwrEnDeassert, execPwrEnDeassert, if_neg hnot, updPwr_eq_powerNow]
  rfl

theorem exec_powerDown_of_handshake (hh : s.pwr.handshake = true) (hen : s.pwr.pwrEn = false) (hon : s.pwr.isOn = true) :
    exec .powerDown s = .next (powerDown s) := by
  rw [exec_powerDown, execPowerDown, hh, hen]
  exact congrArg _ (powerDownIf_on hon)

theorem exec_forceOff_of_on (hq : s.pwr.qualifier = true) (hen : s.pwr.pwrEn = true) (hon : s.pwr.isOn = true) :
    exec .forceOff s =
      .next (powerDown (Sys2Proof.powerNow s { s.pwr with forceOff := true, mustCycle := true, lowSeen := false })) := by
  have hall : (s.pwr.qualifier && s.pwr.pwrEn) = true := by simp [hq, hen]
  have hdown : powerDownIf (updPwr s (fun w => { w with forceOff := true, mustCycle := true, lowSeen := false })) true
      = powerDown (Sys2Proof.powerNow s { s.pwr with forceOff := true, mustCycle := true, lowSeen := false }) :=
    powerDownIf_on ((powerNow_isOn _ _).trans hon)
  rw [exec_forceOff, execForceOff, if_pos hall, hdown]

theorem exec_vinFault_of_on {mv : Nat} (hmv : mv < 38000 ∨ 52000 < mv) (hon : s.pwr.isOn = true) :
    exec (.vinFault mv) s =
      let s1 := powerDown (Sys2Proof.powerNow (ledOff s) { s.pwr with vinMv := mv })
      .next (if mv ≤ 36000 then { s1 with pwr := { pwrInit with vinMv := mv } } else s1) := by
  have hdown : powerDownIf (updPwr (ledOff s) (fun w => { w with vinMv := mv })) true
      = powerDown (Sys2Proof.powerNow (ledOff s) { s.pwr with vinMv := mv }) := powerDownIf_on ((powerNow_isOn _ _).trans hon)
  rw [exec_vinFault, execVinFault, if_pos hmv, hdown]

theorem exec_throttleHeld_of_throttle (hk : s.kiln.stat ≠ 2) (ht : s.pwr.throttle = true) :
    exec .throttleHeld s = .next (postAll (Sys2Proof.powerNow s { s.pwr with thrSecs := s.pwr.thrSecs + 60 }) 0x10
      [s.pwr.thrSecs + 60]) := by
  rw [exec_throttleHeld, execThrottleHeld, whileKiln_of_running hk, if_pos ht, updPwr_eq_powerNow]

end Pins

/-- Settles O34: each pin and supply row under its conditions. -/
theorem supplyAndPinsSwitchTheModule : Obligations.SupplyAndPinsSwitchTheModule := by
  intro s w down ledOut
  refine ⟨fun mv => exec_standbyQualifierStart_of_vin, exec_pwrEnAssert_of_qualified, fun straps => exec_powerUp_of_qualified straps,
    fun hq hoff => ?_, exec_pwrEnAssert_of_handshake, fun hq hon => ?_, exec_powerDown_of_handshake, exec_forceOff_of_on, rfl,
    fun mv hmv hout hon => ?_, fun mv hmv hon => ?_, fun mv hmv => ?_, fun mv hlow hhigh => ?_, rfl, rfl,
    exec_throttleHeld_of_throttle⟩
  · rw [exec_pwrEnDeassert_eq hq]
    exact congrArg _ (if_neg (Bool.eq_false_iff.mp hoff))
  · rw [exec_pwrEnDeassert_eq hq]
    exact congrArg _ (if_pos hon)
  · rw [exec_vinFault_of_on hout hon]
    exact congrArg _ (if_neg (Nat.not_le.mpr hmv))
  · rw [exec_vinFault_of_on (.inl (by omega)) hon]
    exact congrArg _ (if_pos hmv)
  · rw [exec_vinOutOfRange, execVinOutOfRange, if_pos hmv, updPwr_eq_powerNow]
  · rw [exec_vinInRange, execVinInRange, if_pos ⟨hlow, hhigh⟩, updPwr_eq_powerNow]

/-! Limits, heat and soft start (R339, R343 to R346, R358 to R366). -/

section Heat
variable {s : State}

theorem exec_fieldLimitPersist_of_limited {n : Fin 8} (h : fieldLimited s.pwr n.val = true) :
    exec (.fieldLimitPersist n) s = .next (Sys2Proof.powerNow s (setField s.pwr n.val { fieldOf s.pwr n.val with persist := true })) := by
  rw [exec_fieldLimitPersist, execFieldLimitPersist, if_pos h, updPwr_eq_powerNow]

section SoftStart
variable {n : Fin 8} (h : (fieldOf s.pwr n.val).st = 1)
include h

theorem exec_softStartDone_of_part {p : Nat}
    (hp : partOfField (setOsc (Sys2Proof.powerNow s (softStartDone s.pwr n.val)) n.val true) n.val = some p) :
    exec (.softStartDone n) s = .next (partReady (setOsc (Sys2Proof.powerNow s (softStartDone s.pwr n.val)) n.val true) p) := by
  rw [exec_softStartDone, execSoftStartDone, if_neg (not_not.mpr h), updPwr_eq_powerNow]
  simp only [hp]

theorem exec_softStartDone_of_noPart
    (hp : partOfField (setOsc (Sys2Proof.powerNow s (softStartDone s.pwr n.val)) n.val true) n.val = none) :
    exec (.softStartDone n) s = .next (setOsc (Sys2Proof.powerNow s (softStartDone s.pwr n.val)) n.val true) := by
  rw [exec_softStartDone, execSoftStartDone, if_neg (not_not.mpr h), updPwr_eq_powerNow]
  simp only [hp]

end SoftStart

theorem exec_converterFail_of_on (hon : s.pwr.isOn = true) :
    exec .converterFail s =
      let s1 := Sys2Proof.powerNow s { s.pwr with convBad := min (s.pwr.convBad + 1) 16 }
      .next (if convWorking s1.pwr < 13 then powerDown s1 else s1) := by
  have hon1 : (Sys2Proof.powerNow s { s.pwr with convBad := min (s.pwr.convBad + 1) 16 }).pwr.isOn = true := (powerNow_isOn _ _).trans hon
  rw [exec_converterFail, execConverterFail, if_pos hon, loseConverter, updPwr_eq_powerNow]
  simp only [powerDownIf, hon1, Bool.and_true, decide_eq_true_eq]

theorem exec_thermalStageEnter_of_above {kind : Fin 5} {idx : Fin 128} {temp : Int} (hidx : idx.val < sensorCount kind.val)
    (h : (sensorOf s.pwr kind.val idx.val).1 < stageReached kind.val temp) :
    exec (.thermalStageEnter kind idx temp) s =
      let s1 := Sys2Proof.powerNow s (setSensor s.pwr kind.val idx.val (stageReached kind.val temp, temp))
      .next (stageAction (markRuns s1 (sensorParts s1 kind.val idx.val) (fun r => { r with thmAct := true }))
        kind.val idx.val (sensorOf s.pwr kind.val idx.val).1 (stageReached kind.val temp) temp) := by
  have hnot : ¬ (sensorCount kind.val ≤ idx.val ∨ stageReached kind.val temp ≤ (sensorOf s.pwr kind.val idx.val).1) := by omega
  rw [exec_thermalStageEnter, execThermalStageEnter, if_neg hnot, updPwr_eq_powerNow]

theorem exec_thermalStageLeave_of_below {kind : Fin 5} {idx : Fin 128} {temp : Int} (hidx : idx.val < sensorCount kind.val)
    (h : stageHeld kind.val temp < (sensorOf s.pwr kind.val idx.val).1) :
    exec (.thermalStageLeave kind idx temp) s = .next (stageLeft (Sys2Proof.powerNow s
      (setSensor s.pwr kind.val idx.val (stageHeld kind.val temp, temp))) kind.val idx.val (stageHeld kind.val temp)) := by
  have hnot : ¬ (sensorCount kind.val ≤ idx.val ∨ (sensorOf s.pwr kind.val idx.val).1 ≤ stageHeld kind.val temp) := by omega
  rw [exec_thermalStageLeave, execThermalStageLeave, if_neg hnot, updPwr_eq_powerNow]

section Ceiling
variable {n p : Nat} (hp : partOfField s (regionField n) = some p)
include hp

theorem ceilingTick_dynamic (hf : (policyOf s.pwr p).fixed = false) :
    ceilingTick s n =
      let r := regionOf s.pwr n
      let st := (sensorOf s.pwr 0 n).1
      Sys2Proof.powerNow s (setRegion s.pwr n { r with thermCeil :=
        (if st = 1 then max 20 (r.thermCeil - 1) else if st = 0 then min 46 (r.thermCeil + 1) else r.thermCeil) }) := by
  simp only [ceilingTick, hp, if_neg (Bool.eq_false_iff.mp hf)]
  rfl

theorem ceilingTick_other (hf : (policyOf s.pwr p).fixed = true) (hl : leadRegion s p ≠ some n) : ceilingTick s n = s := by
  simp only [ceilingTick, hp, if_pos hf, if_pos hl]

theorem ceilingTick_lead (hf : (policyOf s.pwr p).fixed = true) (hl : leadRegion s p = some n) :
    ceilingTick s n =
      let y := policyOf s.pwr p
      let stages := ((List.range 128).filter (fun i => (partOf s p).fmask.testBit (regionField i))).map (fun i => (sensorOf s.pwr 0 i).1)
      Sys2Proof.powerNow s (setPolicy s.pwr p { y with target :=
        (if stages.any (fun x => decide (2 ≤ x)) then 20 else if stages.any (· == 1) then max 20 (y.target - 1)
          else min y.step (y.target + 1)) }) := by
  have hlead : ¬ leadRegion s p ≠ some n := not_not.mpr hl
  simp only [ceilingTick, hp, if_pos hf, if_neg hlead]
  rfl

end Ceiling
end Heat

/-- Settles O35: each row under its conditions; a trip by the sensor's stage. -/
theorem limitsHeatAndSoftStart : Obligations.LimitsHeatAndSoftStart := by
  intro s w
  refine ⟨rfl, rfl, rfl, rfl, fun n => ⟨rfl, rfl, exec_fieldLimitPersist_of_limited, fun bank => rfl, fun hst => ?_⟩, fun hon => ?_,
    fun kind idx temp hidx => ⟨exec_thermalStageEnter_of_above hidx, exec_thermalStageLeave_of_below hidx, fun hold => ?_⟩,
    fun n p hp hf => congrArg _ (ceilingTick_dynamic hp hf),
    fun n p hp hf => ⟨fun hl => congrArg _ (ceilingTick_other hp hf hl), fun hl => congrArg _ (ceilingTick_lead hp hf hl)⟩,
    fun mean hroom => ?_, rfl⟩
  · intro s1
    exact ⟨fun p => exec_softStartDone_of_part hst, exec_softStartDone_of_noPart hst⟩
  · intro s1
    rw [exec_converterFail_of_on hon]
    exact ⟨fun h13 => congrArg _ (if_neg (Nat.not_lt.mpr h13)), fun h13 => congrArg _ (if_pos h13)⟩
  · rw [exec_thermalTrip, execThermalTrip, if_pos ⟨hidx, hold⟩]
  · rw [exec_headroomTest, execHeadroomTest, if_pos hroom, updPwr_eq_powerNow]

end Sys2Proof.Machine
end

section
/-! SUPPORT. A host's accesses, its mailboxes and its port (O41, O42). -/

namespace Sys2Proof.Machine

/-! BAR0 (R10, R375). -/

section Bar0
variable {s : State} {port : Fin 2} (hdec : decodes (hostOf s port.val) = true)
include hdec

theorem exec_loReadLatch_of_aligned {off : Fin 16777216} (hoff : off.val % 4 = 0) :
    exec (.loReadLatch port off) s = .next (updHost (bar0Latch s off.val) port.val (fun y =>
      { y with rd := leBytes 4 (bar0Word s port.val off.val).toNat, ca := false })) := by
  rw [exec_loReadLatch, execLoReadLatch, if_pos ⟨hdec, hoff⟩]

theorem exec_registerWrite_now {off : Fin 16777216} (hoff : off.val % 4 = 0) (hw : (hostOf s port.val).waitWr = []) (v : Word) :
    exec (.registerWrite port off v) s = .next (regWriteNow s port.val off.val v) := by
  have hempty : (hostOf s port.val).waitWr.isEmpty = true := by rw [hw]; rfl
  rw [exec_registerWrite, execRegisterWrite, if_pos ⟨hdec, hoff⟩, postReg, if_pos hempty]

theorem exec_registerWrite_posted {off : Fin 16777216} (hoff : off.val % 4 = 0) (hw : (hostOf s port.val).waitWr ≠ []) (v : Word) :
    exec (.registerWrite port off v) s = .next (updHost s port.val (fun y => { y with waitWr := y.waitWr ++ [.reg off.val v] })) := by
  have hwaits : ¬ (hostOf s port.val).waitWr.isEmpty = true := by simpa using hw
  rw [exec_registerWrite, execRegisterWrite, if_pos ⟨hdec, hoff⟩, postReg, if_neg hwaits]

theorem exec_bar0InvalidAccess_read {off : Fin 16777216} {len : Fin 513} (h : bar0Accepts off.val len.val false = false) :
    exec (.bar0InvalidAccess port off false len) s =
      .next (updHost s port.val (fun y => { y with rd := List.replicate len.val 0, ca := false })) := by
  simp [exec_bar0InvalidAccess, execBar0InvalidAccess, hdec, h]

end Bar0

/-- Above the doorbells and the MSI-X table, a write reaches the shared device registers. -/
theorem regWriteNow_dev {off : Nat} (h : 0x38000 ≤ off) (s : State) (p : Nat) (v : Word) :
    regWriteNow s p off v = writeDev s (off / 65536) (off % 65536) v := by
  have hmbx : ¬ (0x10000 ≤ off ∧ off < 0x14000) := by omega
  have hdb : ¬ (0x20000 ≤ off ∧ off < 0x20800) := by omega
  have hmsix : ¬ (0x30000 ≤ off ∧ off < 0x38000) := by omega
  have hbar2 : ¬ off = 0x24 := by omega
  simp only [regWriteNow, if_neg hmbx, if_neg hdb, if_neg hmsix, if_neg hbar2]

theorem regWriteNow_bar2 (s : State) (p : Nat) (v : Word) :
    regWriteNow s p 0x24 v = if v.msb then updHost s p (fun y => { y with b2On := false }) else s := by
  have hmbx : ¬ (0x10000 ≤ 0x24 ∧ 0x24 < 0x14000) := by decide
  have hdb : ¬ (0x20000 ≤ 0x24 ∧ 0x24 < 0x20800) := by decide
  have hmsix : ¬ (0x30000 ≤ 0x24 ∧ 0x24 < 0x38000) := by decide
  simp only [regWriteNow, if_neg hmbx, if_neg hdb, if_neg hmsix, if_true]

theorem regWriteNow_zero (s : State) (p : Nat) (v : Word) : regWriteNow s p 0 v = s := by
  have hmbx : ¬ (0x10000 ≤ 0 ∧ 0 < 0x14000) := by decide
  have hdb : ¬ (0x20000 ≤ 0 ∧ 0 < 0x20800) := by decide
  have hmsix : ¬ (0x30000 ≤ 0 ∧ 0 < 0x38000) := by decide
  have hbar2 : ¬ 0 = 0x24 := by decide
  simp only [regWriteNow, if_neg hmbx, if_neg hdb, if_neg hmsix, if_neg hbar2]
  rfl

theorem writeDev_trip (s : State) (v : Word) :
    writeDev s 0xAD 0xC v = if v.getLsbD 7 then updPwr s (fun w => { w with trip := false }) else s := by
  simp only [writeDev, true_and]

theorem writeDev_tripRecord (s : State) (v : Word) :
    writeDev s 0xAE 0x300 v = if v.msb then updPwr s (fun w => { w with tripOn := false }) else s := by
  simp only [writeDev, true_and]

theorem writeDev_fault (s : State) (v : Word) :
    writeDev s 0xA2 0xC v = if v.msb then { s with mem := { s.mem with faultOn := false } } else s := by
  simp only [writeDev, true_and]

/-! BAR2 (R377). -/

/-- The branch of an open window; stated for any branches, so that none is evaluated. -/
theorem matchWindow_some {o : Option Nat} {page : Nat} (a : State) (f : Nat → State) : o = some page →
    (match o with
      | none => a
      | some p => f p) = f page := by
  rintro rfl
  rfl

section Bar2
variable {s : State} {port : Fin 2} (hdec : decodes (hostOf s port.val) = true)
include hdec

section Read
variable {off : Fin 1099511627776} {len : Fin 4097} (hin : inBar2 (hostOf s port.val) off.val len.val = true) (hlen : 0 < len.val)
include hin hlen

theorem bar2Read_proceeds :
    ¬ (!decodes (hostOf s port.val) || !inBar2 (hostOf s port.val) off.val len.val || len.val == 0) = true := by
  rw [hdec, hin]
  simp only [Bool.not_true, Bool.false_or, beq_iff_eq]
  omega

theorem exec_bar2Read_closed (hb : (hostOf s port.val).bar2 = none) :
    exec (.bar2Read port off len) s = .next (updHost s port.val (fun y => bar2Fault y false 0x02)) := by
  simp only [exec_bar2Read, execBar2Read, if_neg (bar2Read_proceeds hdec hin hlen), hb]

theorem exec_bar2Read_bad {page st : Nat} (hb : (hostOf s port.val).bar2 = some page)
    (ht : translateRange (seenMem s.mem) (page * 2 ^ 18 + off.val) len.val (ownedParts s port.val) false = .bad st) :
    exec (.bar2Read port off len) s = .next (updHost s port.val (fun y => bar2Fault y false st)) := by
  rw [exec_bar2Read, execBar2Read, if_neg (bar2Read_proceeds hdec hin hlen)]
  refine congrArg _ ((matchWindow_some _ _ hb).trans ?_)
  simp only [ht]

theorem exec_bar2Read_ok {page : Nat} (hb : (hostOf s port.val).bar2 = some page)
    (ht : ∀ st, translateRange (seenMem s.mem) (page * 2 ^ 18 + off.val) len.val (ownedParts s port.val) false ≠ .bad st) :
    exec (.bar2Read port off len) s = .next (updHost s port.val (fun y =>
      { y with rd := vaRead (seenMem s.mem) (page * 2 ^ 18 + off.val) len.val, ca := false })) := by
  rw [exec_bar2Read, execBar2Read, if_neg (bar2Read_proceeds hdec hin hlen)]
  refine congrArg _ ((matchWindow_some _ _ hb).trans ?_)
  cases hr : translateRange (seenMem s.mem) (page * 2 ^ 18 + off.val) len.val (ownedParts s port.val) false with
  | bad st => exact absurd hr (ht st)
  | ok t f => simp only [hr]
  | wait => simp only [hr]

end Read

section Write
variable {off : Fin 1099511627776} {data : List Byte} (hin : inBar2 (hostOf s port.val) off.val data.length = true)
  (hlen : 0 < data.length) (hmax : data.length ≤ 512)
include hin hlen hmax

theorem bar2Write_proceeds :
    ¬ (!decodes (hostOf s port.val) || !inBar2 (hostOf s port.val) off.val data.length || data.length == 0
      || decide (512 < data.length)) = true := by
  have hne : ¬ data = [] := by rintro rfl; exact absurd hlen (by decide)
  simp [hdec, hin, hmax, hne]

theorem exec_bar2Write_closed (hb : (hostOf s port.val).bar2 = none) :
    exec (.bar2Write port off data) s = .next (updHost s port.val (fun y => bar2Fault y true 0x02)) := by
  simp only [exec_bar2Write, execBar2Write, if_neg (bar2Write_proceeds hdec hin hlen hmax), hb]

/-- With no posted write before it, a write takes effect at once or joins the posted ones. -/
theorem exec_bar2Write_turn {page : Nat} (hb : (hostOf s port.val).bar2 = some page) (hw : (hostOf s port.val).waitWr = []) :
    exec (.bar2Write port off data) s = .next ((memWriteNow s port.val (page * 2 ^ 18 + off.val) data).getD
      (updHost s port.val (fun y => { y with waitWr := y.waitWr ++ [.mem (page * 2 ^ 18 + off.val) data] }))) := by
  have hempty : (hostOf s port.val).waitWr.isEmpty = true := by rw [hw]; rfl
  simp only [exec_bar2Write, execBar2Write, if_neg (bar2Write_proceeds hdec hin hlen hmax), hb, if_pos hempty]

end Write
end Bar2

section WriteNow
variable {s : State} {p va : Nat} {data : List Byte}

theorem memWriteNow_ok {t f : Nat} (h : translateRange (seenMem s.mem) va data.length (ownedParts s p) true = .ok t f) :
    memWriteNow s p va data = some { s with mem := seenWrite s.mem va data } := by
  rw [memWriteNow, h]

theorem memWriteNow_wait (h : translateRange (seenMem s.mem) va data.length (ownedParts s p) true = .wait) :
    memWriteNow s p va data = none := by
  rw [memWriteNow, h]

theorem memWriteNow_bad {st : Nat} (h : translateRange (seenMem s.mem) va data.length (ownedParts s p) true = .bad st) :
    memWriteNow s p va data = some (updHost s p (fun x => bar2Fault x true st)) := by
  rw [memWriteNow, h]

end WriteNow

/-- A port after a configuration request that completes (R369, R371, R373, R387). -/
def configured (s : State) (q : CfgReq) (x : HostPort) : HostPort :=
  match q with
  | .read off => { x with ca := false, rd := leBytes 4 (cfgWord s (off.val / 4 * 4)) }
  | .busMaster b => { x with ca := false, busMaster := b }
  | .msixEnable b => { x with ca := false, msixOn := b }
  | .functionMask b => { x with ca := false, fmask := b }
  | .d3hot => { x with ca := false, d3hot := true }
  | .resize n => { x with ca := false, barLog := n.val }

theorem exec_configRequest_of_up {s : State} {port : Fin 2} (h : (hostOf s port.val).linkUp = true) (q : CfgReq) :
    exec (.configRequest port q) s = .next (updHost s port.val (configured s q)) := by
  have hup : ¬ (!(hostOf s port.val).linkUp) = true := by simp [h]
  rw [exec_configRequest, execConfigRequest, if_neg hup]
  cases q <;> rfl

/-- Settles O41: BAR0, then BAR2 by the window and the translation, then the configuration space. -/
theorem hostAccessesReachRegistersAndMemory : Obligations.HostAccessesReachRegistersAndMemory := by
  intro s port x
  refine ⟨fun hdec => ⟨fun off hoff => ⟨exec_loReadLatch_of_aligned hdec hoff, fun hw v => exec_registerWrite_now hdec hoff hw v,
      fun hw v => exec_registerWrite_posted hdec hoff hw v⟩, fun v hw => ⟨?_, ?_, ?_, ?_, ?_⟩,
      fun off len => ⟨exec_bar0InvalidAccess_read hdec, fun h => ?_⟩, fun off len hin hlen => ?_, fun off data hin hlen hmax => ?_⟩,
    fun hup => ⟨fun off => exec_configRequest_of_up hup _, fun b => ⟨exec_configRequest_of_up hup _, exec_configRequest_of_up hup _,
      exec_configRequest_of_up hup _⟩, exec_configRequest_of_up hup _, fun n => exec_configRequest_of_up hup _⟩⟩
  · exact (exec_registerWrite_now hdec (by decide) hw v).trans (congrArg _ (regWriteNow_bar2 s port.val v))
  · exact (exec_registerWrite_now hdec (by decide) hw v).trans (congrArg _ ((regWriteNow_dev (by decide) s port.val v).trans (writeDev_trip s v)))
  · exact (exec_registerWrite_now hdec (by decide) hw v).trans
      (congrArg _ ((regWriteNow_dev (by decide) s port.val v).trans (writeDev_tripRecord s v)))
  · exact (exec_registerWrite_now hdec (by decide) hw v).trans (congrArg _ ((regWriteNow_dev (by decide) s port.val v).trans (writeDev_fault s v)))
  · exact (exec_registerWrite_now hdec (by decide) hw v).trans (congrArg _ (regWriteNow_zero s port.val v))
  · simp [exec_bar0InvalidAccess, execBar0InvalidAccess]
  · exact ⟨exec_bar2Read_closed hdec hin hlen, fun page hb => ⟨fun st => exec_bar2Read_bad hdec hin hlen hb,
      exec_bar2Read_ok hdec hin hlen hb⟩⟩
  · refine ⟨exec_bar2Write_closed hdec hin hlen hmax, fun page hb hw => ?_⟩
    intro va
    rw [exec_bar2Write_turn hdec hin hlen hmax hb hw]
    refine ⟨fun t f ht => ?_, fun ht => ?_, fun st ht => ?_⟩
    · rw [memWriteNow_ok ht]; rfl
    · rw [memWriteNow_wait ht]; rfl
    · rw [memWriteNow_bad ht]; rfl

/-! Mailboxes and vectors (R379 to R381, R387). -/

theorem postReg_now {s : State} {p : Nat} (hw : (hostOf s p).waitWr = []) (off : Nat) (v : Word) :
    postReg s p off v = regWriteNow s p off v := by
  have hempty : (hostOf s p).waitWr.isEmpty = true := by rw [hw]; rfl
  rw [postReg, if_pos hempty]

/-- A write to the doorbell of a mailbox. -/
theorem regWriteNow_doorbell {m : Nat} (hm : m < 16) (s : State) (p : Nat) (v : Word) :
    regWriteNow s p (0x10200 + 0x400 * m) v = updHost s p (fun x => setMbx x m (writeMbx s.clock (mbxOf x m) 0x200 v)) := by
  have hmbx : 0x10000 ≤ 0x10200 + 0x400 * m ∧ 0x10200 + 0x400 * m < 0x14000 := by omega
  have hidx : (0x10200 + 0x400 * m - 0x10000) / 1024 = m := by omega
  have hoff : (0x10200 + 0x400 * m - 0x10000) % 1024 = 0x200 := by omega
  rw [regWriteNow, if_pos hmbx, hidx, hoff]

theorem writeMbx_ring (clock : Nat) (y : Mbx) : writeMbx clock y 0x200 1 = ringMbx clock y := by
  simp [writeMbx]

theorem writeMbx_ack (clock : Nat) (y : Mbx) : writeMbx clock y 0x200 2 = ackMbx y := by
  simp [writeMbx]

theorem ringMbx_free {y : Mbx} (h : y.st = 0 ∨ y.st = 3) (clock : Nat) : ringMbx clock y
    = { y with st := 1, latched := smGetList 0 y.cmd 0 256, rungAt := clock, early := decide (clock < y.busyTill) } := by
  have hfree : ¬ (y.st = 1 ∨ y.st = 2) := by omega
  rw [ringMbx, if_neg hfree]

section Doorbell
variable {s : State} {port : Fin 2} (hdec : decodes (hostOf s port.val) = true) (hw : (hostOf s port.val).waitWr = []) (m : Fin 16)
include hdec hw

theorem exec_ring_now :
    exec (.ring port m) s = .next (updHost s port.val (fun x => setMbx x m.val (ringMbx s.clock (mbxOf x m.val)))) := by
  rw [exec_ring, execRing, if_pos hdec, postReg_now hw, regWriteNow_doorbell m.isLt]
  simp only [writeMbx_ring]

theorem exec_ack_now :
    exec (.ack port m) s = .next (updHost s port.val (fun x => setMbx x m.val (ackMbx (mbxOf x m.val)))) := by
  rw [exec_ack, execAck, if_pos hdec, postReg_now hw, regWriteNow_doorbell m.isLt]
  simp only [writeMbx_ack]

end Doorbell

theorem exec_commandTake_of_waiting {s : State} {port : Fin 2} {m : Fin 16} (hk : kilnUp s = true)
    (hany : (mbxTasks s).any (fun k => k.idx == 16 * port.val + m.val) = true) (theirs : LockSide) :
    exec (.commandTake port m theirs) s = .next (takeUpTo s theirs (16 * port.val + m.val) 32) := by
  have hall : (kilnUp s && (mbxTasks s).any (fun k => k.idx == 16 * port.val + m.val)) = true := by simp [hk, hany]
  rw [exec_commandTake, execCommandTake]
  exact congrArg _ (if_pos hall)

theorem takeUpTo_other {s : State} {i : Nat} {k : KTask} (hn : nextTask 1 (mbxTasks s) = some k) (hi : k.idx ≠ i) (theirs : LockSide)
    (n : Nat) : takeUpTo s theirs i (n + 1) = takeUpTo (takeCmd s (k.idx / 16) (k.idx % 16) theirs) theirs i n := by
  simp only [takeUpTo, hn, if_neg hi]

theorem takeUpTo_own {s : State} {i : Nat} {k : KTask} (hn : nextTask 1 (mbxTasks s) = some k) (hi : k.idx = i) (theirs : LockSide)
    (n : Nat) : takeUpTo s theirs i (n + 1) = takeCmd s (i / 16) (i % 16) theirs := by
  simp only [takeUpTo, hn, hi, if_true]

theorem takeCmd_of_pending {s : State} {p m : Nat} (hk : kilnUp s = true) (hst : (mbxOf (hostOf s p) m).st = 1)
    (hwake : mayWake s (mbxOf (hostOf s p) m) = true) (hop : cmdHdr (mbxOf (hostOf s p) m).latched 0 16 ≠ 0x03) (theirs : LockSide) :
    takeCmd s p m theirs =
      let b := (mbxOf (hostOf s p) m).latched
      let k := cmdServe (trace s 0x08 0 0 0 (mbxTrace p m (cmdHdr b 0 16) 0)) p theirs (mbxOf (hostOf s p) m).early b
      cmdRespond s p m b { k with st := { k.st with kiln := { k.st.kiln with resp := k.res, respSt := k.status } } } := by
  have hserve : ¬ (!kilnUp s || (mbxOf (hostOf s p) m).st != 1 || !mayWake s (mbxOf (hostOf s p) m)) = true := by
    simp [hk, hst, hwake]
  have hanswers (status : Nat) : ¬ (cmdHdr (mbxOf (hostOf s p) m).latched 0 16 = 0x03 ∧ status = 0) := fun h => hop h.1
  simp only [takeCmd, if_neg hserve, if_neg (hanswers _)]

/-! The port (R371, R373, R390, R391). -/

section Port
variable {s : State} {port : Fin 2}

theorem exec_heartbeatSample_of_attached {r : Ring} (hk : s.kiln.stat ≠ 2) (hr : (hostOf s port.val).ev = some r)
    (hst : (hostOf s port.val).st = 1) :
    exec (.heartbeatSample port) s =
      let b := BitVec.ofNat 32 (ringHostBeat s.mem r)
      let n := if (hostOf s port.val).beat = some b then (hostOf s port.val).same + 1 else 0
      let s1 := { s with mem := setRingField s.mem r 40 ((ringDevBeat s.mem r + 1) % 2 ^ 32) }
      let s2 := flushLost (updHost s1 port.val (fun y => { y with beat := some b, same := n })) port.val
      .next (if 10 ≤ n then hostLost s2 port.val else s2) := by
  have hattached : ¬ (hostOf s port.val).st ≠ 1 := not_not.mpr hst
  rw [exec_heartbeatSample, execHeartbeatSample, whileKiln_of_running hk]
  simp only [hr, if_neg hattached]

theorem exec_hostHoldExpiry_of_held (hk : s.kiln.stat ≠ 2) (hst : (hostOf s port.val).st = 2) :
    exec (.hostHoldExpiry port) s = .next (updHost (tearDown s (portCtxs s port.val) (ownedParts s port.val)) port.val
      (fun y => { y with st := 0, hold := none, hostId := 0, ev := none, log := none, trace := none, evDrop := 0 })) := by
  rw [exec_hostHoldExpiry, execHostHoldExpiry, whileKiln_of_running hk, if_neg (not_not.mpr hst)]

/-- A reset whose cause can arise loses the host and clears the port; PERST and the link follow the cause. -/
theorem exec_portReset_of_cause {how : PortRst} (h : canReset (hostOf s port.val) how = true) :
    exec (.portReset port how) s = .next (updHost (hostLost s port.val) port.val (fun x => { clearPort x with
      perst := how == .perst || x.perst, linkUp := x.linkUp && (how == .flr || how == .d3ToD0) })) := by
  have hcan : ¬ (!canReset (hostOf s port.val) how) = true := by simp [h]
  rw [exec_portReset, execPortReset, if_neg hcan]

theorem exec_portReset_link {how : PortRst} (h : canReset (hostOf s port.val) how = true) (hp : how ≠ .perst) (hf : how ≠ .flr)
    (hd : how ≠ .d3ToD0) :
    exec (.portReset port how) s =
      .next (updHost (hostLost s port.val) port.val (fun y => { clearPort y with linkUp := false })) := by
  have hlink (b : Bool) : (b && (how == .flr || how == .d3ToD0)) = false := by simp [hf, hd]
  have hperst (b : Bool) : (how == .perst || b) = b := by simp [hp]
  rw [exec_portReset_of_cause h]
  simp only [hlink, hperst]
  rfl

theorem exec_portReset_function {how : PortRst} (h : canReset (hostOf s port.val) how = true) (hhow : how = .flr ∨ how = .d3ToD0) :
    exec (.portReset port how) s = .next (updHost (hostLost s port.val) port.val clearPort) := by
  have hlink (b : Bool) : (b && (how == .flr || how == .d3ToD0)) = b := by rcases hhow with rfl | rfl <;> simp
  have hperst (b : Bool) : (how == .perst || b) = b := by rcases hhow with rfl | rfl <;> simp
  rw [exec_portReset_of_cause h]
  simp only [hlink, hperst]
  rfl

theorem exec_portReset_perst :
    exec (.portReset port .perst) s =
      .next (updHost (hostLost s port.val) port.val (fun y => { clearPort y with perst := true, linkUp := false })) := by
  have hlink (b : Bool) : (b && (PortRst.perst == .flr || PortRst.perst == .d3ToD0)) = false := by simp
  have hperst (b : Bool) : (PortRst.perst == .perst || b) = true := by simp
  rw [exec_portReset_of_cause rfl]
  simp only [hlink, hperst]

end Port

/-- Settles O42: the doorbells, the order of the mailboxes, then each port row under its conditions. -/
theorem portsMailboxesAndHeartbeats : Obligations.PortsMailboxesAndHeartbeats := by
  intro s port x
  refine ⟨fun m hdec hw => ?_, fun m theirs k hk hn hi hany => ?_, fun m theirs q hk hn hi hq hst hwake => ?_, fun v hv => ?_,
    fun r hk hr hst => ?_, exec_hostHoldExpiry_of_held, fun hup => ⟨?_, ?_, ?_, fun hd3 => ?_⟩, exec_portReset_perst, fun hstage => ?_⟩
  · intro y
    rw [exec_ring_now hdec hw, exec_ack_now hdec hw]
    refine ⟨fun hfree => ?_, fun hbusy => ?_, fun hdone => ?_⟩
    · exact congrArg (fun z => Host.Outcome.next (setHost s port.val (setMbx (hostOf s port.val) m.val z))) (ringMbx_free hfree s.clock)
    · exact congrArg (fun z => Host.Outcome.next (setHost s port.val (setMbx (hostOf s port.val) m.val z))) (if_pos hbusy)
    · exact congrArg (fun z => Host.Outcome.next (setHost s port.val (setMbx (hostOf s port.val) m.val z))) (if_pos hdone)
  · rw [exec_commandTake_of_waiting hk hany, takeUpTo_other hn hi]
  · intro b s1 k hop
    have hany : (mbxTasks s).any (fun k => k.idx == 16 * port.val + m.val) = true := List.any_eq_true.mpr ⟨q, hq, by simp [hi]⟩
    have hp : (16 * port.val + m.val) / 16 = port.val := by omega
    have hm : (16 * port.val + m.val) % 16 = m.val := by omega
    rw [exec_commandTake_of_waiting hk hany, takeUpTo_own hn hi, hp, hm, takeCmd_of_pending hk hst hwake hop]
  · rw [exec_msixSend, execMsixSend, if_pos hv]
  · intro b n s1 s2
    rw [exec_heartbeatSample_of_attached hk hr hst]
    exact ⟨fun hn => congrArg _ (if_neg (Nat.not_le.mpr hn)), fun hn => congrArg _ (if_pos hn)⟩
  · exact exec_portReset_link hup (by decide) (by decide) (by decide)
  · exact exec_portReset_link hup (by decide) (by decide) (by decide)
  · exact exec_portReset_function hup (.inl rfl)
  · exact exec_portReset_function (by rw [canReset, hup, hd3]; rfl) (.inr rfl)
  · rw [exec_portTrain, execPortTrain, if_pos hstage]

end Sys2Proof.Machine
end

section
/-! SUPPORT. Lock-step, the watchdog and telemetry (O43). -/

namespace Sys2Proof.Machine

/-! Windows and records (R333, R334). -/

/-- An own window as it completes in a section. -/
def ownWindow (s : State) (tag : Word) (sect att w : Nat) : LsWin := ⟨tag, sect, att, w, streamDigests (windowTiles s.kiln.ls.sums w)⟩

/-- The log entry of an own window, not yet compared. -/
def windowEntry (s : State) (tag : Word) (sect att w : Nat) : LsLog :=
  ⟨ownWindow s tag sect att w, windowTiles s.kiln.ls.sums w, false⟩

/-- The state with an own window logged and its record sent. -/
def windowLogged (s : State) (tag : Word) (sect att w : Nat) : State :=
  { s with kiln := { s.kiln with ls := { s.kiln.ls with
    sums := s.kiln.ls.sums.filter (fun k => k.1 / 4096 != w)
    next := w + 1
    log := trimLog s.kiln.ls.logsz
      (s.kiln.ls.log.filter (fun o => !outdated (ownWindow s tag sect att w) o.own) ++ [windowEntry s tag sect att w])
    theirs := s.kiln.ls.theirs.filter (fun o => !outdated (ownWindow s tag sect att w) o.1)
    sentRec := some (ownWindow s tag sect att w) } } }

section Windows
variable {s : State} {w sect att : Nat} {tag : Word} (hsec : s.kiln.ls.sec = some (tag, sect, att)) (hen : s.kiln.ls.enable = true)
  (hnext : s.kiln.ls.next = w) (hpast : tilesPast s w = true) (hitems : itemsDone s w = true)
include hsec hen hnext hpast hitems

omit hsec in
/-- Nothing keeps the window from completing. -/
theorem windowDone_proceeds :
    ¬ (!s.kiln.ls.enable || s.kiln.ls.next != w || !tilesPast s w || !itemsDone s w) = true := by
  simp [hen, hnext, hpast, hitems]

theorem windowDone_first (hf : (windowLogged s tag sect att w).kiln.ls.theirs.find?
      (fun o => sameSec o.1 (ownWindow s tag sect att w) && o.1.win == w) = none) :
    windowDone s w = windowLogged s tag sect att w := by
  simp only [windowLogged, windowEntry, ownWindow] at hf ⊢
  simp only [windowDone, hsec, if_neg (windowDone_proceeds hen hnext hpast hitems), hf]

theorem windowDone_second {b : LsWin × SMap DWord} (hf : (windowLogged s tag sect att w).kiln.ls.theirs.find?
      (fun o => sameSec o.1 (ownWindow s tag sect att w) && o.1.win == w) = some b) :
    windowDone s w = compareWin (windowLogged s tag sect att w) (windowEntry s tag sect att w) b := by
  simp only [windowLogged, windowEntry, ownWindow] at hf ⊢
  simp only [windowDone, hsec, if_neg (windowDone_proceeds hen hnext hpast hitems), hf]

end Windows

section Records
variable {s : State} (hen : s.kiln.ls.enable = true) (b : LsWin × SMap DWord)

/-- The state that holds a partner's record. -/
def recordHeld (s : State) (b : LsWin × SMap DWord) : State :=
  { s with kiln := { s.kiln with ls := { s.kiln.ls with
    log := s.kiln.ls.log.filter (fun o => !outdated b.1 o.own)
    theirs := s.kiln.ls.theirs.filter (fun o => !outdated b.1 o.1) ++ [b] } } }

include hen

theorem takeRec_first (hf : (recordHeld s b).kiln.ls.log.find? (fun e => sameSec e.own b.1 && e.own.win == b.1.win && !e.met) = none) :
    takeRec s b = recordHeld s b := by
  have hgo : ¬ (!s.kiln.ls.enable) = true := by simp [hen]
  simp only [recordHeld] at hf ⊢
  simp only [takeRec, if_neg hgo, hf]

theorem takeRec_second {e : LsLog}
    (hf : (recordHeld s b).kiln.ls.log.find? (fun e => sameSec e.own b.1 && e.own.win == b.1.win && !e.met) = some e) :
    takeRec s b = compareWin (recordHeld s b) e b := by
  have hgo : ¬ (!s.kiln.ls.enable) = true := by simp [hen]
  simp only [recordHeld] at hf ⊢
  simp only [takeRec, if_neg hgo, hf]

end Records

/-! The ends of lock-step, Kiln's restart, telemetry (R331, R335, R397, R406 to R410). -/

section Ends
variable {s : State} (hk : s.kiln.stat ≠ 2)
include hk

theorem exec_lockstepLagExceeded_of_lag (hen : s.kiln.ls.enable = true) (hlag : 2 ^ s.kiln.ls.logsz < lsLag s.kiln.ls) :
    exec .lockstepLagExceeded s = .next (loseLock s) := by
  simp [exec_lockstepLagExceeded, execLockstepLagExceeded, whileKiln_of_running hk, hen, hlag]

theorem exec_lockstepRecordTimeout_of_lag (hen : s.kiln.ls.enable = true) (hlag : 0 < lsLag s.kiln.ls) :
    exec .lockstepRecordTimeout s = .next (loseLock s) := by
  simp [exec_lockstepRecordTimeout, execLockstepRecordTimeout, whileKiln_of_running hk, hen, hlag]

theorem exec_watchdogRestart_of_running {core : Fin 4} {cause : Fin 3} (hr : s.boot.running = true) (hstage : 1 ≤ s.boot.stage) :
    exec (.watchdogRestart core cause) s = .next (watchdogFire s core.val cause.val) := by
  simp [exec_watchdogRestart, execWatchdogRestart, hr, hstage, hk]

end Ends

theorem exec_kilnRestartRecovery_of_restarting {s : State} (hr : s.boot.running = true) (hk : s.kiln.stat = 2) (keepOk : Bool) :
    exec (.kilnRestartRecovery keepOk) s = .next (endHandshake (rebegin (recoverKiln s keepOk))) := by
  simp [exec_kilnRestartRecovery, execKilnRestartRecovery, hr, hk]

/-- Settles O43: the windows and records by what the other side's list holds, then each row under its conditions. -/
theorem lockStepWatchdogAndTelemetry : Obligations.LockStepWatchdogAndTelemetry := by
  intro s x
  refine ⟨fun w sect att tag hsec hen hnext => ?_, fun r hen => ?_, exec_lockstepLagExceeded_of_lag, exec_lockstepRecordTimeout_of_lag,
    fun w hk hw => ?_, fun core cause hr hstage hk => exec_watchdogRestart_of_running hk hr hstage,
    fun keepOk hr hk => exec_kilnRestartRecovery_of_restarting hr hk keepOk, fun hup => ⟨?_, fun r => ?_⟩⟩
  · intro tiles own hpast hitems e s1
    have hrow : exec (.comparisonWindowComplete w) s = .next (windowDone s w) := rfl
    rw [hrow]
    exact ⟨fun hf => congrArg _ (windowDone_first hsec hen hnext hpast hitems hf),
      fun b hf => congrArg _ (windowDone_second hsec hen hnext hpast hitems hf)⟩
  · intro b s1
    have hrow : exec (.lockstepRecord r) s = .next (takeRec s (recOf r)) := rfl
    rw [hrow]
    exact ⟨fun hf => congrArg _ (takeRec_first hen (recOf r) hf), fun e hf => congrArg _ (takeRec_second hen (recOf r) hf)⟩
  · rw [exec_lockstepPartnerTimeout, execLockstepPartnerTimeout, whileKiln_of_running hk, hw]
  · rw [exec_telemetrySample, execTelemetrySample, if_pos hup]
  · rw [exec_decimationUpdate, execDecimationUpdate, if_pos hup]
    rfl

end Sys2Proof.Machine
end

section
/-! SUPPORT. Kindling (O44, O45). -/

namespace Sys2Proof.Machine

/-! A stage that runs (R412): each row acts. -/

section Stage0
variable {s : State} (h : inStage s 0 = true) {x : StageOut} (h1 : x.code ≠ 1) (h3 : x.code ≠ 3)
include h h1 h3

theorem exec_stage0_found {n : Nat} {i : FwImage} (hc : (chooseImage (dropCut s.flash)).2 = some (n, i)) :
    exec (.stage0 x) s = .next (startImage { s with flash := (chooseImage (dropCut s.flash)).1 } n i x.ms) := by
  have hrun : ¬ (!inStage s 0) = true := by simp [h]
  rw [exec_stage0, execStage0, if_neg hrun, if_neg h1, if_neg h3]
  simp only [hc]

theorem exec_stage0_none (hc : (chooseImage (dropCut s.flash)).2 = none) :
    exec (.stage0 x) s = .next (romStop { s with flash := (chooseImage (dropCut s.flash)).1 } 2 x.ms) := by
  have hrun : ¬ (!inStage s 0) = true := by simp [h]
  rw [exec_stage0, execStage0, if_neg hrun, if_neg h1, if_neg h3]
  simp only [hc]

end Stage0

/-- R433, R434: the state with what Stage 1 reads recorded. -/
def identified (s : State) (puf : PufRead) (serials : List Nat) (valid : Bool) : State :=
  { s with
    boot := { s.boot with
      pufCorr := min puf.corr 0xFFFF
      idValid := valid
      serials := (List.range 12).map (nth0 serials) }
    mem := (List.range 12).foldl (fun m i => setMemDev m 1 i { memDevOf m 1 i with present := nth0 serials i != 0 }) s.mem }

theorem identOk_of_stage1Code {f : Flash} {puf : PufRead} (h : stage1Code f puf = 0) : identOk f puf = true := by
  by_contra hid
  have hbad : (!identOk f puf) = true := by simpa using hid
  rw [stage1Code, if_pos hbad] at h
  exact absurd h (by decide)

section Stage1
variable {s : State} (h : inStage s 1 = true) (x : StageOut) (puf : PufRead) (serials : List Nat)
include h

theorem exec_stage1_pass (hc : stage1Code s.flash puf = 0) :
    exec (.stage1 x puf serials) s =
      let s2 := resetSettings (identified s puf serials true)
      .next (passStage { s2 with
        kiln := { s2.kiln with dclass := (classString s2.flash).take 31 }
        flash := if s2.flash.copy = 4 then s2.flash.putUpd (fun u => { u with tries := 0 }) else s2.flash } 1 0 x.ms) := by
  have hrun : ¬ (!inStage s 1) = true := by simp [h]
  rw [exec_stage1, execStage1, if_neg hrun, if_neg (not_not.mpr hc), identOk_of_stage1Code hc]
  rfl

theorem exec_stage1_stop (hc : stage1Code s.flash puf ≠ 0) :
    exec (.stage1 x puf serials) s =
      .next (stopKindling (identified s puf serials (identOk s.flash puf)) 1 (stage1Code s.flash puf) x.ms) := by
  have hrun : ¬ (!inStage s 1) = true := by simp [h]
  rw [exec_stage1, execStage1, if_neg hrun, if_pos hc]
  rfl

end Stage1

theorem exec_stage2_pass {s : State} (h : inStage s 2 = true) (x : StageOut) {bad : List (Nat × Nat × Nat)} {mtemp : Int}
    (hc : stage2Code (shedAll { s with boot := { s.boot with mtemp := mtemp } } bad).pwr = 0) :
    exec (.stage2 x bad mtemp) s =
      .next (passStage (shedAll { s with boot := { s.boot with mtemp := mtemp } } bad) 2 0 x.ms) := by
  have hrun : ¬ (!inStage s 2) = true := by simp [h]
  rw [exec_stage2, execStage2, if_neg hrun, if_neg (not_not.mpr hc)]

section Stage3
variable {s : State} (h : inStage s 3 = true) (ht : s.boot.decided = true ∨ s.boot.waited = true ∨ s.kiln.utc ≠ none) (x : StageOut)
  (c : Calib)
include h ht

theorem stage3_proceeds : ¬ (!inStage s 3 || (!s.boot.decided && !s.boot.waited && s.kiln.utc.isNone)) = true := by
  rcases ht with ht | ht | ht
  · simp [h, ht]
  · simp [h, ht]
  · simp [h, ht]

theorem exec_stage3_pass (h1 : x.code ≠ 0x31) (h2 : x.code ≠ 0x32) :
    exec (.stage3 x c) s =
      let s1 := decideStart s
      let s2 := updPwr s1 (fun w => { w with vtable := c.vtab.foldl (fun m e => smSet 0 m e.1 e.2) w.vtable })
      .next (passStage (setLevels { s2 with boot := { s2.boot with paths := measuredPaths s1 c.paths } }) 3 0 x.ms) := by
  have hcode : ¬ (x.code = 0x31 ∨ x.code = 0x32) := by simp [h1, h2]
  rw [exec_stage3, execStage3, if_neg (stage3_proceeds h ht), if_neg hcode]

theorem exec_stage3_stop (hcode : x.code = 0x31 ∨ x.code = 0x32) :
    exec (.stage3 x c) s = .next (stopKindling (decideStart s) 3 x.code x.ms) := by
  rw [exec_stage3, execStage3, if_neg (stage3_proceeds h ht), if_pos hcode]

end Stage3

theorem applyMap_repaired (s : State) (ts : List Nat) :
    applyMap { s with boot := { s.boot with unrep := false } } ts =
      updTiles { s with boot := { s.boot with unrep := false, lanes := laneMaps (defects s.flash) } } ts (placePhys (defects s.flash)) := rfl

section Stage4
variable {s : State} (h : inStage s 4 = true) (x : StageOut) {found : List (List Defect)}
include h

theorem exec_stage4_pass (hc : (powerWaves s found).2 = 0) :
    exec (.stage4 x found) s =
      let s1 := (powerWaves s found).1
      .next (passStage (updTiles (updTiles { s1 with boot := { s1.boot with
          unrep := false, lanes := laneMaps (defects s1.flash) } } (List.range 2048) (placePhys (defects s1.flash)))
        (List.range 2048) (fun _ y => { y with spad := [], badPar := [] })) 4 0 x.ms) := by
  have hrun : ¬ (!inStage s 4) = true := by simp [h]
  rw [exec_stage4, execStage4, if_neg hrun, if_neg (not_not.mpr hc), applyMap_repaired]

theorem exec_stage4_stop (hc : (powerWaves s found).2 ≠ 0) :
    exec (.stage4 x found) s = .next (stopKindling
      { (powerWaves s found).1 with boot := { (powerWaves s found).1.boot with unrep := true } } 4 (powerWaves s found).2 x.ms) := by
  have hrun : ¬ (!inStage s 4) = true := by simp [h]
  rw [exec_stage4, execStage4, if_neg hrun, if_pos hc]

end Stage4

/-- R418: the state with the frames of Stage 5 withheld. -/
def hbmTrained (s : State) (bad : List Nat) (res : List (Fin 16 × Nat)) : State :=
  withhold (keepTraining { s with mem := trainDevs s.mem 0 16 (fun _ => true) } 0 res) 0 bad

/-- R418, R419: the state with the frames of Stage 6 withheld. -/
def ddrTrained (s : State) (bad : List Nat) (res : List (Fin 16 × Nat)) : State :=
  withhold (keepTraining { s with mem := trainDevs s.mem 1 12 (fun i => nth0 s.boot.serials i != 0) } 1 res) 1 bad

theorem exec_stage5_pass {s : State} (h : inStage s 5 = true) {x : StageOut} (hcode : x.code ≠ 0x51) {bad : List Nat}
    {res : List (Fin 16 × Nat)} (hc : overWithheld (hbmTrained s bad res).mem 0 16 2621 = false) :
    exec (.stage5 x ⟨bad, res⟩) s = .next (passStage (hbmTrained s bad res) 5 0 x.ms) := by
  have hrun : ¬ (!inStage s 5) = true := by simp [h]
  rw [exec_stage5, execStage5, if_neg hrun, if_neg hcode]
  exact congrArg _ (if_neg (Bool.eq_false_iff.mp hc))

section Stage6
variable {s : State} (h : inStage s 6 = true) {x : StageOut} {bad : List Nat} {res : List (Fin 16 × Nat)}
include h

theorem exec_stage6_unfitted (hd : ddrFitted s = false) :
    exec (.stage6 x ⟨bad, res⟩) s = .next (trainAll (passStage s 6 0x60 x.ms)) := by
  have hrun : ¬ (!inStage s 6) = true := by simp [h]
  have hfit : (!ddrFitted s) = true := by simp [hd]
  rw [exec_stage6, execStage6, if_neg hrun, if_pos hfit]

theorem exec_stage6_pass (hd : ddrFitted s = true) (hs : s.boot.serials.any (· == 0) = false) (h2 : x.code ≠ 0x62) (h3 : x.code ≠ 0x63)
    (hc : overWithheld (ddrTrained s bad res).mem 1 12 5242 = false) :
    exec (.stage6 x ⟨bad, res⟩) s = .next (trainAll (passStage (ddrTrained s bad res) 6 0 x.ms)) := by
  have hrun : ¬ (!inStage s 6) = true := by simp [h]
  have hfit : ¬ (!ddrFitted s) = true := by simp [hd]
  have hcode : ¬ (x.code = 0x62 ∨ x.code = 0x63) := by simp [h2, h3]
  rw [exec_stage6, execStage6, if_neg hrun, if_neg hfit, if_neg (Bool.eq_false_iff.mp hs), if_neg hcode]
  exact congrArg _ (if_neg (Bool.eq_false_iff.mp hc))

end Stage6

theorem exec_stage7_pass {s : State} (h : inStage s 7 = true) (hl : ∀ l < 96, (portOf s.lk l).st ≠ 1) (x : StageOut) :
    exec (.stage7 x) s = .next (passStage s 7 (linksCode s) x.ms) := by
  have hdone : (inStage s 7 && (List.range 96).all (fun l => (portOf s.lk l).st != lsTraining)) = true := by
    rw [h, Bool.true_and, List.all_eq_true]
    exact fun l hmem => bne_iff_ne.mpr (hl l (List.mem_range.mp hmem))
  rw [exec_stage7, execStage7, if_pos hdone]

theorem exec_stage8_ready {s : State} (h : inStage s 8 = true) (x : StageOut) :
    exec (.stage8 x) s =
      let s1 := spareAgain (saveSettings s)
      .next (endTrial (postReport { s1 with boot := { s1.boot with state := 2, code := 0 } } 8
        (reportWord 0 2 (fastStage s 8) false x.ms))) := by
  have hrun : ¬ (!inStage s 8) = true := by simp [h]
  rw [exec_stage8, execStage8, if_neg hrun]

/-- Settles O44: the nine stages, each under its conditions. -/
theorem kindlingStagesPass : Obligations.KindlingStagesPass := by
  intro s x
  refine ⟨fun h h1 h3 n i hc => exec_stage0_found h h1 h3 hc, fun h puf serials hc => ?_, fun h bad mtemp => ?_,
    fun h ht h1 h2 vtab paths => ?_, fun h found hc => ?_, fun h hcode bad res => ?_,
    fun h bad res => ⟨fun hd => exec_stage6_unfitted h hd, fun hd hs h2 h3 => ?_⟩,
    fun h hl => exec_stage7_pass h hl x, fun h => exec_stage8_ready h x⟩
  · exact exec_stage1_pass h x puf serials hc
  · exact exec_stage2_pass h x
  · exact exec_stage3_pass h ht x ⟨vtab, paths⟩ h1 h2
  · exact exec_stage4_pass h x hc
  · exact exec_stage5_pass h hcode
  · exact exec_stage6_pass h hd hs h2 h3

/-! Stops, waits and copies (R413 to R420, R423, R450, R451). -/

theorem exec_imageCopyDone_staged {s : State} (hk : kilnUp s = true) (hb : s.boot.booted = 2) (hc : s.flash.copy < 4) :
    exec .imageCopyDone s = .next (advanceCopy s) := by
  simp [exec_imageCopyDone, execImageCopyDone, hk, hb, hc]

theorem exec_imageCopyDone_previous {s : State} (hk : kilnUp s = true) (hb : s.boot.booted = 1) (hc : s.flash.copy = 5) :
    exec .imageCopyDone s = .next (advanceCopy s) := by
  simp [exec_imageCopyDone, execImageCopyDone, hk, hb, hc]

theorem advanceCopy_previous {s : State} (hc : s.flash.copy = 5) :
    advanceCopy s = postAll { s with flash := { s.flash.putUpd (fun u => { u with staging := 3, copy := 0 }) with
      active := s.flash.previous } } 0x1C [imgVersion s.flash.previous] := by
  simp only [advanceCopy, hc]

theorem exec_stage3TimeWait_of_none {s : State} (h : inStage s 3 = true) (hu : s.kiln.utc = none) :
    exec .stage3TimeWait s = .next { s with boot := { s.boot with waited := true } } := by
  simp [exec_stage3TimeWait, execStage3TimeWait, h, hu]

section Ntp
variable {s : State} (hk : kilnUp s = true) (utc : Nat)
include hk

theorem exec_ntpAnswer_first (hu : s.kiln.utc = none) :
    exec (.ntpAnswer utc) s = .next { s with kiln := { s.kiln with utc := some utc, utcAt := s.clock } } := by
  rw [exec_ntpAnswer, execNtpAnswer, if_pos hk, learnTime, hu]
  rfl

theorem exec_ntpAnswer_later (hu : s.kiln.utc ≠ none) : exec (.ntpAnswer utc) s = .next s := by
  rw [exec_ntpAnswer, execNtpAnswer, if_pos hk, learnTime, if_pos (Option.isSome_iff_ne_none.mpr hu)]

end Ntp

/-- Settles O45: the stops of the stages that have one, the waits, the copies. -/
theorem kindlingStopsWaitsAndCopies : Obligations.KindlingStopsWaitsAndCopies := by
  intro s
  refine ⟨fun h => ⟨?_, ?_, fun x h1 h3 hc => exec_stage0_none h h1 h3 hc⟩,
    fun h x puf serials hc => exec_stage1_stop h x puf serials hc,
    fun h => ⟨exec_stage3TimeWait_of_none h, fun x vtab paths hcode ht => exec_stage3_stop h ht x ⟨vtab, paths⟩ hcode⟩,
    fun h x found hc => exec_stage4_stop h x hc, fun n found => rfl, fun hk hu utc => exec_ntpAnswer_first hk utc hu,
    fun hk hu utc => exec_ntpAnswer_later hk utc hu, fun h ms => ?_, exec_imageCopyDone_staged, fun hk hb hc => ?_⟩
  · rw [exec_romSelftestTimeout, execRomSelftestTimeout, if_pos h]
    rfl
  · rw [exec_serviceBankTimeout, execServiceBankTimeout, if_pos h]
    rfl
  · rw [exec_stage7Timeout, execStage7Timeout, if_pos h]
  · rw [exec_imageCopyDone_previous hk hb hc, advanceCopy_previous hc]

end Sys2Proof.Machine
end

section
/-! SUPPORT. The transfer service, activation, SPDM and the side-band (O46, O48). -/

namespace Sys2Proof.Machine

/-! The transfer service (R442 to R445). -/

theorem exec_transferConnect_of_free {s : State} (hup : xferUp s = true) (hc : s.upd.conn = false)
    (hp : s.boot.recovery = true ∨ s.flash.svcRec.value.port ≠ none) :
    exec .transferConnect s = .next { s with upd := { s.upd with conn := true, header := none, body := [] } } := by
  have hrun : ¬ (!xferUp s) = true := by simp [hup]
  have hport : ¬ (!s.boot.recovery && s.flash.svcRec.value.port.isNone) = true := by
    rcases hp with hp | hp <;> simp [hp]
  rw [exec_transferConnect, execTransferConnect, if_neg hrun, if_neg (Bool.eq_false_iff.mp hc), if_neg hport]

theorem exec_transferAbort_of_conn {s : State} (hc : s.upd.conn = true) : exec .transferAbort s = .next (endTransfer s) := by
  rw [exec_transferAbort, execTransferAbort, if_pos hc]

theorem exec_transferTimeout_of_conn {s : State} (hc : s.upd.conn = true) :
    exec .transferTimeout s = .next (abortTransfer s 0x49) := by
  rw [exec_transferTimeout, execTransferTimeout, if_pos hc]

theorem endTransfer_of_receiving {s : State} (h : s.flash.staging = 1) :
    endTransfer s = { s with flash := s.flash.dropStaged, upd := { s.upd with conn := false, header := none, body := [] } } := by
  rw [endTransfer, if_pos h]

section Connected
variable {s : State} (hup : xferUp s = true) (hc : s.upd.conn = true)
include hup hc

/-- The transfer service answers on its connection. -/
theorem xfer_answers : (xferUp s && s.upd.conn) = true := by simp [hup, hc]

theorem exec_transferConnect_of_conn : exec .transferConnect s = .next (sendMsg s 0x09 0x01 []) := by
  have hrun : ¬ (!xferUp s) = true := by simp [hup]
  rw [exec_transferConnect, execTransferConnect, if_neg hrun, if_pos hc]

theorem exec_hello_of_version : exec (.hello 1) s = .next (sendMsg s 0x02 0 (infoPayload s)) := by
  have hall : (xferUp s && s.upd.conn && (1 : Word) == 1) = true := by simp [hup, hc]
  rw [exec_hello, execHello, if_pos hall]

theorem exec_header_of_conn (h : List Byte) (sigOk : Bool) : exec (.header h sigOk) s = .next (takeHeader s h sigOk) := by
  rw [exec_header, execHeader, if_pos (xfer_answers hup hc)]

theorem exec_chunk_of_header {h : List Byte} {sigOk : Bool} (hh : s.upd.header = some (h, sigOk)) (off : DWord) (bytes : List Byte) :
    exec (.chunk off bytes) s = .next (takeChunk s h off.toNat bytes) := by
  rw [exec_chunk, execChunk, hh]
  exact congrArg _ (if_pos (xfer_answers hup hc))

theorem exec_finish_of_header {h : List Byte} {sigOk : Bool} (hh : s.upd.header = some (h, sigOk)) :
    exec .finish s = .next (finishBody s h sigOk) := by
  rw [exec_finish, execFinish, hh]
  exact congrArg _ (if_pos (xfer_answers hup hc))

end Connected

section Header
variable {s : State} {h : List Byte} {sigOk : Bool}

theorem takeHeader_busy (hb : headerBusy s = true) : takeHeader s h sigOk = sendMsg s 0x04 0x46 [] := by
  simp [takeHeader, hb]

theorem takeHeader_bad (hb : headerBusy s = false) (hst : headerStatus s.flash h sigOk ≠ 0) :
    takeHeader s h sigOk = sendMsg s 0x04 (headerStatus s.flash h sigOk) [] := by
  simp [takeHeader, hb, hst]

theorem takeHeader_ok (hb : headerBusy s = false) (hst : headerStatus s.flash h sigOk = 0) :
    takeHeader s h sigOk = sendMsg { s with
      flash := s.flash.dropStaged.putUpd (fun u => { u with staging := 1 })
      upd := { s.upd with header := some (h, sigOk), body := [], rxKib := 0 } } 0x04 0 [] := by
  simp [takeHeader, hb, hst]

end Header

section Chunk
variable {s : State} {h : List Byte} {off : Nat} {bytes : List Byte} (hpos : 0 < bytes.length) (hmax : bytes.length ≤ 65536)
include hpos hmax

theorem takeChunk_next (hoff : off = s.upd.body.length) (hfit : s.upd.body.length + bytes.length ≤ hdrBodyLen h) :
    takeChunk s h off bytes = sendMsg { s with upd := { s.upd with
        body := s.upd.body ++ bytes, rxKib := min ((s.upd.body.length + bytes.length) / 1024) 4096 } } 0x06 0
      (beBytes 8 (s.upd.body.length + bytes.length)) := by
  have hlen : ¬ (bytes.length = 0 ∨ 65536 < bytes.length) := by omega
  rw [takeChunk, if_neg hlen, if_neg (not_not.mpr hoff), if_neg (Nat.not_lt.mpr hfit)]

theorem takeChunk_other (hoff : off ≠ s.upd.body.length) :
    takeChunk s h off bytes = sendMsg s 0x06 0x47 (beBytes 8 s.upd.body.length) := by
  have hlen : ¬ (bytes.length = 0 ∨ 65536 < bytes.length) := by omega
  rw [takeChunk, if_neg hlen, if_pos hoff]

end Chunk

section Finish
variable {s : State} {h : List Byte} {sigOk : Bool}

theorem recoverImage_of_running {s : State} (h : s.boot.recovery = false) : recoverImage s = s := by
  have hrun : (!s.boot.recovery) = true := by simp [h]
  rw [recoverImage, if_pos hrun]

theorem finishBody_ok (hd : digest48 s.upd.body = hdrDigest h) (hr : s.boot.recovery = false) :
    finishBody s h sigOk = sendMsg { s with
      flash := { s.flash.putUpd (fun u => { u with staging := 2 }) with staged := some ⟨h, s.upd.body, sigOk⟩ }
      upd := { s.upd with header := none, body := [] } } 0x08 0 [] := by
  rw [finishBody, if_pos hd]
  exact recoverImage_of_running hr

theorem finishBody_bad (hd : digest48 s.upd.body ≠ hdrDigest h) :
    finishBody s h sigOk = sendMsg { s with
      flash := s.flash.dropStaged
      upd := { s.upd with header := none, body := [] } } 0x08 0x48 [] := if_neg hd

end Finish

/-! Scheduled activation (R447, R448). -/

section Activation
variable {s : State} (hk : kilnUp s = true)
include hk

theorem exec_activationTime_of_due (ha : s.upd.actSt = 1) (ht : s.upd.actTime.toNat ≤ ftimeNs s.fab) :
    exec .activationTime s = .next { pauseAct s with upd := { (pauseAct s).upd with actSt := 2 } } := by
  have hall : (kilnUp s && s.upd.actSt == 1 && decide (s.upd.actTime.toNat ≤ ftimeNs s.fab)) = true := by simp [hk, ha, ht]
  rw [exec_activationTime, execActivationTime, if_pos hall]

theorem exec_activationStarted_of_met (ha : s.upd.actSt = 2) (hm : actUnmet s = 0) :
    exec .activationStarted s =
      let s1 := postAll s 0x19 [imgVersion s.flash.staged]
      .next (restartModule { s1 with flash := s1.flash.putUpd (fun u => { u with copy := 1 }) }) := by
  have hall : (kilnUp s && s.upd.actSt == 2 && actUnmet s == 0) = true := by simp [hk, ha, hm]
  rw [exec_activationStarted, execActivationStarted, if_pos hall]

theorem exec_activationCancelled_of_unmet (ha : s.upd.actSt = 2) (hm : firstUnmet (actUnmet s) ≠ 0) :
    exec .activationCancelled s = .next (postAll { resumeAct s with upd := { (resumeAct s).upd with
      actSt := 4, unmet := firstUnmet (actUnmet s) } } 0x1A [firstUnmet (actUnmet s)]) := by
  have hall : (kilnUp s && s.upd.actSt == 2 && firstUnmet (actUnmet s) != 0) = true := by simp [hk, ha, hm]
  rw [exec_activationCancelled, execActivationCancelled, if_pos hall]

end Activation

/-- Settles O46: each message by the checks it meets, and the activation by its state. -/
theorem transfersAndActivation : Obligations.TransfersAndActivation := by
  intro s
  refine ⟨exec_transferConnect_of_free, fun hup hc => ⟨exec_transferConnect_of_conn hup hc, exec_hello_of_version hup hc,
      fun h sigOk => ?_, fun h sigOk off bytes hh => ?_⟩, fun hc hst => ⟨?_, ?_⟩,
    fun hk => exec_activationTime_of_due hk, fun hk ha hm => exec_activationStarted_of_met hk ha hm,
    fun hk => exec_activationCancelled_of_unmet hk⟩
  · rw [exec_header_of_conn hup hc]
    exact ⟨fun hb hst => congrArg _ (takeHeader_ok hb hst), fun hb hst => congrArg _ (takeHeader_bad hb hst),
      fun hb => congrArg _ (takeHeader_busy hb)⟩
  · rw [exec_chunk_of_header hup hc hh, exec_finish_of_header hup hc hh]
    exact ⟨fun hpos hmax hoff hfit => congrArg _ (takeChunk_next hpos hmax hoff hfit),
      fun hpos hmax hoff => congrArg _ (takeChunk_other hpos hmax hoff),
      fun hd hr => congrArg _ (finishBody_ok hd hr), fun hd => congrArg _ (finishBody_bad hd)⟩
  · rw [exec_transferAbort_of_conn hc, endTransfer_of_receiving hst]
  · rw [exec_transferTimeout_of_conn hc, abortTransfer, endTransfer_of_receiving hst, sendMsg]

/-! SPDM (R437, R438). -/

section Spdm
variable {s : State} {port : Fin 2} (hk : kilnUp s = true) (hl : (hostOf s port.val).linkUp = true) (hb : 2 ≤ s.boot.stage)
include hk hl hb

theorem spdmServe_of_served (f : SpdmConn → SpdmConn) :
    spdmServe s port.val f = raiseVec (setSpdm s port.val (f (spdmOf s port.val))) port.val 20 := by
  have hup : ¬ (!(kilnUp s && (hostOf s port.val).linkUp)) = true := by simp [hk, hl]
  have hserved : spdmServed s = true := decide_eq_true hb
  rw [spdmServe, if_neg hup]
  exact congrArg (fun y => raiseVec (setSpdm s port.val y) port.val 20) (if_pos hserved)

/-- A request that needs the negotiation, on a connection that has made it. -/
theorem spdmServe_afterAlgs (ha : (spdmOf s port.val).algs = true) (r : SpdmResp) :
    spdmServe s port.val (fun x => afterAlgs x r)
      = raiseVec (setSpdm s port.val { spdmOf s port.val with last := some r }) port.val 20 := by
  rw [spdmServe_of_served hk hl hb, afterAlgs, if_pos ha, reply]

theorem exec_getCapabilities_of_version (hv : (spdmOf s port.val).version = true) :
    exec (.getCapabilities port) s = .next (raiseVec (setSpdm s port.val { spdmOf s port.val with
      caps := true, last := some (.capabilities true true 2 17) }) port.val 20) := by
  rw [exec_getCapabilities, execGetCapabilities, spdmServe_of_served hk hl hb, if_pos hv]

theorem exec_negotiateAlgorithms_of_caps (hc : (spdmOf s port.val).caps = true) :
    exec (.negotiateAlgorithms port true true) s = .next (raiseVec (setSpdm s port.val { spdmOf s port.val with
      algs := true, last := some (.algorithms 384 384) }) port.val 20) := by
  have hcaps : ¬ (!(spdmOf s port.val).caps) = true := by simp [hc]
  rw [exec_negotiateAlgorithms, execNegotiateAlgorithms, spdmServe_of_served hk hl hb, if_neg hcaps, if_pos (by decide)]

theorem exec_getCertificate_slot0 (ha : (spdmOf s port.val).algs = true) (off len : Nat) :
    exec (.getCertificate port 0 off len) s = .next (raiseVec (setSpdm s port.val { spdmOf s port.val with
      last := some (if (chainBytes s).length ≤ off then .error spdmInvalid
        else .certificate (((chainBytes s).drop off).take len) ((chainBytes s).length - off - len)) }) port.val 20) := by
  rw [exec_getCertificate, execGetCertificate, spdmServe_afterAlgs hk hl hb ha]
  simp only [ne_eq, not_true, false_or]

theorem exec_challenge_slot0 (ha : (spdmOf s port.val).algs = true) (nonce : List Byte) :
    exec (.challenge port 0 nonce) s = .next (raiseVec (setSpdm s port.val { spdmOf s port.val with
      last := some (.challengeAuth (digest48 (measurementBytes (allMeasurements s)))
        (deviceSign s (nonce ++ digest48 (chainBytes s) ++ digest48 (measurementBytes (allMeasurements s))))) }) port.val 20) := by
  rw [exec_challenge, execChallenge, spdmServe_afterAlgs hk hl hb ha, if_neg (not_not.mpr rfl)]

theorem exec_spdmUnsupported_of_other {code : Byte} (hcode : servedCodes.contains code.toNat = false) :
    exec (.spdmUnsupported port code) s = .next (raiseVec (setSpdm s port.val { spdmOf s port.val with
      last := some (.error spdmUnsupportedCode) }) port.val 20) := by
  rw [exec_spdmUnsupported, execSpdmUnsupported, if_neg (Bool.eq_false_iff.mp hcode), spdmServe_of_served hk hl hb, reply]

end Spdm

/-! The side-band (R351, R472). -/

theorem smbDo_of_on {s : State} (hon : s.pwr.isOn = true) (data : List Byte) (f : State → State) :
    smbDo s true data f = { f s with smb := ⟨true, data⟩ } := by
  rw [smbDo, hon]
  rfl

theorem setBmcCap_inRange {w : Nat} (h : w = 0 ∨ (3000 ≤ w ∧ w ≤ 6400)) (s : State) :
    setBmcCap s w = Sys2Proof.powerNow s { s.pwr with capBmc := w, capStatus := 0 } := by
  simp only [setBmcCap, if_pos h, updPwr_eq_powerNow]

theorem setBmcCap_outOfRange {w : Nat} (h0 : w ≠ 0) (h : w < 3000 ∨ 6400 < w) (s : State) :
    setBmcCap s w = Sys2Proof.powerNow s { s.pwr with capStatus := 0x04 } := by
  have hout : ¬ (w = 0 ∨ (3000 ≤ w ∧ w ≤ 6400)) := by omega
  simp only [setBmcCap, if_neg hout, updPwr_eq_powerNow]

/-- Settles O48: a served request by the state of its connection, a transaction with a right PEC. -/
theorem spdmAndSideBandAnswer : Obligations.SpdmAndSideBandAnswer := by
  intro s port x said
  refine ⟨fun hk hl hb => ⟨?_, exec_getCapabilities_of_version hk hl hb, exec_negotiateAlgorithms_of_caps hk hl hb, fun ha =>
      ⟨?_, exec_getCertificate_slot0 hk hl hb ha, exec_challenge_slot0 hk hl hb ha, fun idx sign nonce => ?_⟩,
      fun code hcode => exec_spdmUnsupported_of_other hk hl hb hcode⟩,
    fun hon => ⟨fun off => ?_, ?_, ?_, fun w hw => ?_, fun w h0 hw => ?_⟩⟩
  · rw [exec_getVersion, execGetVersion, spdmServe_of_served hk hl hb]
  · rw [exec_getDigests, execGetDigests, spdmServe_afterAlgs hk hl hb ha]
  · rw [exec_getMeasurements, execGetMeasurements, spdmServe_afterAlgs hk hl hb ha]
  · rw [exec_fruRead, execFruRead, smbDo_of_on hon, id]
  · rw [exec_telemetry, execTelemetry, smbDo_of_on hon, id]
  · rw [exec_capStatus, execCapStatus, smbDo_of_on hon, id]
  · rw [exec_capSet, execCapSet, smbDo_of_on hon, setBmcCap_inRange hw]
  · rw [exec_capSet, execCapSet, smbDo_of_on hon, setBmcCap_outOfRange h0 hw]

end Sys2Proof.Machine
end

section
/-! SUPPORT. Submissions and steps (O56). -/

namespace Sys2Proof.Machine

/-! Submissions (R132, R381, R383, R385, R388, R458). -/

theorem exec_load_ok {s : State} {c : Fin 256} {tag : Word} {img : Image} (hlive : ctxLive s c.val = true)
    (hrun : (ctxOf s c.val).run = none) (hturn : loadTurn (ctxOf s c.val) tag.toNat = true) (hfull : cplFull s c.val = false)
    (hok : imageOk s c.val img = true) :
    exec (.load c tag img) s = .next (settleCtx (complete (updCtx (if (ctxOf s c.val).queue.isEmpty then s else popSub s c.val) c.val
      (fun y => { y with image := some img })) c.val tag.toNat 0x0100 0 0) c.val) := by
  have hgo : ¬ (!ctxLive s c.val || (ctxOf s c.val).run.isSome || !loadTurn (ctxOf s c.val) tag.toNat || cplFull s c.val) = true := by
    simp [hlive, hrun, hturn, hfull]
  rw [exec_load, execLoad, if_neg hgo]
  exact congrArg _ (if_pos hok)

/-- A write to the doorbell of a context. -/
theorem regWriteNow_ringDb {c : Nat} (hc : c < 256) (s : State) (p : Nat) (v : Word) :
    regWriteNow s p (0x20000 + 8 * c) v = ringDbNow s p c := by
  have hmbx : ¬ (0x10000 ≤ 0x20000 + 8 * c ∧ 0x20000 + 8 * c < 0x14000) := by omega
  have hdb : 0x20000 ≤ 0x20000 + 8 * c ∧ 0x20000 + 8 * c < 0x20800 := by omega
  have hword : (0x20000 + 8 * c) % 8 = 0 := by omega
  have hidx : (0x20000 + 8 * c - 0x20000) / 8 = c := by omega
  rw [regWriteNow, if_neg hmbx, if_pos hdb, if_pos hword, hidx]

theorem exec_ringDb_now {s : State} {port : Fin 2} (hdec : decodes (hostOf s port.val) = true) (hw : (hostOf s port.val).waitWr = [])
    (c : Fin 256) : exec (.ringDb port c) s = .next (ringDbNow s port.val c.val) := by
  rw [exec_ringDb, execRingDb, if_pos hdec, postReg_now hw, regWriteNow_ringDb c.isLt]

section Doorbell
variable {s : State} {port c : Nat} (hlive : ctxLive s c = true)
include hlive

theorem ringDbNow_foreign (hp : (ctxOf s c).port ≠ port) :
    ringDbNow s port c = updHost s port (fun x => { x with foreign := min (x.foreign + 1) 0xFF }) := by
  have hl : ¬ (!ctxLive s c) = true := by simp [hlive]
  rw [ringDbNow, if_neg hl, if_pos hp]

theorem ringDbNow_ready (hp : (ctxOf s c).port = port) (hr : dbReady s c = true) : ringDbNow s port c = serveDb s c := by
  have hl : ¬ (!ctxLive s c) = true := by simp [hlive]
  rw [ringDbNow, if_neg hl, if_neg (not_not.mpr hp), if_pos hr]

theorem ringDbNow_waits (hp : (ctxOf s c).port = port) (hr : dbReady s c = false) :
    ringDbNow s port c = updCtx s c (fun x => { x with dbWait := true }) := by
  have hl : ¬ (!ctxLive s c) = true := by simp [hlive]
  rw [ringDbNow, if_neg hl, if_neg (not_not.mpr hp), if_neg (Bool.eq_false_iff.mp hr)]

end Doorbell

theorem submissionsAreTaken : Sys2Proof.SubmissionsAreTaken := by
  intro s c x
  refine ⟨fun tag img hlive hrun hturn hfull => ?_, fun tag n mb seed hlive => ?_, fun port hdec hw hlive => ?_⟩
  · exact ⟨exec_load_ok hlive hrun hturn hfull, exec_load_invalid hlive hrun hturn hfull⟩
  · rw [exec_step, execStep, if_pos hlive, addSub]
  · rw [exec_ringDb_now hdec hw]
    exact ⟨fun hp hr => congrArg _ (ringDbNow_ready hlive hp hr), fun hp hr => congrArg _ (ringDbNow_waits hlive hp hr),
      fun hp => congrArg _ (ringDbNow_foreign hlive hp)⟩

/-! Steps (R200, R299, R400). -/

theorem whileKiln_of_restarting {s : State} (h : s.kiln.stat = 2) (t : State) : whileKiln s t = s := if_pos h

theorem launchNext_eq (s : State) (c : Nat) (r : StepRun) :
    launchNext s c r = if r.sect = 1 then beginSection (clearCounts s c) c { r with mcopy := takesCopy (ctxOf s c) r.step.toNat }
      else beginSection s c r := by
  by_cases h : r.sect = 1
  · simp only [launchNext, if_pos h]
  · simp only [launchNext, if_neg h]

section Boundary
variable {s : State} {p : Nat} (hbusy : partBusy s p = false) (hidle : partIdle s p = true) (hlag : lagOk s p = true)
  (hrec : recovering s p = false)
include hbusy hidle hlag hrec

theorem stepLaunch_proceeds : ¬ (partBusy s p || !partIdle s p || !lagOk s p || recovering s p) = true := by
  simp [hbusy, hidle, hlag, hrec]

theorem stepLaunch_of_halting {c : Nat} {r : StepRun} (hc : runningCtx s p = some c) (hr : (ctxOf s c).run = some r)
    (hph : r.phase = .halting) : stepLaunch s p = launchNext s c r := by
  simp only [stepLaunch, if_neg (stepLaunch_proceeds hbusy hidle hlag hrec), hc, hr, hph, if_true]

section Free
variable (hnone : runningCtx s p = none)
  (hrec1 : recovering (retryBad ((partCtxs s p).foldl settleCtx (readWaiting s p))) p = false)
include hnone hrec1

theorem stepLaunch_of_next {c : Nat} (hc : nextStep (retryBad ((partCtxs s p).foldl settleCtx (readWaiting s p))) p = some c) :
    stepLaunch s p = launch (retryBad ((partCtxs s p).foldl settleCtx (readWaiting s p))) c := by
  simp only [stepLaunch, if_neg (stepLaunch_proceeds hbusy hidle hlag hrec), hnone, if_neg (Bool.eq_false_iff.mp hrec1), hc]

theorem stepLaunch_of_noNext (hc : nextStep (retryBad ((partCtxs s p).foldl settleCtx (readWaiting s p))) p = none) :
    stepLaunch s p = retryBad ((partCtxs s p).foldl settleCtx (readWaiting s p)) := by
  simp only [stepLaunch, if_neg (stepLaunch_proceeds hbusy hidle hlag hrec), hnone, if_neg (Bool.eq_false_iff.mp hrec1), hc]

end Free
end Boundary

theorem stepSettled_of_done {s : State} {p : Nat} (hq : queuesEmpty s p = true)
    (ht : ∀ t ∈ partTiles (partOf s p), (tileOf s t).st = .run → ∃ d, (tileOf s t).doneAt = some d ∧ d + 64 ≤ (tileOf s t).cyc) :
    stepSettled s p = true := by
  rw [stepSettled, hq, Bool.and_true, List.all_eq_true]
  intro t hmem
  by_cases hst : (tileOf s t).st = .run
  · obtain ⟨d, hd, hle⟩ := ht t hmem hst
    simp [hd, hle]
  · simp [hst]

theorem stepEnd_of_done {s : State} {c : Nat} {r : StepRun} (hr : (ctxOf s c).run = some r) (hc : (ctxOf s c).cord = none)
    (hph : r.phase = .run) (hd : allDone s (ctxOf s c).part r = true) (hs : stepSettled s (ctxOf s c).part = true) :
    stepEnd s c = retryBad (finishStep (haltPart s (ctxOf s c).part) c 0 false) := by
  have hall : ((ctxOf s c).cord.isNone && r.phase == .run && allDone s (ctxOf s c).part r && stepSettled s (ctxOf s c).part) = true := by
    simp [hc, hph, hd, hs]
  simp only [stepEnd, hr, if_pos hall]

theorem stepsStartAndEnd : Sys2Proof.StepsStartAndEnd := by
  intro s
  refine ⟨fun hk => ⟨fun part => ?_, fun c => ?_⟩, fun part hk hbusy hidle hlag hrec => ⟨fun c r hc hr hph => ?_, fun hnone => ?_⟩,
    fun c r hk hr hc hph hd hq ht => ?_⟩
  · rw [exec_stepLaunch, execStepLaunch, whileKiln_of_restarting hk]
  · rw [exec_stepEnd, execStepEnd, whileKiln_of_restarting hk]
  · rw [exec_stepLaunch, execStepLaunch, whileKiln_of_running hk, stepLaunch_of_halting hbusy hidle hlag hrec hc hr hph, launchNext_eq]
  · intro s1 hrec1
    rw [exec_stepLaunch, execStepLaunch, whileKiln_of_running hk]
    exact ⟨fun c hc => congrArg _ (stepLaunch_of_next hbusy hidle hlag hrec hnone hrec1 hc),
      fun hc => congrArg _ (stepLaunch_of_noNext hbusy hidle hlag hrec hnone hrec1 hc)⟩
  · rw [exec_stepEnd, execStepEnd, whileKiln_of_running hk, stepEnd_of_done hr hc hph hd (stepSettled_of_done hq ht)]

/-- Settles O56: the submissions, then the steps. -/
theorem submissionsAndStepsRun : Obligations.SubmissionsAndStepsRun := ⟨submissionsAreTaken, stepsStartAndEnd⟩

end Sys2Proof.Machine
end

section
/-! SUPPORT. What the parts of a physical cycle leave of a tile's cycle and clock counters (spec/07_clocks_and_logical_time.md R198,
R202): everything but the end of a logical cycle and a hold leaves them. -/

namespace Sys2Proof.Machine

/-- The logical cycle in progress and the three clock counters of R202 that balance. -/
structure Pace where
  cyc     : Nat
  phys    : BitVec 64
  logical : BitVec 64
  hold    : BitVec 64

/-- PHYS = LOGICAL + HOLD. -/
def Pace.Balanced (p : Pace) : Prop := p.phys = p.logical + p.hold

/-- After a completed logical cycle (R104). -/
def Pace.completed (p : Pace) : Pace := { p with cyc := p.cyc + 1, phys := p.phys + 1, logical := p.logical + 1 }

/-- After a held physical cycle (R198). -/
def Pace.held (p : Pace) : Pace := { p with phys := p.phys + 1, hold := p.hold + 1 }

/-- After the last cycle of a tile that an operation stops (R131). -/
def Pace.stopped (p : Pace) : Pace := { p with phys := p.phys + 1, logical := p.logical + 1 }

theorem Pace.Balanced.completed {p : Pace} (h : p.Balanced) : p.completed.Balanced :=
  (congrArg (· + 1) h).trans (add_right_comm p.logical p.hold 1)

theorem Pace.Balanced.stopped {p : Pace} (h : p.Balanced) : p.stopped.Balanced :=
  (congrArg (· + 1) h).trans (add_right_comm p.logical p.hold 1)

theorem Pace.Balanced.held {p : Pace} (h : p.Balanced) : p.held.Balanced :=
  (congrArg (· + 1) h).trans (add_assoc p.logical p.hold 1)

/-- The pace of a tile. -/
def pace (x : Tile) : Pace := ⟨x.cyc, x.phys, x.logical, x.hold⟩

/-- What a hold of a tile turns on: its pace, whether the counters count, and the losers of a bank conflict. -/
structure ClockSide where
  pace  : Pace
  clkOn : Bool
  confQ : List Nat
  hConf : Word

/-- The clock side of a tile. -/
def clockSide (x : Tile) : ClockSide := ⟨pace x, x.clkOn, x.confQ, x.hConf⟩

/-- A fold of changes that each leave a view of the tile, or of the device, leaves it. -/
theorem foldl_keeps {α β γ : Type} {view : α → γ} {f : α → β → α} (hf : ∀ x b, view (f x b) = view x) (l : List β) (x : α) :
    view (l.foldl f x) = view x := by
  induction l generalizing x with
  | nil => rfl
  | cons b l ih => rw [List.foldl_cons, ih, hf]

/-! What falls due at the start of a cycle (R96, R103, R146, R147). -/

theorem clockSide_emptySlots (x : Tile) (l : List Nat) : clockSide (emptySlots x l) = clockSide x := by
  induction l generalizing x with
  | nil => rfl
  | cons s ss ih =>
    rw [emptySlots, ih]
    split <;> rfl

theorem clockSide_progTag (x : Tile) (slot : Nat) (g : TagSt) : clockSide (progTag x slot g) = clockSide x := by
  cases g <;> simp only [progTag] <;> split <;> rfl

theorem clockSide_loosen (own : Nat) (before after : Tile) (l : List Nat) : clockSide (loosen own before after l) = clockSide after := by
  induction l generalizing after with
  | nil => rfl
  | cons s ss ih =>
    rw [loosen, ih]
    split <;> rfl

theorem clockSide_applyDue (x : Tile) (d : Due) : clockSide (applyDue x d) = clockSide x := by
  cases d with
  | sc n w => simp only [applyDue]; split <;> rfl
  | wopen w d =>
    simp only [applyDue]
    split
    · rw [clockSide_loosen, clockSide_emptySlots]; rfl
    · rfl
  | tag s g => rw [applyDue, clockSide_loosen, clockSide_progTag]
  | mtag s g => rw [applyDue, clockSide_loosen, clockSide_progTag]
  | _ => rfl

theorem clockSide_settleDue (x : Tile) : clockSide (settleDue x) = clockSide x := by
  have leaves (y : Tile) (p : Nat × Due) : clockSide (applyDue y p.2) = clockSide y := clockSide_applyDue y p.2
  simp only [settleDue, foldl_keeps leaves]
  rfl

theorem clockSide_moverTag (x : Tile) (slot : Nat) (e : TagEv) : clockSide (moverTag x slot e) = clockSide x := by
  cases e <;> simp only [moverTag] <;> split <;> rfl

theorem clockSide_settleSoon (x : Tile) : clockSide (settleSoon x) = clockSide x := by
  have leaves (y : Tile) (p : Nat × TagEv) : clockSide (moverTag y p.1 p.2) = clockSide y := clockSide_moverTag y p.1 p.2
  rw [settleSoon, foldl_keeps leaves]
  rfl

theorem clockSide_addEv (x : Tile) (c : Nat) (e : NumEv) : clockSide (addEv x c e) = clockSide x := by
  unfold addEv
  split <;> rfl

theorem clockSide_drainRead (x : Tile) (d : DrainOp) : clockSide (drainRead x d) = clockSide x := by
  unfold drainRead
  split
  · rw [clockSide_addEv]; rfl
  · rfl

theorem clockSide_residueError (x : Tile) (col : Nat) : clockSide (residueError x col) = clockSide x := rfl

theorem clockSide_settleArray (x : Tile) : clockSide (settleArray x) = clockSide x :=
  (foldl_keeps clockSide_residueError _ _).trans (foldl_keeps clockSide_drainRead x.arr.drains x)

theorem clockSide_tileNow (x : Tile) : clockSide (tileNow x) = clockSide x := by
  rw [tileNow, clockSide_settleArray, clockSide_settleSoon, clockSide_settleDue]

theorem clockSide_tileAt (x : Tile) (up : CycleEnv) : clockSide (tileAt x up) = clockSide x := by
  rw [tileAt, clockSide_settleArray, clockSide_settleSoon, clockSide_settleDue]
  rfl

theorem pace_of_clockSide {x y : Tile} (h : clockSide y = clockSide x) : pace y = pace x := congrArg ClockSide.pace h

theorem pace_addEv (x : Tile) (c : Nat) (e : NumEv) : pace (addEv x c e) = pace x := pace_of_clockSide (clockSide_addEv x c e)

theorem pace_drainRead (x : Tile) (d : DrainOp) : pace (drainRead x d) = pace x := pace_of_clockSide (clockSide_drainRead x d)

/-! Refusals and results of an operation (R131). -/

theorem pace_tileFault (x : Tile) (f : TFault) (slot fpc : Nat) : pace (tileFault x f slot fpc) = pace x := by
  unfold tileFault
  dsimp only
  split <;> rfl

/-- An operation that issues leaves the pace; a refused one is recorded by its fault. -/
def KeepsPace (x : Tile) : Except TFault Tile → Prop
  | .ok y => pace y = pace x
  | .error _ => True

theorem KeepsPace.slotResult {x y : Tile} {r : Except TFault Tile} (h : KeepsPace x r) (hy : pace y = pace x) (slot fpc : Nat) :
    pace (slotResult y slot fpc r) = pace x := by
  cases r with
  | ok z => exact h
  | error f => exact (pace_tileFault y f slot fpc).trans hy

theorem KeepsPace.bind {x : Tile} {r : Except TFault Tile} {f : Tile → Except TFault Tile} (h : KeepsPace x r)
    (hf : ∀ y, pace y = pace x → KeepsPace x (f y)) : KeepsPace x (r >>= f) := by
  cases r with
  | ok y => exact hf y h
  | error e => trivial

theorem KeepsPace.read {α : Type} {x : Tile} (r : Except TFault α) {f : α → Except TFault Tile} (hf : ∀ a, KeepsPace x (f a)) :
    KeepsPace x (r >>= f) := by
  cases r with
  | ok a => exact hf a
  | error e => trivial

theorem KeepsPace.ite {c : Prop} [Decidable c] {x : Tile} {a b : Except TFault Tile} (ha : KeepsPace x a) (hb : KeepsPace x b) :
    KeepsPace x (if c then a else b) := by
  split
  · exact ha
  · exact hb

theorem keepsPace_claimAll (x : Tile) (l : List (Nat × RegName)) : KeepsPace x (claimAll x l) := .ite trivial (.ite rfl trivial)

theorem keepsPace_portClaim (x : Tile) (c : Nat) (p : VPort) : KeepsPace x (portClaim x c p) := .ite trivial rfl

theorem keepsPace_outClaim (x : Tile) (cs : List Nat) : KeepsPace x (outClaim x cs) := .ite trivial rfl

theorem KeepsPace.of_pace {x y : Tile} {r : Except TFault Tile} (hr : KeepsPace y r) (h : pace y = pace x) : KeepsPace x r := by
  cases r with
  | ok z => exact Eq.trans hr h
  | error e => trivial

theorem pace_addPinc (x : Tile) (n : Nat) (on : Bool) : pace (addPinc x n on) = pace x := by
  unfold addPinc
  split <;> rfl

theorem pace_addSinc (x : Tile) (ssel : Nat) (on : Bool) : pace (addSinc x ssel on) = pace x := by
  unfold addSinc
  split <;> rfl

theorem pace_memIncs (x : Tile) (f : VMem) : pace (memIncs x f) = pace x := by
  rw [memIncs, pace_addSinc, foldl_keeps (view := pace) (fun y n => pace_addPinc y n true)]

/-! The control slot. -/

theorem keepsPace_scResult (x : Tile) (d : Fin 16) (v : Word) : KeepsPace x (scResult x d v) :=
  (keepsPace_claimAll x _).bind fun _ hy => hy

theorem keepsPace_issueFlow (pc : Nat) (x : Tile) (o : CtlOp) : KeepsPace x (issueFlow pc x o) := by
  unfold issueFlow
  split
  · rfl
  · trivial

theorem keepsPace_issueLdi (x : Tile) (d : Fin 16) (mode : Fin 4) (imm : BitVec 16) : KeepsPace x (issueLdi x d mode imm) := by
  unfold issueLdi
  split
  · exact keepsPace_scResult ..
  · exact keepsPace_scResult ..
  · exact keepsPace_scResult ..
  · rfl

theorem keepsPace_issueSalu (x : Tile) (d a b fn : Fin 16) : KeepsPace x (issueSalu x d a b fn) := by
  unfold issueSalu
  split
  · exact keepsPace_scResult ..
  · rfl

theorem keepsPace_issueRdsr (x : Tile) (d sel : Fin 16) : KeepsPace x (issueRdsr x d sel) := by
  unfold issueRdsr
  split
  · exact keepsPace_scResult ..
  · rfl

theorem keepsPace_issueCtl (pc : Nat) (x : Tile) (o : CtlOp) : KeepsPace x (issueCtl pc x o) := by
  cases o with
  | ldi d m i => exact keepsPace_issueLdi ..
  | salu d a b f => exact keepsPace_issueSalu ..
  | saddi d a i => exact keepsPace_scResult ..
  | adset n a b => exact (keepsPace_claimAll x _).bind fun _ hy => hy
  | rdsr d sel => exact keepsPace_issueRdsr ..
  | loop c n stop => exact keepsPace_issueFlow ..
  | jmp target => exact keepsPace_issueFlow ..
  | bnz a target => exact keepsPace_issueFlow ..
  | _ => rfl

/-! The array slot. -/

theorem keepsPace_issueWload (x : Tile) (didx : BitVec 13) : KeepsPace x (issueWload x didx) := by
  refine .read _ fun w => ?_
  dsimp only
  split
  · trivial
  · exact .ite trivial (.ite trivial rfl)

theorem keepsPace_issueStream (x : Tile) (didx : BitVec 13) (prob : Fin 8) (swap asrc : Bool) (asc : Fin 16) :
    KeepsPace x (issueStream x didx prob swap asrc asc) := by
  refine .read _ fun w => ?_
  dsimp only
  split
  · trivial
  · trivial
  · refine .ite trivial (.ite trivial (.ite trivial (.ite trivial ?_)))
    split
    · trivial
    · rfl

theorem keepsPace_issueDrain (x : Tile) (didx : BitVec 13) : KeepsPace x (issueDrain x didx) := by
  refine .read _ fun w => ?_
  dsimp only
  split
  · exact .ite trivial (.ite trivial (.ite trivial (pace_drainRead _ _)))
  · trivial

theorem keepsPace_issueArr (x : Tile) (o : ArrOp) : KeepsPace x (issueArr x o) := by
  cases o with
  | wload d => exact keepsPace_issueWload ..
  | stream d p s a c => exact keepsPace_issueStream ..
  | drain d => exact keepsPace_issueDrain ..
  | mode h p => exact .ite trivial rfl
  | _ => rfl

/-! The vector slot. -/

theorem keepsPace_regResult (x : Tile) (f : VReg) (lat : Nat) (lanes : List Nat) (ev : NumEv) : KeepsPace x (regResult x f lat lanes ev) :=
  (keepsPace_claimAll x _).bind fun _ hy => (pace_addEv _ _ _).trans ((pace_addSinc _ _ _).trans hy)

theorem keepsPace_issueArith (op : XVal → XVal → XVal → XVal × Nat) (uses : Nat) (x : Tile) (f : VReg) :
    KeepsPace x (issueArith op uses x f) := by
  unfold issueArith
  split
  · rfl
  · exact keepsPace_regResult ..

theorem keepsPace_issueVrsum (x : Tile) (f : VReg) : KeepsPace x (issueVrsum x f) := by
  unfold issueVrsum
  split
  · rfl
  · exact keepsPace_regResult ..

theorem keepsPace_issueFn (fn : Nat → Nat × NumEv) (x : Tile) (f : VReg) : KeepsPace x (issueFn fn x f) :=
  .ite rfl (keepsPace_regResult ..)

/-- A memory form claims its results and its port cycle; what it then schedules leaves the pace. -/
theorem keepsPace_portForm (x : Tile) (l : List (Nat × RegName)) (c : Nat) (p : VPort) {finish : Tile → Tile}
    (hfinish : ∀ y, pace (finish y) = pace y) :
    KeepsPace x (claimAll x l >>= fun y => portClaim y c p >>= fun z => .ok (finish z)) :=
  (keepsPace_claimAll x l).bind fun y hy =>
    ((keepsPace_portClaim y c p).of_pace hy).bind fun z hz => (hfinish z).trans hz

theorem keepsPace_issueVld (x : Tile) (f : VMem) : KeepsPace x (issueVld x f) := by
  unfold issueVld
  split
  · rfl
  · exact .ite rfl (.ite trivial (keepsPace_portForm x _ _ _ fun y => pace_memIncs y f))

theorem keepsPace_issueVdqt (x : Tile) (f : VMem) : KeepsPace x (issueVdqt x f) := by
  unfold issueVdqt
  split
  · rfl
  · exact .ite rfl (.ite trivial (keepsPace_portForm x _ _ _ fun y => pace_memIncs y f))

theorem keepsPace_issueVscan (x : Tile) (f : VMem) : KeepsPace x (issueVscan x f) := by
  unfold issueVscan
  split
  · rfl
  · exact keepsPace_portForm x _ _ _ fun y => pace_memIncs y f

theorem keepsPace_issueVst (x : Tile) (f : VMem) : KeepsPace x (issueVst x f) := by
  unfold issueVst
  split
  · exact .ite rfl (.ite trivial (keepsPace_portForm x _ _ _ fun y => (pace_addEv _ _ _).trans (pace_memIncs y f)))
  · rfl

theorem keepsPace_issueVqnt (x : Tile) (f : VMem) : KeepsPace x (issueVqnt x f) := by
  unfold issueVqnt
  split
  · exact .ite rfl (.ite trivial (keepsPace_portForm x _ _ _ fun y => (pace_addEv _ _ _).trans (pace_memIncs y f)))
  · rfl

theorem keepsPace_issueVdig (x : Tile) (f : VMem) : KeepsPace x (issueVdig x f) :=
  (keepsPace_claimAll x _).bind fun _ hy => (pace_memIncs _ f).trans hy

theorem keepsPace_issueVec (x : Tile) (o : VecOp) : KeepsPace x (issueVec x o) := by
  cases o with
  | nop => rfl
  | vmov f => exact keepsPace_regResult ..
  | vbcast f => exact keepsPace_regResult ..
  | vadd f => exact keepsPace_issueArith ..
  | vsub f => exact keepsPace_issueArith ..
  | vmul f => exact keepsPace_issueArith ..
  | vfma f => exact keepsPace_issueArith ..
  | vmax f => exact keepsPace_regResult ..
  | vmin f => exact keepsPace_regResult ..
  | vrsum f => exact keepsPace_issueVrsum ..
  | vrmax f => exact keepsPace_regResult ..
  | vexp2 f => exact keepsPace_issueFn ..
  | vlog2 f => exact keepsPace_issueFn ..
  | vrcp f => exact keepsPace_issueFn ..
  | vrsq f => exact keepsPace_issueFn ..
  | vld f => exact keepsPace_issueVld ..
  | vst f => exact keepsPace_issueVst ..
  | vqnt f => exact keepsPace_issueVqnt ..
  | vdqt f => exact keepsPace_issueVdqt ..
  | vscan f => exact keepsPace_issueVscan ..
  | vdig f => exact keepsPace_issueVdig ..

/-! The move slot. -/

/-- An outbound operation claims its increment and its cycles; what it then sends leaves the pace. -/
theorem keepsPace_outForm (x : Tile) (l : List (Nat × RegName)) (cs : List Nat) {finish : Tile → Tile}
    (hfinish : ∀ y, pace (finish y) = pace y) :
    KeepsPace x (claimAll x l >>= fun y => outClaim y cs >>= fun z => .ok (finish z)) :=
  (keepsPace_claimAll x l).bind fun y hy =>
    ((keepsPace_outClaim y cs).of_pace hy).bind fun z hz => (hfinish z).trans hz

theorem keepsPace_issuePut (me : Nat) (x : Tile) (ad : Fin 32) (didx : BitVec 13) (pinc : Bool) :
    KeepsPace x (issuePut me x ad didx pinc) :=
  .read _ fun _ => keepsPace_outForm x _ _ fun _ => pace_addPinc _ _ _

theorem keepsPace_issueMreq (me : Nat) (x : Tile) (ad : Fin 32) (didx : BitVec 13) (pinc : Bool) :
    KeepsPace x (issueMreq me x ad didx pinc) := by
  refine .read _ fun w => .ite trivial (keepsPace_outForm x _ _ fun y => (pace_addPinc _ _ _).trans ?_)
  split <;> rfl

theorem keepsPace_issuePld (soon : List Nat) (fpc : Nat) (x : Tile) (ad : Fin 32) (idx : BitVec 12) (kind pinc : Bool) :
    KeepsPace x (issuePld soon fpc x ad idx kind pinc) :=
  .ite trivial (.ite trivial (keepsPace_outForm x _ _ fun _ => pace_addPinc _ _ _))

theorem keepsPace_issueMov (me pc : Nat) (x : Tile) (o : MovOp) : KeepsPace x (issueMov me pc x o) := by
  cases o with
  | put a d p => exact keepsPace_issuePut ..
  | mreq a d p => exact keepsPace_issueMreq ..
  | wopen w d => exact .read _ fun _ => rfl
  | pld a i k p => exact keepsPace_issuePld ..
  | _ => rfl

end Sys2Proof.Machine
end

section
/-! SUPPORT. The pace of a physical cycle of a tile (spec/07_clocks_and_logical_time.md R194 to R202): its issue, its accesses and its
mesh leave it, a hold and the end of a logical cycle move it; the obligations about a logical cycle and its clock counters. -/

namespace Sys2Proof.Machine

/-! The issue of a cycle (R101, R179, R180). -/

theorem pace_issueBundle (me : Nat) (x : Tile) (pc : Nat) (b : Bundle) (flow : Bool) : pace (issueBundle me x pc b flow).tile = pace x := by
  unfold issueBundle
  extract_lets t0 t1 t2 t3 t4 r
  have h1 : pace t1 = pace x := by
    unfold t1
    split <;> rfl
  have h2 : pace t2 = pace x := by
    unfold t2
    split
    · exact h1
    · exact ((keepsPace_issueCtl pc t1 b.ctl).slotResult rfl 0 pc).trans h1
  have h3 : pace t3 = pace x := ((keepsPace_issueArr t2 b.arr).slotResult rfl 1 pc).trans h2
  have h4 : pace t4 = pace x := ((keepsPace_issueVec t3 b.vec).slotResult rfl 2 pc).trans h3
  exact ((keepsPace_issueMov me pc t4 b.mov).slotResult rfl 3 pc).trans h4

theorem pace_issuePlain (me : Nat) (x : Tile) : pace (issuePlain me x).tile = pace x := by
  unfold issuePlain
  split
  · rfl
  · split
    · exact pace_tileFault ..
    · split
      · exact pace_issueBundle ..
      · rfl

theorem pace_headFetch (x : Tile) : pace (headFetch x).1 = pace x := by
  unfold headFetch
  dsimp only
  split
  · rfl
  · split
    · exact pace_tileFault ..
    · split
      · rfl
      · split
        · rfl
        · rfl
        · rfl
        · split
          · rfl
          · exact pace_tileFault ..

theorem pace_ite {c : Prop} [Decidable c] {p : Pace} {a b : Issued} (ha : pace a.tile = p) (hb : pace b.tile = p) :
    pace (if c then a else b).tile = p := by
  split
  · exact ha
  · exact hb

theorem pace_issueGang (me : Nat) (x : Tile) : pace (issueGang me x).tile = pace x := by
  unfold issueGang
  extract_lets h push fetched t1 mine t2
  have hfetched : pace h.1 = pace x := by
    unfold h
    split
    · exact pace_headFetch x
    · rfl
  have h2 : pace t2 = pace x := by
    have h1 : pace t1 = pace x := by
      unfold t1
      split
      · exact hfetched
      · rfl
    exact h1
  clear_value t2 mine push
  rcases mine with _ | ⟨c, pc, _ | e⟩
  · exact h2
  · exact h2
  · dsimp only
    split
    · exact h2
    · split
      · exact h2
      · next b _ =>
        have hr : pace (issueBundle me t2 pc b false).tile = pace x := (pace_issueBundle ..).trans h2
        have hf := keepsPace_issueFlow pc (issueBundle me t2 pc b false).tile b.ctl
        refine pace_ite ?_ hr
        cases hflow : issueFlow pc (issueBundle me t2 pc b false).tile b.ctl with
        | ok y =>
          rw [hflow] at hf
          exact Eq.trans hf hr
        | error e => exact (pace_tileFault ..).trans hr

theorem pace_tileIssue (me : Nat) (x : Tile) : pace (tileIssue me x).tile = pace x := by
  unfold tileIssue
  split
  · exact pace_issueGang me x
  · exact pace_issuePlain me x

/-! The accesses of a cycle (R130, R142, R157, R158). -/

theorem pace_testParity (x : Tile) (l : List Access) : pace (testParity x l) = pace x := by
  unfold testParity
  split
  · unfold recordParity
    dsimp only
    split <;> rfl
  · rfl

theorem pace_loadFinish (x : Tile) (l : LoadOp) : pace (loadFinish x l) = pace x := by
  unfold loadFinish
  split <;> rfl

theorem pace_arrayReads (x : Tile) : pace (arrayReads x) = pace x := by
  refine (foldl_keeps (view := pace) pace_loadFinish _ _).trans ?_
  exact (pace_addEv _ _ _).trans (pace_addEv _ _ _)

theorem pace_spadWrite (x : Tile) (a : Nat) (bs : List Byte) : pace (spadWrite x a bs) = pace x := by
  induction bs generalizing x a with
  | nil => rfl
  | cons b bs ih => exact ih _ _

theorem pace_vportDo (x : Tile) (p : VPort) : pace (vportDo x p) = pace x := by
  cases p with
  | load v f a => exact pace_addEv _ _ _
  | dequant v f ea sa => exact pace_addEv _ _ _
  | scan v f ea sa fin =>
    unfold vportDo
    dsimp -zeta only
    extract_lets ts t1
    have h1 : pace t1 = pace x := by
      unfold t1
      cases ts <;> rfl
    split <;> exact h1
  | store a d => exact pace_spadWrite ..
  | store2 a d sa sc => exact (pace_spadWrite _ sa sc).trans (pace_spadWrite x a d)

/-- The vector port's transfers of a cycle. -/
theorem pace_portServed (x : Tile) (rest now : List (Nat × VPort)) :
    pace (now.foldl (fun y p => vportDo y p.2) { x with vport := rest }) = pace x := by
  have leaves (y : Tile) (p : Nat × VPort) : pace (vportDo y p.2) = pace y := pace_vportDo y p.2
  rw [foldl_keeps leaves]
  rfl

theorem pace_outboundDo (x : Tile) : pace (outboundDo x).1 = pace x := by
  unfold outboundDo
  extract_lets now rest t1
  have h1 : pace t1 = pace x := rfl
  clear_value t1 now
  split
  · split <;> exact h1
  · exact h1
  · split <;> exact h1
  · exact h1

theorem pace_pldWrite (fmask : Nat) (x : Tile) (e : Nat) (kind : Bool) (fpc : Nat) (ws : List (BitVec 128)) :
    pace (pldWrite fmask x e kind fpc ws) = pace x := by
  unfold pldWrite
  extract_lets ok
  split
  · rfl
  · exact pace_tileFault ..

theorem pace_pldDo (fmask : Nat) (x : Tile) : pace (pldDo fmask x) = pace x := by
  have leaves (y : Tile) (p : Nat × Nat × Bool × Nat × List (BitVec 128)) :
      pace (pldWrite fmask y p.2.1 p.2.2.1 p.2.2.2.1 p.2.2.2.2) = pace y := pace_pldWrite ..
  rw [pldDo, foldl_keeps leaves]
  rfl

/-! The mesh of a cycle (R166, R168). -/

theorem pace_recordRoute (x : Tile) (f : Nat × Nat × Nat) : pace (recordRoute x f) = pace x := pace_tileFault ..

theorem pace_localDeliver (me : Nat) (x : Tile) : pace (localDeliver me x) = pace x := by
  refine foldl_keeps (view := pace) (fun y d => ?_) _ _
  split <;> rfl

theorem pace_heldDeliver (me : Nat) (x : Tile) : pace (heldDeliver me x) = pace x := by
  refine foldl_keeps (view := pace) (fun y d => ?_) _ _
  split
  · rfl
  · split
    · split <;> rfl
    · rfl

/-! Holds and the end of a logical cycle (R194, R198, R200, R202). -/

theorem pace_countPeriods {x : Tile} (hon : x.clkOn = true) (limit : Bool) :
    pace (countPeriods x limit 1) = { pace x with phys := x.phys + 1 } := by
  simp [countPeriods, hon, pace]

theorem countPeriods_clkOn (x : Tile) (limit : Bool) (n : Nat) : (countPeriods x limit n).clkOn = x.clkOn := by
  rw [countPeriods_eq]

theorem pace_countHold (x : Tile) (c : HoldCause) : pace (countHold x c 1) = { pace x with hold := x.hold + 1 } := by
  cases c <;> rfl

/-- One physical cycle of a tile whose counters run, held under one cause. -/
theorem pace_countHold_countPeriods {x : Tile} {p : Pace} (hon : x.clkOn = true) (hp : pace x = p) (limit : Bool) (c : HoldCause) :
    pace (countHold (countPeriods x limit 1) c 1) = p.held := by
  have hperiod := pace_countPeriods hon limit
  have hhold : (countPeriods x limit 1).hold = x.hold := congrArg Pace.hold hperiod
  rw [pace_countHold, hperiod, hhold, ← hp]
  rfl

theorem pace_holdPlain {x : Tile} (hon : x.clkOn = true) (limit : Bool) (c : HoldCause) : pace (holdPlain x limit c) = (pace x).held := by
  refine pace_countHold_countPeriods ?_ ?_ limit c
  exacts [hon, rfl]

theorem pace_holdTag {x : Tile} (hon : x.clkOn = true) (me : Nat) (limit : Bool) (cause slot : Nat) :
    pace (holdTag me x limit cause slot) = (pace x).held := by
  refine (pace_heldDeliver ..).trans (pace_countHold_countPeriods ?_ ?_ limit .tag)
  exacts [hon, rfl]

theorem pace_holdQueue {x : Tile} (hon : x.clkOn = true) (me : Nat) (limit mreq : Bool) :
    pace (holdQueue me x limit mreq) = (pace x).held := by
  refine (pace_heldDeliver ..).trans (pace_countHold_countPeriods ?_ ?_ limit .tag)
  exacts [hon, rfl]

theorem pace_endBeat (x : Tile) (ps : List Dir) : pace (endBeat x ps).1 = pace x := by
  unfold endBeat
  split
  · split
    · rfl
    · split <;> rfl
  · rfl

theorem endBeat_held {x : Tile} (h : x.held = false) (ps : List Dir) : (endBeat x ps).1.held = false := by
  unfold endBeat
  split
  · split
    · rfl
    · split <;> exact h
  · exact h

/-- The tile at the end of a completed logical cycle: the next one is in progress, and it is counted. -/
theorem endCycle_completes {x : Tile} (hon : x.clkOn = true) (fmask : Nat) (up : CycleEnv) :
    pace (endCycle fmask x up) = { pace x with cyc := x.cyc + 1, logical := x.logical + 1 } ∧ (endCycle fmask x up).held = false := by
  unfold endCycle
  extract_lets t1 t2 t3 t4 t5
  have h4 : pace t4 = pace x := by
    have h1 : pace t1 = pace x := pace_addEv _ _ _
    have h2 : pace t2 = pace x := by
      unfold t2
      split <;> exact h1
    exact (pace_pldDo fmask t2).trans h2
  have hphys : t4.phys = x.phys := congrArg Pace.phys h4
  have hlogical : t4.logical = x.logical := congrArg Pace.logical h4
  have hhold : t4.hold = x.hold := congrArg Pace.hold h4
  have h5 : pace t5 = { pace x with cyc := x.cyc + 1, logical := x.logical + 1 } := by
    simp only [t5, pace, hon, if_true, hphys, hlogical, hhold]
  split <;> exact ⟨h5, rfl⟩

/-- The tile at the end of an issued cycle (R131, R142, R202): it is counted, and the losers of its bank conflicts wait. -/
def cycleEnded (env : TileEnv) (losers : List Nat) (x : Tile) : Tile :=
  let y := endCycle env.fmask (countPeriods { x with clkOn := true } env.limit 1) env.up
  if y.st = .fault then { y with clkOn := false } else { y with confQ := losers }

theorem cycleEnded_completes (env : TileEnv) (losers : List Nat) (x : Tile) :
    pace (cycleEnded env losers x) = (pace x).completed ∧ (cycleEnded env losers x).held = false := by
  have hperiod : pace (countPeriods { x with clkOn := true } env.limit 1) = { pace x with phys := x.phys + 1 } :=
    pace_countPeriods (x := { x with clkOn := true }) rfl env.limit
  have hon : (countPeriods { x with clkOn := true } env.limit 1).clkOn = true := countPeriods_clkOn _ _ _
  generalize hy : countPeriods { x with clkOn := true } env.limit 1 = y at hperiod hon
  obtain ⟨hpace, hheld⟩ := endCycle_completes hon env.fmask env.up
  have hcyc : y.cyc = x.cyc := congrArg Pace.cyc hperiod
  have hlogical : y.logical = x.logical := congrArg Pace.logical hperiod
  rw [hperiod, hcyc, hlogical] at hpace
  rw [cycleEnded, hy]
  split <;> exact ⟨hpace, hheld⟩

/-- An issued cycle that finishes completes one logical cycle (R104). -/
theorem finishCycle_completes (me : Nat) (env : TileEnv) (i : Issued) :
    pace (finishCycle me env i).tile = (pace i.tile).completed ∧ (finishCycle me env i).tile.held = false := by
  unfold finishCycle
  extract_lets t trs acc losers t1 t3 now t4 o t5 w t6 flits reqs t7 t8 t9 t10
  have h3 : pace t3 = pace t := (pace_arrayReads _).trans (pace_testParity t1 _)
  have h4 : pace t4 = pace t := (pace_portServed t3 _ now).trans h3
  have h5 : pace t5 = pace t := (pace_outboundDo _).trans ((pace_testParity t4 _).trans h4)
  have h6 : pace t6 = pace t := by
    unfold t6
    split
    · exact (pace_recordRoute t5 _).trans h5
    · exact h5
  have h7 : pace t7 = pace t := (pace_localDeliver me t6).trans h6
  obtain ⟨h10, hheld⟩ : pace t10 = (pace t7).completed ∧ t10.held = false := cycleEnded_completes env losers t7
  rw [h7] at h10
  clear_value t10 flits reqs
  split
  · exact ⟨(pace_endBeat t10 _).trans h10, endBeat_held hheld _⟩
  · exact ⟨h10, hheld⟩

end Sys2Proof.Machine
end

section
/-! SUPPORT. One physical cycle of a tile of the device, and the balance of its clock counters
(spec/07_clocks_and_logical_time.md R104, R194 to R202). -/

namespace Sys2Proof.Machine

/-- A tile whose physical cycles count: it runs, its oscillator is on, and the cycle limit has not come before DONE (R112, R188). -/
def Cycles (x : Tile) : Prop := x.st = .run ∧ x.oscOn = true ∧ (x.cyc = 2 ^ 31 → x.doneIss = true)

theorem not_stopped_of_cycles {x : Tile} (h : Cycles x) : ¬ (x.st ≠ .run ∨ x.oscOn = false ∨ (x.cyc = 2 ^ 31 ∧ ¬ x.doneIss)) := by
  obtain ⟨hrun, hosc, hlimit⟩ := h
  rintro (hst | hoff | ⟨hcyc, hdone⟩)
  · exact hst hrun
  · rw [hosc] at hoff
    cases hoff
  · exact hdone (hlimit hcyc)

/-- A cycle that is not taken up by the losers of a bank conflict, from the tile y as the cycle finds it. -/
def openCycle (me : Nat) (env : TileEnv) (y : Tile) : TileOut :=
  if beatHeld y env.partners then outNone (holdPlain y env.limit .beat)
  else if wordLate y env.partners then outNone (holdPlain y env.limit .late)
  else match accessBlocked y (cycleTransfers (tileIssue me y).tile).flatten with
    | some b => outNone (holdTag me y env.limit b.1 b.2)
    | none => match movBlocked y (tileIssue me y).mov with
      | some b => outNone (holdTag me y env.limit b.1 b.2)
      | none =>
        if y.mreqOut = 32 ∧ isMreq (tileIssue me y).mov then outNone (holdQueue me y env.limit true)
        else if localBlocked me y then outNone (holdQueue me y env.limit false)
        else finishCycle me env (tileIssue me y)

theorem tileCycle_open {me : Nat} {env : TileEnv} {x : Tile} (h : Cycles x) (hq : x.confQ = []) :
    tileCycle me env x = openCycle me env (tileAt x env.up) := by
  have hnone : ¬ ¬ (x.confQ.isEmpty = true) := not_not.mpr (List.isEmpty_iff.mpr hq)
  unfold tileCycle
  extract_lets arr u t0 t1 i
  rw [if_neg (not_stopped_of_cycles h), if_neg hnone]
  have hfound : t1 = tileAt x env.up := rfl
  have hissue : i = tileIssue me t1 := rfl
  clear_value i
  subst hissue
  clear_value t1
  subst hfound
  unfold openCycle
  cases accessBlocked (tileAt x env.up) (cycleTransfers (tileIssue me (tileAt x env.up)).tile).flatten with
  | some b => rfl
  | none => cases movBlocked (tileAt x env.up) (tileIssue me (tileAt x env.up)).mov <;> rfl

theorem tileCycle_losers {me : Nat} {env : TileEnv} {x : Tile} (h : Cycles x) (hq : x.confQ ≠ []) :
    ∃ y, clockSide y = clockSide x ∧ tileCycle me env x = conflictCycle y env.limit env.partners := by
  have hsome : ¬ (x.confQ.isEmpty = true) := mt List.isEmpty_iff.mp hq
  unfold tileCycle
  extract_lets arr u t0 t1 i
  rw [if_neg (not_stopped_of_cycles h), if_pos hsome]
  exact ⟨_, clockSide_settleSoon u, rfl⟩

theorem tileCycle_stopped {me : Nat} {env : TileEnv} {x : Tile} (h : ¬ Cycles x) : pace (tileCycle me env x).tile = pace x := by
  have hstop : x.st ≠ .run ∨ x.oscOn = false ∨ (x.cyc = 2 ^ 31 ∧ ¬ x.doneIss) := by
    by_contra hgo
    rw [not_or, not_or, not_not, Bool.not_eq_false, not_and, not_not] at hgo
    exact h hgo
  unfold tileCycle
  extract_lets arr u t0 t1 i
  rw [if_pos hstop]
  exact pace_of_clockSide (clockSide_settleSoon u)

/-- A cycle that nothing holds finishes. -/
theorem openCycle_finishes {me : Nat} {env : TileEnv} {y : Tile} (hbeat : beatHeld y env.partners = false)
    (hlate : wordLate y env.partners = false) (hacc : accessBlocked y (cycleTransfers (tileIssue me y).tile).flatten = none)
    (hmov : movBlocked y (tileIssue me y).mov = none) (hmreq : isMreq (tileIssue me y).mov = true → y.mreqOut ≠ 32)
    (hlocal : localBlocked me y = false) : openCycle me env y = finishCycle me env (tileIssue me y) := by
  have hqueue : ¬ (y.mreqOut = 32 ∧ isMreq (tileIssue me y).mov = true) := fun h => hmreq h.2 h.1
  rw [openCycle, if_neg (Bool.eq_false_iff.mp hbeat), if_neg (Bool.eq_false_iff.mp hlate), hacc]
  dsimp only
  rw [hmov]
  exact (if_neg hqueue).trans (if_neg (Bool.eq_false_iff.mp hlocal))

/-! The counters balance (R202). -/

theorem pace_openCycle {y : Tile} (hon : y.clkOn = true) (me : Nat) (env : TileEnv) :
    pace (openCycle me env y).tile = (pace y).held ∨ pace (openCycle me env y).tile = (pace y).completed := by
  have hsilent {z : Tile} (hz : pace z = (pace y).held) : pace (outNone z).tile = (pace y).held := hz
  have hplain (c : HoldCause) := hsilent (pace_holdPlain hon env.limit c)
  have htag (b : Nat × Nat) := hsilent (pace_holdTag hon me env.limit b.1 b.2)
  have hqueue (mreq : Bool) := hsilent (pace_holdQueue hon me env.limit mreq)
  have hfinish : pace (finishCycle me env (tileIssue me y)).tile = (pace y).completed :=
    (finishCycle_completes ..).1.trans (congrArg Pace.completed (pace_tileIssue me y))
  unfold openCycle
  generalize tileIssue me y = i at hfinish ⊢
  split
  · exact .inl (hplain _)
  · split
    · exact .inl (hplain _)
    · split
      · exact .inl (htag _)
      · split
        · exact .inl (htag _)
        · split
          · exact .inl (hqueue _)
          · split
            · exact .inl (hqueue _)
            · exact .inr hfinish

theorem pace_conflictCycle {y : Tile} (hon : y.clkOn = true) (limit : Bool) (ps : List Dir) :
    pace (conflictCycle y limit ps).tile = (pace y).held := by
  unfold conflictCycle
  extract_lets u b
  have hu : pace u = (pace y).held := pace_holdPlain (x := { y with banks := bankMask y.confQ, confQ := y.confQ.drop 1 }) hon limit .conflict
  split
  · exact (pace_endBeat u ps).trans hu
  · exact hu

theorem balanced_tileCycle {x : Tile} (hon : x.st = .run → x.clkOn = true) (hb : (pace x).Balanced) (me : Nat) (env : TileEnv) :
    (pace (tileCycle me env x).tile).Balanced := by
  by_cases h : Cycles x
  · by_cases hq : x.confQ = []
    · have hside := clockSide_tileAt x env.up
      have hclk : (tileAt x env.up).clkOn = true := (congrArg ClockSide.clkOn hside).trans (hon h.1)
      have hpace := pace_openCycle hclk me env
      rw [← tileCycle_open h hq, pace_of_clockSide hside] at hpace
      rcases hpace with hheld | hdone
      · rw [hheld]
        exact hb.held
      · rw [hdone]
        exact hb.completed
    · obtain ⟨y, hside, hcycle⟩ := tileCycle_losers (me := me) (env := env) h hq
      have hclk : y.clkOn = true := (congrArg ClockSide.clkOn hside).trans (hon h.1)
      rw [hcycle, pace_conflictCycle hclk, pace_of_clockSide hside]
      exact hb.held
  · rw [tileCycle_stopped h]
    exact hb

theorem balanced_lastCycle {x : Tile} (hb : (pace x).Balanced) (limit : Bool) : (pace (lastCycle limit x)).Balanced := by
  unfold lastCycle
  split
  · have hperiod := pace_countPeriods (x := { x with clkOn := true }) rfl limit
    have hphys : (countPeriods { x with clkOn := true } limit 1).phys = x.phys + 1 := congrArg Pace.phys hperiod
    have hhold : (countPeriods { x with clkOn := true } limit 1).hold = x.hold := congrArg Pace.hold hperiod
    have hbalanced : x.phys + 1 = x.logical + 1 + x.hold := hb.stopped
    exact hphys.trans (hbalanced.trans (congrArg (x.logical + 1 + ·) hhold.symm))
  · exact hb

theorem balanced_tileOp {x : Tile} (hb : (pace x).Balanced) (e : OpEnv) (slot : Nat) {f : Tile → Except TFault Tile}
    (hf : ∀ y, KeepsPace y (f y)) : (pace (tileOp e x slot f)).Balanced := by
  unfold tileOp
  split
  · refine balanced_lastCycle ?_ e.limit
    rw [(hf (tileNow x)).slotResult rfl slot _, pace_of_clockSide (clockSide_tileNow x)]
    exact hb
  · exact hb

theorem balanced_tileMove {x : Tile} (hon : x.st = .run → x.clkOn = true) (hb : (pace x).Balanced) (e : OpEnv) (me : Nat) (o : MovOp) :
    (pace (tileMove e me x o)).Balanced := by
  have hnow := pace_of_clockSide (clockSide_tileNow x)
  unfold tileMove
  split
  · next hissues =>
    have hrun : x.st = .run := by
      simp only [tileIssues, Bool.and_eq_true, beq_iff_eq] at hissues
      obtain ⟨⟨⟨⟨⟨hrun, -⟩, -⟩, -⟩, -⟩, -⟩ := hissues
      exact hrun
    have hclk : (tileNow x).clkOn = true := (congrArg ClockSide.clkOn (clockSide_tileNow x)).trans (hon hrun)
    split
    · rw [pace_holdTag hclk, hnow]
      exact hb.held
    · split
      · rw [pace_holdQueue hclk, hnow]
        exact hb.held
      · refine balanced_lastCycle ?_ e.limit
        rw [(keepsPace_issueMov me _ (tileNow x) o).slotResult rfl 3 _, hnow]
        exact hb
  · exact hb

/-! What a cycle of a tile sends (R161, R174, R194): flits and tokens join the wires of its partners, requests the ring. -/

/-- A tile without what is on the way to it. -/
def offWires (x : Tile) : Tile := { x with wire := [], tokWire := [] }

theorem offWires_sendFlit (t u : Nat) (s : State) (f : Dir × Flit) : offWires (tileOf (sendFlit s t f) u) = offWires (tileOf s u) := by
  unfold sendFlit
  split
  · rw [tileOf_updTile]
    split
    · next h => rw [← h]; rfl
    · rfl
  · rfl

theorem offWires_sendToken (t u : Nat) (s : State) (k : Dir × BeatTok) :
    offWires (tileOf (sendToken s t k) u) = offWires (tileOf s u) := by
  unfold sendToken
  split
  · rw [tileOf_updTile]
    split
    · next h => rw [← h]; rfl
    · rfl
  · rfl

theorem tileOf_sendReqs (s : State) (t u : Nat) (rs : List MDesc) : tileOf (sendReqs s t rs) u = tileOf s u := by
  unfold sendReqs
  split
  · split <;> rfl
  · rfl

theorem sendReqs_nil (s : State) (t : Nat) : sendReqs s t [] = s := by
  unfold sendReqs
  split <;> rfl

theorem offWires_deviceCycle (s : State) (t : Nat) (up : CycleEnv) :
    offWires (tileOf (deviceCycle s t up) t) = offWires (tileCycle t (envOf s t up) (tileOf s t)).tile := by
  have hflits := foldl_keeps (view := fun n => offWires (tileOf n t)) (offWires_sendFlit t t)
  have htokens := foldl_keeps (view := fun n => offWires (tileOf n t)) (offWires_sendToken t t)
  unfold deviceCycle
  extract_lets o s1 s2 s3
  rw [tileOf_sendReqs]
  refine (htokens o.tokens s2).trans ((hflits o.flits s1).trans ?_)
  exact congrArg offWires ((tileOf_setTile s t t o.tile).trans (if_pos rfl))

theorem deviceCycle_of_outNone {s : State} {t : Nat} {up : CycleEnv} {y : Tile}
    (h : tileCycle t (envOf s t up) (tileOf s t) = outNone y) : deviceCycle s t up = setTile s t y := by
  rw [deviceCycle, h]
  exact sendReqs_nil _ t

theorem pace_deviceCycle (s : State) (t : Nat) (up : CycleEnv) :
    pace (tileOf (deviceCycle s t up) t) = pace (tileCycle t (envOf s t up) (tileOf s t)).tile := by
  have hsent := congrArg pace (offWires_deviceCycle s t up)
  exact hsent

/-- Settles O17: a physical cycle is a completed logical cycle or one hold, and an operation holds, or stops its tile in a counted cycle, or
leaves the counters. -/
theorem clockCountersBalance : Obligations.ClockCountersBalance := by
  intro s n t c hc hexec hon hb
  have hbal : (pace (tileOf s t.val)).Balanced := hb
  suffices hgoal : (pace (tileOf n t.val)).Balanced from hgoal
  rcases hc with ⟨up, rfl⟩ | ⟨d, a, imm, rfl⟩ | ⟨f, rfl⟩ | ⟨slot, rfl⟩ | ⟨ad, didx, pinc, rfl⟩ <;> cases hexec
  · rw [pace_deviceCycle]
    exact balanced_tileCycle hon hbal _ _
  · rw [slotOp, tileOf_updTile, if_pos rfl]
    exact balanced_tileOp hbal _ _ fun y => keepsPace_scResult ..
  · rw [slotOp, tileOf_updTile, if_pos rfl]
    exact balanced_tileOp hbal _ _ fun y => keepsPace_issueVst y f
  · rw [moveOp, tileOf_updTile, if_pos rfl]
    exact balanced_tileMove hon hbal _ _ _
  · rw [moveOp, tileOf_updTile, if_pos rfl]
    exact balanced_tileMove hon hbal _ _ _

/-! A physical cycle completes a logical cycle or holds (R104, R142, R194, R196, R198). -/

/-- What a hold for a loser of a bank conflict records (R142, R198). -/
theorem holdPlain_conflict_effect (x : Tile) (limit : Bool) :
    let y := holdPlain x limit .conflict
    y.cyc = x.cyc ∧ y.logical = x.logical ∧ y.hold = x.hold + 1 ∧ y.hConf = satAdd32 x.hConf 1 ∧ y.confQ = x.confQ := by
  rw [holdPlain, countPeriods_eq]
  exact ⟨rfl, rfl, rfl, rfl, rfl⟩

/-- The end of a beat leaves the clock side but for whether the counters count (R194, R200). -/
theorem clockSide_endBeat (x : Tile) (ps : List Dir) :
    clockSide (endBeat x ps).1 = { clockSide x with clkOn := (endBeat x ps).1.clkOn } := by
  unfold endBeat
  split
  · split
    · rfl
    · split <;> rfl
  · rfl

/-- The cycle of a loser holds: the loser is served, and the hold counts under the conflict cause. -/
theorem conflictCycle_effect (y : Tile) (limit : Bool) (ps : List Dir) :
    let z := (conflictCycle y limit ps).tile
    z.cyc = y.cyc ∧ z.logical = y.logical ∧ z.hold = y.hold + 1 ∧ z.hConf = satAdd32 y.hConf 1 ∧ z.confQ = y.confQ.drop 1 := by
  unfold conflictCycle
  extract_lets u b z
  have hu := holdPlain_conflict_effect { y with banks := bankMask y.confQ, confQ := y.confQ.drop 1 } limit
  have hbeat := clockSide_endBeat u ps
  unfold z
  split
  · obtain ⟨hcyc, hlogical, hhold, hconf, hrest⟩ := hu
    exact ⟨(congrArg (·.pace.cyc) hbeat).trans hcyc, (congrArg (·.pace.logical) hbeat).trans hlogical,
      (congrArg (·.pace.hold) hbeat).trans hhold, (congrArg (·.hConf) hbeat).trans hconf, (congrArg (·.confQ) hbeat).trans hrest⟩
  · exact hu

/-- Settles O16: a loser's cycle, a closed gate and a late word hold under their causes; a cycle that nothing holds finishes. -/
theorem logicalCycleCompletesOrHolds : Obligations.LogicalCycleCompletesOrHolds := by
  intro s t up x env y i hrun hosc hlimit
  have hcycles : Cycles x := ⟨hrun, hosc, hlimit⟩
  have hsent := offWires_deviceCycle s t.val up
  refine ⟨fun hq => ⟨deviceCycle s t.val up, rfl, ?_⟩, fun hq => ?_⟩
  · obtain ⟨z, hside, hcycle⟩ := tileCycle_losers (me := t.val) (env := env) hcycles hq
    obtain ⟨hcyc, hlogical, hhold, hconf, hrest⟩ := conflictCycle_effect z env.limit env.partners
    rw [← hcycle] at hcyc hlogical hhold hconf hrest
    have hzcyc : z.cyc = x.cyc := congrArg (·.pace.cyc) hside
    have hzlogical : z.logical = x.logical := congrArg (·.pace.logical) hside
    have hzhold : z.hold = x.hold := congrArg (·.pace.hold) hside
    have hzconf : z.hConf = x.hConf := congrArg (·.hConf) hside
    have hzrest : z.confQ = x.confQ := congrArg (·.confQ) hside
    rw [hzcyc] at hcyc
    rw [hzlogical] at hlogical
    rw [hzhold] at hhold
    rw [hzconf] at hconf
    rw [hzrest] at hrest
    exact ⟨(congrArg (·.cyc) hsent).trans hcyc, (congrArg (·.logical) hsent).trans hlogical, (congrArg (·.hold) hsent).trans hhold,
      (congrArg (·.hConf) hsent).trans hconf, (congrArg (·.confQ) hsent).trans hrest⟩
  · have hopen : tileCycle t.val env x = openCycle t.val env y := tileCycle_open hcycles hq
    refine ⟨fun hbeat hlate hacc hmov hmreq hlocal => ⟨deviceCycle s t.val up, rfl, ?_⟩, fun hbeat => ?_, fun hbeat hlate => ?_⟩
    · have hfinish : openCycle t.val env y = finishCycle t.val env i := openCycle_finishes hbeat hlate hacc hmov hmreq hlocal
      obtain ⟨hpace, hheld⟩ := finishCycle_completes t.val env i
      have hx : pace i.tile = pace x := (pace_tileIssue t.val y).trans (pace_of_clockSide (clockSide_tileAt x up))
      rw [← hfinish, ← hopen] at hpace hheld
      rw [hx] at hpace
      exact ⟨(congrArg (·.cyc) hsent).trans (congrArg Pace.cyc hpace), (congrArg (·.logical) hsent).trans (congrArg Pace.logical hpace),
        (congrArg (·.held) hsent).trans hheld⟩
    · have hhold : openCycle t.val env y = outNone (holdPlain y env.limit .beat) := by
        rw [openCycle, if_pos hbeat]
      exact congrArg Host.Outcome.next (deviceCycle_of_outNone (hopen.trans hhold))
    · have hhold : openCycle t.val env y = outNone (holdPlain y env.limit .late) := by
        rw [openCycle, if_neg (Bool.eq_false_iff.mp hbeat), if_pos hlate]
      exact congrArg Host.Outcome.next (deviceCycle_of_outNone (hopen.trans hhold))

end Sys2Proof.Machine
end
